-- ==== Sys2Proof/Word.lean ====
section
/-! DEFINITION. The word types of the machine. -/

namespace Sys2Proof

/-- A byte of memory (R5). -/
abbrev Byte := BitVec 8

/-- A 64-bit register word (R142). -/
abbrev W64 := BitVec 64

/-- An instruction word (R33). -/
abbrev W32 := BitVec 32

/-- A virtual address (R78). -/
abbrev VA := BitVec 50

/-- Data held by key, sparsely: the keys rise strictly. -/
abbrev Sparse (α : Type) := List (Nat × α)

end Sys2Proof
end

