-- ==== Sys2Proof/Machine/Numbers.lean ====
section
/-! DEFINITION. Number formats and their exact arithmetic (04_numbers R54 to R77). -/

namespace Sys2Proof.Machine

/-! ### Flags (R61), as the low eight bits of %flags -/

abbrev Flags := BitVec 8

def flagNV : Flags := 0x01
def flagDZ : Flags := 0x02
def flagOF : Flags := 0x04
def flagUF : Flags := 0x08
def flagNX : Flags := 0x10
def flagSAT : Flags := 0x20
def flagOVFO : Flags := 0x40
def flagSNG : Flags := 0x80

/-- A flag raised when a condition holds. -/
def flagIf (c : Bool) (f : Flags) : Flags := if c then f else 0

/-! ### Rounding modes (R59) -/

inductive Mode where
  | rne | rz | rd | ru
deriving DecidableEq, Repr, Inhabited

/-- The mode %round selects (R59). -/
def Mode.ofBits (n : Nat) : Mode :=
  match n % 4 with
  | 0 => .rne
  | 1 => .rz
  | 2 => .rd
  | _ => .ru

/-! ### Float formats (R56) -/

/-- What the top exponent of a format holds. -/
inductive Specials where
  /-- infinities and NaNs, as in IEEE 754 -/
  | ieee
  /-- one NaN code of each sign and no infinity (e4m3) -/
  | nanOnly
  /-- numbers only -/
  | none
deriving DecidableEq, Repr, Inhabited

/-- A float format: exponent bits, fraction bits, bias and specials. -/
structure Fmt where
  ew : Nat
  fw : Nat
  bias : Nat
  specials : Specials
deriving DecidableEq, Repr, Inhabited

def fmtF32 : Fmt := ⟨8, 23, 127, .ieee⟩
def fmtF16 : Fmt := ⟨5, 10, 15, .ieee⟩
def fmtBf16 : Fmt := ⟨8, 7, 127, .ieee⟩
def fmtE5m2 : Fmt := ⟨5, 2, 15, .ieee⟩
def fmtE4m3 : Fmt := ⟨4, 3, 7, .nanOnly⟩
def fmtE3m2 : Fmt := ⟨3, 2, 3, .none⟩
def fmtE2m3 : Fmt := ⟨2, 3, 1, .none⟩
def fmtE2m1 : Fmt := ⟨2, 1, 1, .none⟩
/-- The anvil's wide format: an 8-bit exponent and a 40-bit significand (R74). -/
def fmtF40 : Fmt := ⟨8, 39, 127, .ieee⟩

/-- The width of a value of the format. -/
def Fmt.width (f : Fmt) : Nat := 1 + f.ew + f.fw

/-- The exponent of the unit in the last place of a subnormal. -/
def Fmt.qmin (f : Fmt) : Int := 1 - (f.bias : Int) - (f.fw : Int)

/-- The largest exponent field that holds numbers, and the largest fraction with it. -/
def Fmt.top (f : Fmt) : Nat × Nat :=
  match f.specials with
  | .ieee => (2 ^ f.ew - 2, 2 ^ f.fw - 1)
  | .nanOnly => (2 ^ f.ew - 1, 2 ^ f.fw - 2)
  | .none => (2 ^ f.ew - 1, 2 ^ f.fw - 1)

/-- A code put together from sign, exponent field and fraction. -/
def Fmt.pack (f : Fmt) (neg : Bool) (e m : Nat) : Nat :=
  (if neg then 2 ^ (f.ew + f.fw) else 0) + e * 2 ^ f.fw + m

/-- The canonical NaN (R56). A format without NaN has none: its largest value stands for it. -/
def Fmt.nan (f : Fmt) : Nat :=
  match f.specials with
  | .ieee => f.pack false (2 ^ f.ew - 1) (2 ^ (f.fw - 1))
  | .nanOnly => f.pack false (2 ^ f.ew - 1) (2 ^ f.fw - 1)
  | .none => f.pack false f.top.1 f.top.2

/-- The largest finite value of a sign. -/
def Fmt.largest (f : Fmt) (neg : Bool) : Nat := f.pack neg f.top.1 f.top.2

/-- An infinity; formats without one give the largest value. -/
def Fmt.inf (f : Fmt) (neg : Bool) : Nat :=
  match f.specials with
  | .ieee => f.pack neg (2 ^ f.ew - 1) 0
  | _ => f.largest neg

/-! ### Exact values -/

/-- An exact value: a NaN, an infinity, or ±m × 2^e, signed zeros included. -/
inductive FV where
  | nan (signalling : Bool)
  | inf (neg : Bool)
  | fin (neg : Bool) (m : Nat) (e : Int)
deriving DecidableEq, Repr, Inhabited

namespace FV

def isNan : FV → Bool
  | .nan _ => true
  | _ => false

def isSnan : FV → Bool
  | .nan s => s
  | _ => false

def isInf : FV → Bool
  | .inf _ => true
  | _ => false

def isZero : FV → Bool
  | .fin _ 0 _ => true
  | _ => false

/-- The sign of a value; a NaN counts as positive. -/
def negative : FV → Bool
  | .nan _ => false
  | .inf n => n
  | .fin n _ _ => n

def neg : FV → FV
  | .nan s => .nan s
  | .inf n => .inf (!n)
  | .fin n m e => .fin (!n) m e

def abs : FV → FV
  | .nan s => .nan s
  | .inf _ => .inf false
  | .fin _ m e => .fin false m e

end FV

/-- The value +0. -/
def fvZero : FV := .fin false 0 0

/-- The value a code stands for (R56, R57). -/
def Fmt.decode (f : Fmt) (bits : Nat) : FV :=
  let m := bits % 2 ^ f.fw
  let e := bits / 2 ^ f.fw % 2 ^ f.ew
  let neg := bits / 2 ^ (f.fw + f.ew) % 2 = 1
  let number : FV :=
    if e = 0 then .fin neg m f.qmin
    else .fin neg (2 ^ f.fw + m) ((e : Int) - 1 + f.qmin)
  match f.specials with
  | .none => number
  | .nanOnly => if e = 2 ^ f.ew - 1 ∧ m = 2 ^ f.fw - 1 then .nan false else number
  | .ieee =>
    if e = 2 ^ f.ew - 1 then
      if m = 0 then .inf neg else .nan (m / 2 ^ (f.fw - 1) = 0)
    else number

/-- A finite value as an integer multiple of 2^e, with sign. -/
def signed (neg : Bool) (m : Nat) : Int := if neg then -(m : Int) else m

/-- x × 2^k as an exact integer, for k ≥ 0. -/
def scaleInt (x k : Int) : Int := x * 2 ^ k.toNat

/-- The exact sum of two integer multiples of powers of two. -/
def dyAdd (a b : Int × Int) : Int × Int :=
  let e := min a.2 b.2
  (scaleInt a.1 (a.2 - e) + scaleInt b.1 (b.2 - e), e)

/-- The comparison a < b of two finite values, exactly. -/
def dyLt (a b : Int × Int) : Bool :=
  let e := min a.2 b.2
  decide (scaleInt a.1 (a.2 - e) < scaleInt b.1 (b.2 - e))

/-! ### Rounding (R60) -/

/-- Whether the rounding of n + rem / 2^sh goes up in magnitude. -/
def roundsUp (mode : Mode) (neg : Bool) (n rem sh : Nat) : Bool :=
  match mode with
  | .rne => decide (2 ^ sh < 2 * rem) || (decide (2 * rem = 2 ^ sh) && n % 2 == 1)
  | .rz => false
  | .rd => neg && rem != 0
  | .ru => !neg && rem != 0

/-- How a rounding treats an overflow: the table of R60, or ±largest with SAT and NX (VCVTSAT). -/
inductive Overflow where
  | table
  | saturate
deriving DecidableEq, Repr, Inhabited

/-- What an overflow gives (R60). -/
def Fmt.overflow (f : Fmt) (mode : Mode) (ov : Overflow) (neg : Bool) : Nat × Flags :=
  match ov with
  | .saturate => (f.largest neg, flagSAT ||| flagNX)
  | .table =>
    match f.specials with
    | .nanOnly => (f.nan, flagOF ||| flagNX)
    | .none => (f.largest neg, flagOF ||| flagNX)
    | .ieee =>
      match mode with
      | .rne => (f.inf neg, flagOF ||| flagNX)
      | .rz => (f.largest neg, flagOF ||| flagNX)
      | .rd => (if neg then f.inf true else f.largest false, flagOF ||| flagNX)
      | .ru => (if neg then f.largest true else f.inf false, flagOF ||| flagNX)

/-- The exact value ±m × 2^e rounded once into a format, with its flags (R60). -/
def Fmt.round (f : Fmt) (mode : Mode) (ov : Overflow) (neg : Bool) (m : Nat) (e : Int) : Nat × Flags :=
  if m = 0 then (f.pack neg 0 0, 0)
  else
    let q : Int := max (e + (Nat.log2 m : Int) - (f.fw : Int)) f.qmin
    let (n, inexact) :=
      if q ≤ e then (m * 2 ^ (e - q).toNat, false)
      else
        let sh := (q - e).toNat
        let n := m / 2 ^ sh
        let rem := m % 2 ^ sh
        (if roundsUp mode neg n rem sh then n + 1 else n, rem != 0)
    -- a carry out of the significand moves to the next exponent
    let (n, q) := if n = 2 ^ (f.fw + 1) then (2 ^ f.fw, q + 1) else (n, q)
    if n < 2 ^ f.fw then
      (f.pack neg 0 n, if inexact then flagUF ||| flagNX else 0)
    else
      let field : Nat := (q - f.qmin + 1).toNat
      let top := f.top
      if top.1 < field ∨ (field = top.1 ∧ top.2 < n - 2 ^ f.fw) then f.overflow mode ov neg
      else (f.pack neg field (n - 2 ^ f.fw), flagIf inexact flagNX)

/-- Any value put into a format: NaNs become canonical (R64), infinities keep their sign, numbers are rounded. -/
def Fmt.put (f : Fmt) (mode : Mode) (v : FV) : Nat × Flags :=
  match v with
  | .nan _ => (f.nan, 0)
  | .inf n => (f.inf n, 0)
  | .fin n m e => f.round mode .table n m e

/-- A finite value put into a format when it is a signed integer multiple. -/
def fvOfDy (mode : Mode) (d : Int × Int) : FV :=
  if d.1 = 0 then .fin (mode = .rd) 0 0 else .fin (decide (d.1 < 0)) d.1.natAbs d.2

/-! ### Sums and products (R61, R64, R66, R67) -/

/-- The exact product, with NV for a signalling NaN or 0 × ∞. -/
def fvMul (a b : FV) : FV × Flags :=
  match a, b with
  | .nan s, .nan t => (.nan false, flagIf (s || t) flagNV)
  | .nan s, _ => (.nan false, flagIf s flagNV)
  | _, .nan t => (.nan false, flagIf t flagNV)
  | .inf n, .inf k => (.inf (n != k), 0)
  | .inf n, .fin k m _ => if m = 0 then (.nan false, flagNV) else (.inf (n != k), 0)
  | .fin k m _, .inf n => if m = 0 then (.nan false, flagNV) else (.inf (n != k), 0)
  | .fin n m e, .fin k m' e' => (.fin (n != k) (m * m') (e + e'), 0)

/-- The exact sum of the finite terms of a list. -/
def dySum (ts : List FV) : Int × Int :=
  ts.foldl (fun acc t =>
    match t with
    | .fin n m e => if m = 0 then acc else dyAdd acc (signed n m, e)
    | _ => acc) (0, 0)

/-- Whether every term is a zero of the given sign. -/
def allZeros (neg : Bool) (ts : List FV) : Bool :=
  ts.all fun t =>
    match t with
    | .fin n 0 _ => n == neg
    | _ => false

/-- The exact sum of some terms: a NaN if a term is one, NV for infinities of both signs or a signalling NaN; an exact zero is +0
unless every term is -0, and under RD -0 unless every term is +0 (R66, R267). DESIGN CHOICE: the terms have no order, so infinities of both signs set
NV beside a quiet NaN too (log 58). -/
def fvSum (mode : Mode) (ts : List FV) : FV × Flags :=
  let pos := ts.any fun t => match t with | .inf n => !n | _ => false
  let negs := ts.any fun t => match t with | .inf n => n | _ => false
  let snan := flagIf (ts.any FV.isSnan) flagNV
  if ts.any FV.isNan then (.nan false, snan ||| flagIf (pos && negs) flagNV)
  else if pos && negs then (.nan false, flagNV)
  else if pos then (.inf false, 0)
  else if negs then (.inf true, 0)
  else
    let d := dySum ts
    if d.1 = 0 then
      let neg := if mode = .rd then !(allZeros false ts) else allZeros true ts
      (.fin neg 0 0, 0)
    else (fvOfDy mode d, 0)

/-- The integer square root, by bits from the top. -/
def isqrtLoop : Nat → Nat → Nat → Nat
  | 0, _, r => r
  | k + 1, n, r =>
    let c := r + 2 ^ k
    if c * c ≤ n then isqrtLoop k n c else isqrtLoop k n r

def isqrt (n : Nat) : Nat := isqrtLoop (Nat.log2 n / 2 + 1) n 0

/-- How many extra bits a quotient or a root is formed with before its one rounding. -/
def guardBits : Nat := 128

/-- The quotient m / d × 2^e with one sticky bit below its last place, as a value to be rounded once. -/
def quotient (neg : Bool) (m d : Nat) (e : Int) : FV :=
  let k := guardBits + Nat.log2 d
  let q := m * 2 ^ k / d
  let sticky := if m * 2 ^ k % d = 0 then 0 else 1
  .fin neg (2 * q + sticky) (e - k - 1)

/-- a / b (R265): NV for 0/0 and ∞/∞, DZ for a finite non-zero value over zero. -/
def fvDiv (a b : FV) : FV × Flags :=
  match a, b with
  | .nan s, .nan t => (.nan false, flagIf (s || t) flagNV)
  | .nan s, _ => (.nan false, flagIf s flagNV)
  | _, .nan t => (.nan false, flagIf t flagNV)
  | .inf _, .inf _ => (.nan false, flagNV)
  | .inf n, .fin k _ _ => (.inf (n != k), 0)
  | .fin n _ _, .inf k => (.fin (n != k) 0 0, 0)
  | .fin n m e, .fin k m' e' =>
    if m' = 0 then
      if m = 0 then (.nan false, flagNV) else (.inf (n != k), flagDZ)
    else if m = 0 then (.fin (n != k) 0 0, 0)
    else (quotient (n != k) m m' (e - e'), 0)

/-- √a (R265, R66): √-0 is -0, NV below it. -/
def fvSqrt (a : FV) : FV × Flags :=
  match a with
  | .nan s => (.nan false, flagIf s flagNV)
  | .inf n => if n then (.nan false, flagNV) else (.inf false, 0)
  | .fin n m e =>
    if m = 0 then (.fin n 0 0, 0)
    else if n then (.nan false, flagNV)
    else
      -- an even exponent, and guard bits in pairs
      let (m, e) := if e % 2 = 0 then (m, e) else (2 * m, e - 1)
      let big := m * 2 ^ (2 * guardBits)
      let r := isqrt big
      let sticky := if r * r = big then 0 else 1
      (.fin false (2 * r + sticky) (e / 2 - guardBits - 1), 0)

/-- 1 / √a (R265): ±∞ with DZ for ±0, +0 for +∞, NV below -0. -/
def fvRsq (a : FV) : FV × Flags :=
  match a with
  | .nan s => (.nan false, flagIf s flagNV)
  | .inf n => if n then (.nan false, flagNV) else (.fin false 0 0, 0)
  | .fin n m e =>
    if m = 0 then (.inf n, flagDZ)
    else if n then (.nan false, flagNV)
    else
      let (m, e) := if e % 2 = 0 then (m, e) else (2 * m, e - 1)
      -- 1/√m = √(2^(2k) / m) / 2^k
      let k := guardBits + Nat.log2 m
      let r := isqrt (2 ^ (2 * k) / m)
      let sticky := if r * r * m = 2 ^ (2 * k) then 0 else 1
      (.fin false (2 * r + sticky) (-(e / 2) - k - 1), 0)

/-- The order of VFMIN and VFMAX: -∞ < … < -0 < +0 < … < +∞ (R67); NaNs are not asked for. -/
def fvLess (a b : FV) : Bool :=
  match a, b with
  | .nan _, _ => false
  | _, .nan _ => false
  | .inf n, .inf k => n && !k
  | .inf n, .fin _ _ _ => n
  | .fin _ _ _, .inf k => !k
  | .fin n m e, .fin k m' e' =>
    if m = 0 ∧ m' = 0 then n && !k else dyLt (signed n m, e) (signed k m', e')

/-- a = b as numbers: -0 equals +0, a NaN equals nothing (R266). -/
def fvEq (a b : FV) : Bool :=
  match a, b with
  | .inf n, .inf k => n == k
  | .fin n m e, .fin k m' e' => !(dyLt (signed n m, e) (signed k m', e')) && !(dyLt (signed k m', e') (signed n m, e))
  | _, _ => false

/-- a < b as numbers (R266). -/
def fvLt (a b : FV) : Bool :=
  match a, b with
  | .fin n m e, .fin k m' e' => dyLt (signed n m, e) (signed k m', e')
  | a, b => fvLess a b

/-! ### Conversions to integers (R65) -/

/-- The integer nearest a finite value under a mode, and whether the value was one. -/
def roundToInt (mode : Mode) (neg : Bool) (m : Nat) (e : Int) : Int × Bool :=
  if 0 ≤ e then (signed neg (m * 2 ^ e.toNat), false)
  else
    let sh := (-e).toNat
    let n := m / 2 ^ sh
    let rem := m % 2 ^ sh
    (signed neg (if roundsUp mode neg n rem sh then n + 1 else n), rem != 0)

/-- The bounds of an integer format of width w. -/
def intMin (sgn : Bool) (w : Nat) : Int := if sgn then -(2 ^ (w - 1) : Nat) else 0
def intMax (sgn : Bool) (w : Nat) : Int := if sgn then (2 ^ (w - 1) : Nat) - 1 else (2 ^ w : Nat) - 1

/-- An integer clamped to a format, and whether it was clamped (R9). -/
def clampInt (sgn : Bool) (w : Nat) (x : Int) : Int × Bool :=
  if x < intMin sgn w then (intMin sgn w, true)
  else if intMax sgn w < x then (intMax sgn w, true)
  else (x, false)

/-- The low w bits of an integer (R9 trunc). -/
def truncInt (x : Int) (w : Nat) : Nat := (x % (2 ^ w : Nat)).toNat

/-- A bit pattern of width w read as an integer (R54). -/
def readInt (sgn : Bool) (w n : Nat) : Int :=
  let n := n % 2 ^ w
  if sgn && decide (2 ^ w ≤ 2 * n) then (n : Int) - (2 ^ w : Nat) else n

/-! ### Type codes (R247, R258, R276) -/

/-- The width of an element of a VSET type code in a register (R247). -/
def typeWidth (t : Nat) : Nat :=
  match t with
  | 0 => 2 | 1 => 4 | 2 => 8 | 3 => 8 | 4 => 16 | 5 => 16 | 6 => 32 | 7 => 32 | 8 => 64 | 9 => 64
  | 10 => 16 | 11 => 16 | 12 => 32 | 13 => 8 | 14 => 8 | 15 => 8 | 16 => 8 | 17 => 4
  | 18 => 16 | 19 => 32 | 20 => 32 | 21 => 32 | 22 => 64
  | _ => 8

/-- VLMAX (R247). -/
def vlMax (t : Nat) : Nat := 16384 / typeWidth t

end Sys2Proof.Machine
end

