-- ==== Sys2Proof/Syntax.lean ====
section
/-! DEFINITION. The syntax of the machine's steps, and the plain data that a step from outside carries. -/

namespace Sys2Proof

/-- The eight record words of a job record (R211). -/
structure JobRecord where
  w0 : W64
  w1 : W64
  w2 : W64
  w3 : W64
  w4 : W64
  w5 : W64
  w6 : W64
  w7 : W64
deriving DecidableEq, Repr, Inhabited

/-- A job queue descriptor of the carve-out (R224): three limits in microseconds, 0 disabling, and the ROOT word. -/
structure JobQueue where
  run : Nat := 0
  kill : Nat := 0
  fence : Nat := 0
  root : W64 := 0
deriving DecidableEq, Repr, Inhabited

/-- A hardware queue descriptor (R234), its two record words. -/
structure QueueDesc where
  w0 : W64 := 0
  w1 : W64 := 0
deriving DecidableEq, Repr, Inhabited

/-- A route template as it stands in the carve-out (R412): the eight words of its header, and the stage records after it. -/
structure Template where
  header : List W64 := []
  records : List JobRecord := []
deriving DecidableEq, Repr, Inhabited

/-- The configuration of one fronthaul port (R420). -/
structure PortConfig where
  enabled : Bool := false
  split : Bool := false
  /-- the static width of the port, or of each half, where the configuration states one -/
  widths : List (Option Nat) := []
deriving DecidableEq, Repr, Inhabited

/-- What the scheduler and the ports read from the carve-out at the lock (R396). The carve-out's layout is not in the spec, so the
LOCK step carries what was read (log 12). -/
structure OperatorTables where
  jobQueues : List JobQueue := []
  queues : List QueueDesc := []
  templates : List Template := []
  /-- mW per strand, by tier and then by energy class (R218) -/
  energy : List (List Nat) := []
  ports : List PortConfig := []
  /-- the .tile lines of each program image, by the job queue whose root maps it and by ENTRY: length, and whether it starts READY (R31) -/
  images : List (Nat × Nat × List (Nat × Bool)) := []
  /-- the tract map of the cell configuration, if it gives one: 17 column boundaries, and 17 row boundaries of each column (R365) -/
  cells : Option (List Nat × List Nat) := none
deriving DecidableEq, Repr, Inhabited

/-- A firmware image (R397): its bytes, the digest it carries, the key under which its signature holds, the key it certifies for the next stage, and the
version that the rollback counter is held against (log 11). -/
structure Firmware where
  body : List (BitVec 8) := []
  digest : BitVec 512 := 0
  signer : BitVec 456 := 0
  certifies : BitVec 456 := 0
  version : Nat := 0
deriving DecidableEq, Repr, Inhabited

/-- What a reset finds (R397): the firmware images, in the order of the chain, and where the steward image runs: its first instruction, its translation
root and its handler table. -/
structure BootImages where
  images : List Firmware := []
  entry : W64 := 0
  root : W64 := 0
  tvec : W64 := 0
deriving DecidableEq, Repr, Inhabited

/-- Through which port a register is accessed (R391, R53). -/
inductive RegPort where
  /-- a host write at an offset of BAR0, of a number of bytes -/
  | bar (offset : Nat) (size : Nat)
  /-- a host read there -/
  | barRead (offset : Nat) (size : Nat)
  /-- a new firmware image written through BAR0: which one of the chain (R397) -/
  | image (i : Nat)
  /-- a steward's write of a control register of its core -/
  | cr (core : BitVec 8) (n : BitVec 12)
deriving DecidableEq, Repr

/-- One section of a received U-plane message (R346, R347): what its headers say, in the layout of words w0 and w1 of an arm record (R345),
with MODE 2 for a time-domain section; and the bytes of each PRB (log 29). -/
structure UPlane where
  w0 : W64 := 0
  w1 : W64 := 0
  prbs : List (List (BitVec 8)) := []
deriving DecidableEq, Repr, Inhabited


/-- The steps of the machine: one constructor per row of the opcode table. The first 250 are the instruction words of R40;
the others are the steps of the agents beside the cores, with what the step is told from outside. -/
inductive Instr where
  /-- TRAP (R187). -/
  | trap (a : BitVec 5)
  /-- CRRD (R144). -/
  | crrd (d : BitVec 5) (n : BitVec 12)
  /-- CRWR (R144). -/
  | crwr (a : BitVec 5) (n : BitVec 12)
  /-- CRSET (R144). -/
  | crset (d : BitVec 5) (a : BitVec 5) (n : BitVec 12)
  /-- CRCLR (R144). -/
  | crclr (d : BitVec 5) (a : BitVec 5) (n : BitVec 12)
  /-- ADD (R147). -/
  | add (d : BitVec 5) (a : BitVec 5) (b : BitVec 5)
  /-- SUB (R147). -/
  | sub (d : BitVec 5) (a : BitVec 5) (b : BitVec 5)
  /-- AND (R147). -/
  | and (d : BitVec 5) (a : BitVec 5) (b : BitVec 5)
  /-- OR (R147). -/
  | or (d : BitVec 5) (a : BitVec 5) (b : BitVec 5)
  /-- XOR (R147). -/
  | xor (d : BitVec 5) (a : BitVec 5) (b : BitVec 5)
  /-- ANDN (R147). -/
  | andn (d : BitVec 5) (a : BitVec 5) (b : BitVec 5)
  /-- SHL (R147). -/
  | shl (d : BitVec 5) (a : BitVec 5) (b : BitVec 5)
  /-- SHR (R147). -/
  | shr (d : BitVec 5) (a : BitVec 5) (b : BitVec 5)
  /-- SRA (R147). -/
  | sra (d : BitVec 5) (a : BitVec 5) (b : BitVec 5)
  /-- ROL (R147). -/
  | rol (d : BitVec 5) (a : BitVec 5) (b : BitVec 5)
  /-- SLT (R147). -/
  | slt (d : BitVec 5) (a : BitVec 5) (b : BitVec 5)
  /-- SLTN (R147). -/
  | sltn (d : BitVec 5) (a : BitVec 5) (b : BitVec 5)
  /-- SEQ (R147). -/
  | seq (d : BitVec 5) (a : BitVec 5) (b : BitVec 5)
  /-- MIN (R147). -/
  | min (d : BitVec 5) (a : BitVec 5) (b : BitVec 5)
  /-- MAX (R147). -/
  | max (d : BitVec 5) (a : BitVec 5) (b : BitVec 5)
  /-- MINN (R147). -/
  | minn (d : BitVec 5) (a : BitVec 5) (b : BitVec 5)
  /-- MAXN (R147). -/
  | maxn (d : BitVec 5) (a : BitVec 5) (b : BitVec 5)
  /-- CLZ (R147). -/
  | clz (d : BitVec 5) (a : BitVec 5)
  /-- CTZ (R147). -/
  | ctz (d : BitVec 5) (a : BitVec 5)
  /-- POPC (R147). -/
  | popc (d : BitVec 5) (a : BitVec 5)
  /-- SEXT (R147). -/
  | sext (d : BitVec 5) (a : BitVec 5) (b : BitVec 5)
  /-- ZEXT (R147). -/
  | zext (d : BitVec 5) (a : BitVec 5) (b : BitVec 5)
  /-- MUL (R148). -/
  | mul (d : BitVec 5) (a : BitVec 5) (b : BitVec 5)
  /-- MULH (R148). -/
  | mulh (d : BitVec 5) (a : BitVec 5) (b : BitVec 5)
  /-- MULHN (R148). -/
  | mulhn (d : BitVec 5) (a : BitVec 5) (b : BitVec 5)
  /-- DIV (R148). -/
  | div (d : BitVec 5) (a : BitVec 5) (b : BitVec 5)
  /-- DIVN (R148). -/
  | divn (d : BitVec 5) (a : BitVec 5) (b : BitVec 5)
  /-- REM (R148). -/
  | rem (d : BitVec 5) (a : BitVec 5) (b : BitVec 5)
  /-- REMN (R148). -/
  | remn (d : BitVec 5) (a : BitVec 5) (b : BitVec 5)
  /-- ADDI (R151). -/
  | addi (d : BitVec 5) (a : BitVec 5) (i : BitVec 15)
  /-- ANDI (R151). -/
  | andi (d : BitVec 5) (a : BitVec 5) (i : BitVec 15)
  /-- ORI (R151). -/
  | ori (d : BitVec 5) (a : BitVec 5) (i : BitVec 15)
  /-- XORI (R151). -/
  | xori (d : BitVec 5) (a : BitVec 5) (i : BitVec 15)
  /-- SLTI (R151). -/
  | slti (d : BitVec 5) (a : BitVec 5) (i : BitVec 15)
  /-- SLTNI (R151). -/
  | sltni (d : BitVec 5) (a : BitVec 5) (i : BitVec 15)
  /-- SHLI (R152). -/
  | shli (d : BitVec 5) (a : BitVec 5) (n : BitVec 6)
  /-- SHRI (R152). -/
  | shri (d : BitVec 5) (a : BitVec 5) (n : BitVec 6)
  /-- SRAI (R152). -/
  | srai (d : BitVec 5) (a : BitVec 5) (n : BitVec 6)
  /-- ROLI (R152). -/
  | roli (d : BitVec 5) (a : BitVec 5) (n : BitVec 6)
  /-- LIH (R153). -/
  | lih (d : BitVec 5) (i : BitVec 20)
  /-- ADDPC (R154). -/
  | addpc (d : BitVec 5) (i : BitVec 20)
  /-- BEQ (R155). -/
  | beq (a : BitVec 5) (b : BitVec 5) (o : BitVec 15)
  /-- BNE (R155). -/
  | bne (a : BitVec 5) (b : BitVec 5) (o : BitVec 15)
  /-- BLT (R155). -/
  | blt (a : BitVec 5) (b : BitVec 5) (o : BitVec 15)
  /-- BGE (R155). -/
  | bge (a : BitVec 5) (b : BitVec 5) (o : BitVec 15)
  /-- BLTN (R155). -/
  | bltn (a : BitVec 5) (b : BitVec 5) (o : BitVec 15)
  /-- BGEN (R155). -/
  | bgen (a : BitVec 5) (b : BitVec 5) (o : BitVec 15)
  /-- JAL (R156). -/
  | jal (d : BitVec 5) (o : BitVec 20)
  /-- JALR (R156). -/
  | jalr (d : BitVec 5) (a : BitVec 5) (i : BitVec 15)
  /-- LOOP (R161). -/
  | loop (a : BitVec 5) (e : BitVec 12)
  /-- LOOPM (R138). -/
  | loopm (a : BitVec 5) (e : BitVec 12)
  /-- LOOPS (R137). -/
  | loops (a : BitVec 5) (e : BitVec 12)
  /-- LSTG (R160). -/
  | lstg (a : BitVec 5)
  /-- LSTR (R160). -/
  | lstr (a : BitVec 5) (b : BitVec 5)
  /-- LMASK (R160). -/
  | lmask (a : BitVec 5) (b : BitVec 5)
  /-- LIDX (R164). -/
  | lidx (d : BitVec 5) (k : BitVec 3)
  /-- LBRK (R165). -/
  | lbrk (a : BitVec 5)
  /-- LD (R168). -/
  | ld (d : BitVec 5) (b : BitVec 5) (c : BitVec 4) (s : BitVec 2) (i : BitVec 9)
  /-- LDN (R168). -/
  | ldn (d : BitVec 5) (b : BitVec 5) (c : BitVec 4) (s : BitVec 2) (i : BitVec 9)
  /-- ST (R168). -/
  | st (s : BitVec 5) (b : BitVec 5) (c : BitVec 4) (z : BitVec 2) (i : BitVec 9)
  /-- AMOADD (R172). -/
  | amoadd (d : BitVec 5) (a : BitVec 5) (b : BitVec 5) (c : BitVec 4) (o : BitVec 2)
  /-- AMOAND (R172). -/
  | amoand (d : BitVec 5) (a : BitVec 5) (b : BitVec 5) (c : BitVec 4) (o : BitVec 2)
  /-- AMOOR (R172). -/
  | amoor (d : BitVec 5) (a : BitVec 5) (b : BitVec 5) (c : BitVec 4) (o : BitVec 2)
  /-- AMOXOR (R172). -/
  | amoxor (d : BitVec 5) (a : BitVec 5) (b : BitVec 5) (c : BitVec 4) (o : BitVec 2)
  /-- AMOMIN (R172). -/
  | amomin (d : BitVec 5) (a : BitVec 5) (b : BitVec 5) (c : BitVec 4) (o : BitVec 2)
  /-- AMOMAX (R172). -/
  | amomax (d : BitVec 5) (a : BitVec 5) (b : BitVec 5) (c : BitVec 4) (o : BitVec 2)
  /-- AMOMINN (R172). -/
  | amominn (d : BitVec 5) (a : BitVec 5) (b : BitVec 5) (c : BitVec 4) (o : BitVec 2)
  /-- AMOMAXN (R172). -/
  | amomaxn (d : BitVec 5) (a : BitVec 5) (b : BitVec 5) (c : BitVec 4) (o : BitVec 2)
  /-- AMOSWP (R172). -/
  | amoswp (d : BitVec 5) (a : BitVec 5) (b : BitVec 5) (c : BitVec 4) (o : BitVec 2)
  /-- AMOCAS (R172). -/
  | amocas (d : BitVec 5) (a : BitVec 5) (b : BitVec 5) (c : BitVec 4) (o : BitVec 2)
  /-- ARRIVE (R173). -/
  | arrive (d : BitVec 5) (a : BitVec 5) (b : BitVec 5) (c : BitVec 4) (o : BitVec 2)
  /-- FENCE (R109). -/
  | fence (s : BitVec 3) (m : BitVec 16)
  /-- WAITA (R177). -/
  | waita (d : BitVec 5) (a : BitVec 5) (b : BitVec 5)
  /-- CROSS (R183). -/
  | cross (d : BitVec 5)
  /-- CROSSA (R183). -/
  | crossa (d : BitVec 5)
  /-- CROSSW (R183). -/
  | crossw (d : BitVec 5) (a : BitVec 5)
  /-- CROSSP (R183). -/
  | crossp (d : BitVec 5) (a : BitVec 5)
  /-- VSET (R276). -/
  | vset (d : BitVec 5) (a : BitVec 5) (t : BitVec 5)
  /-- VLD (R277). -/
  | vld (c : BitVec 1) (v : BitVec 5) (b : BitVec 5) (k : BitVec 3) (q : BitVec 4)
  /-- VLDS (R277). -/
  | vlds (c : BitVec 1) (v : BitVec 5) (b : BitVec 5) (i : BitVec 5) (k : BitVec 3) (q : BitVec 4)
  /-- VLDX (R277). -/
  | vldx (c : BitVec 1) (v : BitVec 5) (b : BitVec 5) (i : BitVec 5) (k : BitVec 3) (q : BitVec 4)
  /-- VLDFF (R280). -/
  | vldff (c : BitVec 1) (v : BitVec 5) (b : BitVec 5) (k : BitVec 3) (q : BitVec 4)
  /-- VLSEG (R281). -/
  | vlseg (c : BitVec 1) (v : BitVec 5) (b : BitVec 5) (i : BitVec 5) (k : BitVec 3) (q : BitVec 4)
  /-- VLDT (R283). -/
  | vldt (c : BitVec 1) (v : BitVec 5) (b : BitVec 5) (i : BitVec 5) (k : BitVec 3) (q : BitVec 4)
  /-- VLDL (R284). -/
  | vldl (c : BitVec 1) (v : BitVec 5) (b : BitVec 5) (k : BitVec 3) (q : BitVec 4)
  /-- VST (R277). -/
  | vst (c : BitVec 1) (v : BitVec 5) (b : BitVec 5) (k : BitVec 3) (q : BitVec 4)
  /-- VSTS (R277). -/
  | vsts (c : BitVec 1) (v : BitVec 5) (b : BitVec 5) (i : BitVec 5) (k : BitVec 3) (q : BitVec 4)
  /-- VSTX (R277). -/
  | vstx (c : BitVec 1) (v : BitVec 5) (b : BitVec 5) (i : BitVec 5) (k : BitVec 3) (q : BitVec 4)
  /-- VSSEG (R281). -/
  | vsseg (c : BitVec 1) (v : BitVec 5) (b : BitVec 5) (i : BitVec 5) (k : BitVec 3) (q : BitVec 4)
  /-- VSTT (R283). -/
  | vstt (c : BitVec 1) (v : BitVec 5) (b : BitVec 5) (i : BitVec 5) (k : BitVec 3) (q : BitVec 4)
  /-- VSTL (R284). -/
  | vstl (c : BitVec 1) (v : BitVec 5) (b : BitVec 5) (k : BitVec 3) (q : BitVec 4)
  /-- VADD (R262). -/
  | vadd (c : BitVec 1) (d : BitVec 5) (a : BitVec 5) (b : BitVec 5) (k : BitVec 3) (x : BitVec 1)
  /-- VSUB (R262). -/
  | vsub (c : BitVec 1) (d : BitVec 5) (a : BitVec 5) (b : BitVec 5) (k : BitVec 3) (x : BitVec 1)
  /-- VMUL (R262). -/
  | vmul (c : BitVec 1) (d : BitVec 5) (a : BitVec 5) (b : BitVec 5) (k : BitVec 3) (x : BitVec 1)
  /-- VMULH (R262). -/
  | vmulh (c : BitVec 1) (d : BitVec 5) (a : BitVec 5) (b : BitVec 5) (k : BitVec 3) (x : BitVec 1)
  /-- VMULHN (R262). -/
  | vmulhn (c : BitVec 1) (d : BitVec 5) (a : BitVec 5) (b : BitVec 5) (k : BitVec 3) (x : BitVec 1)
  /-- VMIN (R262). -/
  | vmin (c : BitVec 1) (d : BitVec 5) (a : BitVec 5) (b : BitVec 5) (k : BitVec 3) (x : BitVec 1)
  /-- VMAX (R262). -/
  | vmax (c : BitVec 1) (d : BitVec 5) (a : BitVec 5) (b : BitVec 5) (k : BitVec 3) (x : BitVec 1)
  /-- VMINN (R262). -/
  | vminn (c : BitVec 1) (d : BitVec 5) (a : BitVec 5) (b : BitVec 5) (k : BitVec 3) (x : BitVec 1)
  /-- VMAXN (R262). -/
  | vmaxn (c : BitVec 1) (d : BitVec 5) (a : BitVec 5) (b : BitVec 5) (k : BitVec 3) (x : BitVec 1)
  /-- VAND (R262). -/
  | vand (c : BitVec 1) (d : BitVec 5) (a : BitVec 5) (b : BitVec 5) (k : BitVec 3) (x : BitVec 1)
  /-- VOR (R262). -/
  | vor (c : BitVec 1) (d : BitVec 5) (a : BitVec 5) (b : BitVec 5) (k : BitVec 3) (x : BitVec 1)
  /-- VXOR (R262). -/
  | vxor (c : BitVec 1) (d : BitVec 5) (a : BitVec 5) (b : BitVec 5) (k : BitVec 3) (x : BitVec 1)
  /-- VSHL (R262). -/
  | vshl (c : BitVec 1) (d : BitVec 5) (a : BitVec 5) (b : BitVec 5) (k : BitVec 3) (x : BitVec 1)
  /-- VSHR (R262). -/
  | vshr (c : BitVec 1) (d : BitVec 5) (a : BitVec 5) (b : BitVec 5) (k : BitVec 3) (x : BitVec 1)
  /-- VSRA (R262). -/
  | vsra (c : BitVec 1) (d : BitVec 5) (a : BitVec 5) (b : BitVec 5) (k : BitVec 3) (x : BitVec 1)
  /-- VSADD (R262). -/
  | vsadd (c : BitVec 1) (d : BitVec 5) (a : BitVec 5) (b : BitVec 5) (k : BitVec 3) (x : BitVec 1)
  /-- VSADDN (R262). -/
  | vsaddn (c : BitVec 1) (d : BitVec 5) (a : BitVec 5) (b : BitVec 5) (k : BitVec 3) (x : BitVec 1)
  /-- VSSUB (R262). -/
  | vssub (c : BitVec 1) (d : BitVec 5) (a : BitVec 5) (b : BitVec 5) (k : BitVec 3) (x : BitVec 1)
  /-- VSSUBN (R262). -/
  | vssubn (c : BitVec 1) (d : BitVec 5) (a : BitVec 5) (b : BitVec 5) (k : BitVec 3) (x : BitVec 1)
  /-- VWADD (R263). -/
  | vwadd (c : BitVec 1) (d : BitVec 5) (a : BitVec 5) (b : BitVec 5) (k : BitVec 3) (x : BitVec 1)
  /-- VWMUL (R263). -/
  | vwmul (c : BitVec 1) (d : BitVec 5) (a : BitVec 5) (b : BitVec 5) (k : BitVec 3) (x : BitVec 1)
  /-- VWMAC (R263). -/
  | vwmac (c : BitVec 1) (d : BitVec 5) (a : BitVec 5) (b : BitVec 5) (k : BitVec 3) (x : BitVec 1)
  /-- VNSHR (R263). -/
  | vnshr (c : BitVec 1) (d : BitVec 5) (a : BitVec 5) (b : BitVec 5) (k : BitVec 3) (x : BitVec 1)
  /-- VDOT4 (R263). -/
  | vdot4 (c : BitVec 1) (d : BitVec 5) (a : BitVec 5) (b : BitVec 5) (k : BitVec 3) (x : BitVec 1)
  /-- VCMPEQ (R264). -/
  | vcmpeq (c : BitVec 1) (d : BitVec 5) (a : BitVec 5) (b : BitVec 5) (k : BitVec 3) (x : BitVec 1)
  /-- VCMPLT (R264). -/
  | vcmplt (c : BitVec 1) (d : BitVec 5) (a : BitVec 5) (b : BitVec 5) (k : BitVec 3) (x : BitVec 1)
  /-- VCMPLTN (R264). -/
  | vcmpltn (c : BitVec 1) (d : BitVec 5) (a : BitVec 5) (b : BitVec 5) (k : BitVec 3) (x : BitVec 1)
  /-- VFADD (R265). -/
  | vfadd (c : BitVec 1) (d : BitVec 5) (a : BitVec 5) (b : BitVec 5) (k : BitVec 3) (x : BitVec 1)
  /-- VFSUB (R265). -/
  | vfsub (c : BitVec 1) (d : BitVec 5) (a : BitVec 5) (b : BitVec 5) (k : BitVec 3) (x : BitVec 1)
  /-- VFMUL (R265). -/
  | vfmul (c : BitVec 1) (d : BitVec 5) (a : BitVec 5) (b : BitVec 5) (k : BitVec 3) (x : BitVec 1)
  /-- VFMA (R265). -/
  | vfma (c : BitVec 1) (d : BitVec 5) (a : BitVec 5) (b : BitVec 5) (k : BitVec 3) (x : BitVec 1)
  /-- VFNMA (R265). -/
  | vfnma (c : BitVec 1) (d : BitVec 5) (a : BitVec 5) (b : BitVec 5) (k : BitVec 3) (x : BitVec 1)
  /-- VFDIV (R265). -/
  | vfdiv (c : BitVec 1) (d : BitVec 5) (a : BitVec 5) (b : BitVec 5) (k : BitVec 3) (x : BitVec 1)
  /-- VFSQRT (R265). -/
  | vfsqrt (c : BitVec 1) (d : BitVec 5) (a : BitVec 5) (k : BitVec 3) (x : BitVec 1)
  /-- VFREC (R265). -/
  | vfrec (c : BitVec 1) (d : BitVec 5) (a : BitVec 5) (k : BitVec 3) (x : BitVec 1)
  /-- VFRSQ (R265). -/
  | vfrsq (c : BitVec 1) (d : BitVec 5) (a : BitVec 5) (k : BitVec 3) (x : BitVec 1)
  /-- VFMIN (R67). -/
  | vfmin (c : BitVec 1) (d : BitVec 5) (a : BitVec 5) (b : BitVec 5) (k : BitVec 3) (x : BitVec 1)
  /-- VFMAX (R67). -/
  | vfmax (c : BitVec 1) (d : BitVec 5) (a : BitVec 5) (b : BitVec 5) (k : BitVec 3) (x : BitVec 1)
  /-- VFMINP (R67). -/
  | vfminp (c : BitVec 1) (d : BitVec 5) (a : BitVec 5) (b : BitVec 5) (k : BitVec 3) (x : BitVec 1)
  /-- VFMAXP (R67). -/
  | vfmaxp (c : BitVec 1) (d : BitVec 5) (a : BitVec 5) (b : BitVec 5) (k : BitVec 3) (x : BitVec 1)
  /-- VFABS (R265). -/
  | vfabs (c : BitVec 1) (d : BitVec 5) (a : BitVec 5) (k : BitVec 3) (x : BitVec 1)
  /-- VFNEG (R265). -/
  | vfneg (c : BitVec 1) (d : BitVec 5) (a : BitVec 5) (k : BitVec 3) (x : BitVec 1)
  /-- VFCMPEQ (R266). -/
  | vfcmpeq (c : BitVec 1) (d : BitVec 5) (a : BitVec 5) (b : BitVec 5) (k : BitVec 3) (x : BitVec 1)
  /-- VFCMPLT (R266). -/
  | vfcmplt (c : BitVec 1) (d : BitVec 5) (a : BitVec 5) (b : BitVec 5) (k : BitVec 3) (x : BitVec 1)
  /-- VFCMPLE (R266). -/
  | vfcmple (c : BitVec 1) (d : BitVec 5) (a : BitVec 5) (b : BitVec 5) (k : BitVec 3) (x : BitVec 1)
  /-- VFCLASS (R266). -/
  | vfclass (c : BitVec 1) (d : BitVec 5) (a : BitVec 5) (k : BitVec 3) (x : BitVec 1)
  /-- VCMUL (R267). -/
  | vcmul (c : BitVec 1) (d : BitVec 5) (a : BitVec 5) (b : BitVec 5) (k : BitVec 3) (x : BitVec 1)
  /-- VCMAC (R267). -/
  | vcmac (c : BitVec 1) (d : BitVec 5) (a : BitVec 5) (b : BitVec 5) (k : BitVec 3) (x : BitVec 1)
  /-- VCMACJ (R267). -/
  | vcmacj (c : BitVec 1) (d : BitVec 5) (a : BitVec 5) (b : BitVec 5) (k : BitVec 3) (x : BitVec 1)
  /-- VCCONJ (R267). -/
  | vcconj (c : BitVec 1) (d : BitVec 5) (a : BitVec 5) (k : BitVec 3) (x : BitVec 1)
  /-- VCABS2 (R267). -/
  | vcabs2 (c : BitVec 1) (d : BitVec 5) (a : BitVec 5) (k : BitVec 3) (x : BitVec 1)
  /-- VCROT (R267). -/
  | vcrot (c : BitVec 1) (d : BitVec 5) (a : BitVec 5) (n : BitVec 5) (k : BitVec 3) (x : BitVec 1)
  /-- VCSCL (R267). -/
  | vcscl (c : BitVec 1) (d : BitVec 5) (a : BitVec 5) (b : BitVec 5) (k : BitVec 3) (x : BitVec 1)
  /-- VCINV2 (R269). -/
  | vcinv2 (c : BitVec 1) (d : BitVec 5) (a : BitVec 5) (k : BitVec 3) (x : BitVec 1)
  /-- VGJP (R270). -/
  | vgjp (c : BitVec 1) (d : BitVec 5) (a : BitVec 5) (b : BitVec 5) (k : BitVec 3) (x : BitVec 1)
  /-- VPERM (R285). -/
  | vperm (c : BitVec 1) (d : BitVec 5) (a : BitVec 5) (b : BitVec 5) (k : BitVec 3)
  /-- VSLUP (R285). -/
  | vslup (c : BitVec 1) (d : BitVec 5) (a : BitVec 5) (b : BitVec 5) (k : BitVec 3)
  /-- VSLDN (R285). -/
  | vsldn (c : BitVec 1) (d : BitVec 5) (a : BitVec 5) (b : BitVec 5) (k : BitVec 3)
  /-- VREV (R285). -/
  | vrev (c : BitVec 1) (d : BitVec 5) (a : BitVec 5) (k : BitVec 3)
  /-- VPACK (R285). -/
  | vpack (c : BitVec 1) (d : BitVec 5) (a : BitVec 5) (b : BitVec 5)
  /-- VZIP (R285). -/
  | vzip (c : BitVec 1) (d : BitVec 5) (a : BitVec 5) (k : BitVec 3)
  /-- VUNZIP (R285). -/
  | vunzip (c : BitVec 1) (d : BitVec 5) (a : BitVec 5) (k : BitVec 3)
  /-- VXCH (R286). -/
  | vxch (c : BitVec 1) (d : BitVec 5) (a : BitVec 5) (k : BitVec 3) (l : BitVec 4)
  /-- VBFLY (R286). -/
  | vbfly (c : BitVec 1) (d : BitVec 5) (a : BitVec 5) (b : BitVec 5) (k : BitVec 3) (x : BitVec 1) (l : BitVec 4)
  /-- VIBFLY (R286). -/
  | vibfly (c : BitVec 1) (d : BitVec 5) (a : BitVec 5) (b : BitVec 5) (k : BitVec 3) (x : BitVec 1) (l : BitVec 4)
  /-- VPLAN (R286). -/
  | vplan (c : BitVec 1) (d : BitVec 5) (a : BitVec 5) (b : BitVec 5) (k : BitVec 3) (x : BitVec 1) (l : BitVec 4)
  /-- VMAND (R287). -/
  | vmand (c : BitVec 1) (d : BitVec 5) (a : BitVec 5) (b : BitVec 5) (k : BitVec 3)
  /-- VMOR (R287). -/
  | vmor (c : BitVec 1) (d : BitVec 5) (a : BitVec 5) (b : BitVec 5) (k : BitVec 3)
  /-- VMXOR (R287). -/
  | vmxor (c : BitVec 1) (d : BitVec 5) (a : BitVec 5) (b : BitVec 5) (k : BitVec 3)
  /-- VMNOT (R287). -/
  | vmnot (c : BitVec 1) (d : BitVec 5) (a : BitVec 5) (k : BitVec 3)
  /-- VMFIRST (R287). -/
  | vmfirst (c : BitVec 1) (d : BitVec 5) (a : BitVec 5) (k : BitVec 3)
  /-- VMUPTO (R287). -/
  | vmupto (c : BitVec 1) (d : BitVec 5) (a : BitVec 5) (k : BitVec 3)
  /-- VMPOP (R287). -/
  | vmpop (c : BitVec 1) (d : BitVec 5) (a : BitVec 5) (k : BitVec 3)
  /-- VREDSUM (R288). -/
  | vredsum (c : BitVec 1) (d : BitVec 5) (a : BitVec 5) (b : BitVec 5) (k : BitVec 3) (x : BitVec 1)
  /-- VREDMIN (R288). -/
  | vredmin (c : BitVec 1) (d : BitVec 5) (a : BitVec 5) (b : BitVec 5) (k : BitVec 3) (x : BitVec 1)
  /-- VREDMAX (R288). -/
  | vredmax (c : BitVec 1) (d : BitVec 5) (a : BitVec 5) (b : BitVec 5) (k : BitVec 3) (x : BitVec 1)
  /-- VREDMINN (R288). -/
  | vredminn (c : BitVec 1) (d : BitVec 5) (a : BitVec 5) (b : BitVec 5) (k : BitVec 3) (x : BitVec 1)
  /-- VREDMAXN (R288). -/
  | vredmaxn (c : BitVec 1) (d : BitVec 5) (a : BitVec 5) (b : BitVec 5) (k : BitVec 3) (x : BitVec 1)
  /-- VFREDSUM (R288). -/
  | vfredsum (c : BitVec 1) (d : BitVec 5) (a : BitVec 5) (b : BitVec 5) (k : BitVec 3) (x : BitVec 1)
  /-- VFREDMIN (R288). -/
  | vfredmin (c : BitVec 1) (d : BitVec 5) (a : BitVec 5) (b : BitVec 5) (k : BitVec 3) (x : BitVec 1)
  /-- VFREDMAX (R288). -/
  | vfredmax (c : BitVec 1) (d : BitVec 5) (a : BitVec 5) (b : BitVec 5) (k : BitVec 3) (x : BitVec 1)
  /-- VCREDSUM (R288). -/
  | vcredsum (c : BitVec 1) (d : BitVec 5) (a : BitVec 5) (b : BitVec 5) (k : BitVec 3) (x : BitVec 1)
  /-- VSCAN (R289). -/
  | vscan (c : BitVec 1) (d : BitVec 5) (a : BitVec 5) (k : BitVec 3) (x : BitVec 1)
  /-- VLTRIP (R290). -/
  | vltrip (c : BitVec 1) (d : BitVec 5) (a : BitVec 5) (b : BitVec 5) (x : BitVec 1)
  /-- VLSTEP (R290). -/
  | vlstep (c : BitVec 1) (d : BitVec 5) (b : BitVec 5) (x : BitVec 1)
  /-- VCVT (R271). -/
  | vcvt (c : BitVec 1) (d : BitVec 5) (a : BitVec 5) (t : BitVec 5) (k : BitVec 3) (x : BitVec 1)
  /-- VCVTSAT (R271). -/
  | vcvtsat (c : BitVec 1) (d : BitVec 5) (a : BitVec 5) (t : BitVec 5) (k : BitVec 3) (x : BitVec 1)
  /-- VCVTZ (R271). -/
  | vcvtz (c : BitVec 1) (d : BitVec 5) (a : BitVec 5) (t : BitVec 5) (k : BitVec 3) (x : BitVec 1)
  /-- VQUANT (R273). -/
  | vquant (c : BitVec 1) (d : BitVec 5) (a : BitVec 5) (b : BitVec 5) (k : BitVec 3) (x : BitVec 1)
  /-- VDEQ (R274). -/
  | vdeq (c : BitVec 1) (d : BitVec 5) (a : BitVec 5) (b : BitVec 5) (k : BitVec 3) (x : BitVec 1)
  /-- VTDEC (R275). -/
  | vtdec (c : BitVec 1) (d : BitVec 5) (a : BitVec 5) (k : BitVec 3) (x : BitVec 1)
  /-- VMV (R291). -/
  | vmv (c : BitVec 1) (d : BitVec 5) (a : BitVec 5) (k : BitVec 3)
  /-- VMVS (R291). -/
  | vmvs (c : BitVec 1) (d : BitVec 5) (a : BitVec 5) (k : BitVec 3)
  /-- VEXT (R291). -/
  | vext (c : BitVec 1) (d : BitVec 5) (a : BitVec 5) (b : BitVec 5) (k : BitVec 3)
  /-- VINS (R291). -/
  | vins (c : BitVec 1) (d : BitVec 5) (a : BitVec 5) (b : BitVec 5) (k : BitVec 3)
  /-- VID (R291). -/
  | vid (c : BitVec 1) (d : BitVec 5) (k : BitVec 3)
  /-- VPUSH (R292). -/
  | vpush (c : BitVec 1) (a : BitVec 5) (b : BitVec 5)
  /-- VTAKE (R292). -/
  | vtake (c : BitVec 1) (d : BitVec 5) (b : BitVec 5)
  /-- VPOLL (R292). -/
  | vpoll (c : BitVec 1) (d : BitVec 5) (b : BitVec 5)
  /-- ACLAIM (R313). -/
  | aclaim (d : BitVec 5) (a : BitVec 5)
  /-- ARELS (R313). -/
  | arels (a : BitVec 5) (b : BitVec 5)
  /-- ATILE (R317). -/
  | atile (d : BitVec 5) (a : BitVec 5) (b : BitVec 5)
  /-- ALDA (R318). -/
  | alda (a : BitVec 5) (b : BitVec 5)
  /-- ALDB (R318). -/
  | aldb (a : BitVec 5) (b : BitVec 5)
  /-- AMMA (R319). -/
  | amma (d : BitVec 5) (a : BitVec 5) (b : BitVec 5)
  /-- AMMZ (R319). -/
  | ammz (d : BitVec 5) (a : BitVec 5) (b : BitVec 5)
  /-- ASMMA (R321). -/
  | asmma (d : BitVec 5) (a : BitVec 5) (b : BitVec 5)
  /-- ASTC (R322). -/
  | astc (d : BitVec 5) (a : BitVec 5) (b : BitVec 5)
  /-- AZERO (R323). -/
  | azero (d : BitVec 5)
  /-- HAUL (R306). -/
  | haul (d : BitVec 5) (a : BitVec 5) (b : BitVec 5)
  /-- HAULNB (R306). -/
  | haulnb (d : BitVec 5) (a : BitVec 5) (b : BitVec 5)
  /-- HMILE (R307). -/
  | hmile (d : BitVec 5) (a : BitVec 5)
  /-- HWAIT (R307). -/
  | hwait (a : BitVec 5) (b : BitVec 5)
  /-- TDEF (R308). -/
  | tdef (d : BitVec 5) (a : BitVec 5) (b : BitVec 5)
  /-- TSTAT (R308). -/
  | tstat (d : BitVec 5) (a : BitVec 5)
  /-- TSET (R308). -/
  | tset (d : BitVec 5) (a : BitVec 5) (b : BitVec 5)
  /-- TFREE (R308). -/
  | tfree (d : BitVec 5) (a : BitVec 5)
  /-- TENC (R337). -/
  | tenc (d : BitVec 5) (a : BitVec 5) (b : BitVec 5)
  /-- TWAIT (R338). -/
  | twait (a : BitVec 5)
  /-- CSUB (R361). -/
  | csub (d : BitVec 5) (a : BitVec 5) (b : BitVec 5)
  /-- CMILE (R362). -/
  | cmile (d : BitVec 5)
  /-- CWAIT (R362). -/
  | cwait (a : BitVec 5)
  /-- FHARM (R351). -/
  | fharm (d : BitVec 5) (a : BitVec 5) (b : BitVec 5)
  /-- FHSEND (R351). -/
  | fhsend (d : BitVec 5) (a : BitVec 5) (b : BitVec 5)
  /-- FHSTAT (R352). -/
  | fhstat (d : BitVec 5) (a : BitVec 5)
  /-- WJOIN (R376). -/
  | wjoin (d : BitVec 5) (a : BitVec 5) (b : BitVec 5)
  /-- WNEAR (R377). -/
  | wnear (d : BitVec 5) (a : BitVec 5) (b : BitVec 5)
  /-- WPUB (R377). -/
  | wpub (a : BitVec 5)
  /-- WGET (R377). -/
  | wget (d : BitVec 5) (a : BitVec 5) (b : BitVec 5)
  /-- WTRACT (R378). -/
  | wtract (d : BitVec 5) (a : BitVec 5)
  /-- SPAWN (R232). -/
  | spawn (d : BitVec 5) (a : BitVec 5)
  /-- JDONE (R233). -/
  | jdone (d : BitVec 5) (a : BitVec 5)
  /-- QPUSH (R235). -/
  | qpush (d : BitVec 5) (a : BitVec 5) (b : BitVec 5)
  /-- QPOP (R235). -/
  | qpop (d : BitVec 5) (a : BitVec 5) (b : BitVec 5)
  /-- QLEN (R237). -/
  | qlen (d : BitVec 5) (b : BitVec 5)
  /-- CHSEND (R238). -/
  | chsend (d : BitVec 5) (a : BitVec 5) (b : BitVec 5)
  /-- CHRECV (R238). -/
  | chrecv (d : BitVec 5) (a : BitVec 5) (b : BitVec 5)
  /-- CHREL (R238). -/
  | chrel (d : BitVec 5)
  /-- TIME (R241). -/
  | time (d : BitVec 5)
  /-- SLACK (R241). -/
  | slack (d : BitVec 5) (a : BitVec 5)
  /-- TRACE (R390). -/
  | trace (a : BitVec 5) (b : BitVec 5)
  /-- CNTRD (R390). -/
  | cntrd (d : BitVec 5) (a : BitVec 5)
  /-- CNTCFG (R390). -/
  | cntcfg (d : BitVec 5) (a : BitVec 5) (b : BitVec 5)
  /-- NOT_AN_INSTRUCTION (R42). -/
  | notAnInstruction (w : BitVec 32)
  /-- ILL (R186). -/
  | ill
  /-- NOP (R186). -/
  | nop
  /-- ERET (R198). -/
  | eret
  /-- END (R188). -/
  | endStrand
  /-- YIELD (R189). -/
  | yield
  /-- IDLE (R189). -/
  | idle
  /-- BKPT (R190). -/
  | bkpt
  /-- ALEASE (R311). -/
  | alease
  /-- AFREE (R311). -/
  | afree
  /-- AWAIT (R323). -/
  | await
  /-- WLEAVE (R376). -/
  | wleave
  /-- DOORBELL (R391). -/
  | doorbell
  /-- LAUNCH_ROUTE (R225). -/
  | launchRoute
  /-- LAUNCH_JOB (R229). -/
  | launchJob
  /-- WRITE (R229). -/
  | writePacket
  /-- WRITE_SIGNAL (R229). -/
  | writeSignal
  /-- ABANDON_TREE (R222). -/
  | abandonTree
  /-- DISCARDED_PACKET (R229). -/
  | discardedPacket
  /-- SLICE_EXPIRY (R229). -/
  | sliceExpiry
  /-- LOCK (R396). -/
  | lock
  /-- FENCED_ACKNOWLEDGE (R400). -/
  | fencedAcknowledge
  /-- REGISTER_WRITE (R391). -/
  | registerWrite
  /-- HSTAT_FAULT_CLEAR (R302). -/
  | hstatFaultClear
  /-- CSTAT_FAULT_CLEAR (R363). -/
  | cstatFaultClear
  /-- TFLAGS_CLEAR (R332). -/
  | tflagsClear
  /-- RESET (R397). -/
  | reset
  /-- GET_MEASUREMENTS (R399). -/
  | getMeasurements
  /-- HALLMARK_EXTEND (R398). -/
  | hallmarkExtend
  /-- TWIN_LINK_DOWN (R394). -/
  | twinLinkDown
  /-- GOVERNOR_MEASUREMENT (R402). -/
  | governorMeasurement
  /-- POWER_EXCEEDED (R402). -/
  | powerExceeded
  /-- TIER_RISE (R218). -/
  | tierRise
  /-- JUNCTION_TEMPERATURE (R402). -/
  | junctionTemperature
  /-- JUNCTION_COOLED (R402). -/
  | junctionCooled
  /-- CLOCK_SWITCH (R401). -/
  | clockSwitch
  /-- PATROL_SCRUB (R395). -/
  | patrolScrub
  /-- SCHEDULER_TICK (R220). -/
  | schedulerTick
  /-- FIRST_INSTRUCTION (R126). -/
  | firstInstruction
  /-- PREEMPTION_ACK (R203). -/
  | preemptionAck
  /-- DEADLINE_TICK (R216). -/
  | deadlineTick
  /-- GRACE_EXPIRY (R223). -/
  | graceExpiry
  /-- WATCHDOG_RUN (R224). -/
  | watchdogRun
  /-- WATCHDOG_KILL (R224). -/
  | watchdogKill
  /-- WATCHDOG_FENCE (R224). -/
  | watchdogFence
  /-- STEWARD_ENDS_JOB (R216). -/
  | stewardEndsJob
  /-- COMPLETION (R21). -/
  | completion
  /-- SYS (R118). -/
  | sys
  /-- REFILL (R244). -/
  | refill
  /-- TIMEOUT (R236). -/
  | timeout
  /-- REQ (R118). -/
  | req
  /-- RSP (R118). -/
  | rsp
  /-- RETRY (R123). -/
  | retry
  /-- MIGRATION (R140). -/
  | migration
  /-- LPDDR6_READ_RETURN (R97). -/
  | lpddr6ReadReturn
  /-- WAKE_NOTICE (R210). -/
  | wakeNotice
  /-- WAITA_TIMEOUT (R178). -/
  | waitaTimeout
  /-- WAITA_RELOAD (R180). -/
  | waitaReload
  /-- CROSSING_RELEASE (R182). -/
  | crossingRelease
  /-- CROSSING_TIMEOUT (R184). -/
  | crossingTimeout
  /-- TRAP_DELIVERY (R196). -/
  | trapDelivery
  /-- STRIP_STOP (R386). -/
  | stripStop
  /-- CONVOY_OPEN (R44). -/
  | convoyOpen
  /-- CONVOY_DRAIN (R130). -/
  | convoyDrain
  /-- IMAGE_ARRIVAL (R293). -/
  | imageArrival
  /-- TRANSFER_START (R298). -/
  | transferStart
  /-- TRANSFER_COMPLETE (R300). -/
  | transferComplete
  /-- HAUL_FAULT (R301). -/
  | haulFault
  /-- LEASE_WIN (R312). -/
  | leaseWin
  /-- LEASE_IDLE_PASS (R311). -/
  | leaseIdlePass
  /-- ANVIL_COMMAND_START (R324). -/
  | anvilCommandStart
  /-- ANVIL_COMMAND_COMPLETE (R324). -/
  | anvilCommandComplete
  /-- TENC_START (R337). -/
  | tencStart
  /-- TENC_COMPLETE (R337). -/
  | tencComplete
  /-- CODING_REQUEST_START (R358). -/
  | codingRequestStart
  /-- CODING_REQUEST_COMPLETE (R361). -/
  | codingRequestComplete
  /-- CODING_FAULT (R363). -/
  | codingFault
  /-- PORT_ARRIVAL (R351). -/
  | portArrival
  /-- U_PLANE_MESSAGE (R347). -/
  | uPlaneMessage
  /-- RECEIVED_FRAME (R342). -/
  | receivedFrame
  /-- WINDOW_OPEN (R348). -/
  | windowOpen
  /-- WINDOW_CLOSE (R348). -/
  | windowClose
  /-- WINDOW_EXPIRY (R347). -/
  | windowExpiry
  /-- SEND_LAUNCH (R349). -/
  | sendLaunch
  /-- SEND_FINISH (R349). -/
  | sendFinish
  /-- TRACT_MAP_REQUEST (R381). -/
  | tractMapRequest
  /-- TRACT_MAP_ANSWER (R381). -/
  | tractMapAnswer
  /-- HANDOVER (R372). -/
  | handover
  /-- MAP_COPY_UPDATE (R382). -/
  | mapCopyUpdate
  /-- TRACT_FULL (R371). -/
  | tractFull
  /-- HALO_UPDATE (R373). -/
  | haloUpdate
  /-- TRANSLATION_INVALIDATION (R104). -/
  | translationInvalidation
  /-- INSTRUCTION_CACHE_INVALIDATION (R385). -/
  | instructionCacheInvalidation
  /-- FETCH_FAULT (R193). -/
  | fetchFault
  /-- TWIN_LINK_UP (R394). -/
  | twinLinkUp
  /-- POSTED_WRITE (R396). -/
  | postedWrite
  /-- SPDM_REQUEST (R399). -/
  | spdmRequest
deriving DecidableEq, Repr

end Sys2Proof
end

