-- ==== Sys2Proof/Decode.lean ====
section
/-! DEFINITION. Reading an instruction from its bytes (R33 to R42), and writing its word. -/

namespace Sys2Proof

/-- Bits [lo + n - 1 : lo] of a word. -/
def fld (w lo n : Nat) : Nat := w / 2 ^ lo % 2 ^ n

/-- A word put together: a base with each value added at its place. -/
def asm (base : Nat) (parts : List (Nat × Nat)) : Nat := parts.foldl (fun w p => w + p.1 * 2 ^ p.2) base

/-- The same bits as a field of an instruction. -/
def bits (w lo n : Nat) : BitVec n := BitVec.ofNat n (w / 2 ^ lo)


/-- Major 0x00 of R40: the words of TRAP, ILL, NOP, ERET, END, YIELD, IDLE, BKPT. -/
def decodeSys (w : Nat) : Option Instr :=
  match fld w 0 10 with
  | 0 => if fld w 10 15 = 0 then some (.ill) else none
  | 1 => if fld w 10 15 = 0 then some (.nop) else none
  | 2 => if fld w 20 5 = 0 ∧ fld w 10 5 = 0 then some (.trap (bits w 15 5)) else none
  | 3 => if fld w 10 15 = 0 then some (.eret) else none
  | 4 => if fld w 10 15 = 0 then some (.endStrand) else none
  | 5 => if fld w 10 15 = 0 then some (.yield) else none
  | 6 => if fld w 10 15 = 0 then some (.idle) else none
  | 7 => if fld w 10 15 = 0 then some (.bkpt) else none
  | _ => none

/-- Major 0x01 of R40: the words of CRRD, CRWR, CRSET, CRCLR. -/
def decodeCr (w : Nat) : Option Instr :=
  match fld w 12 2 with
  | 0 => if fld w 14 6 = 0 then some (.crrd (bits w 20 5) (bits w 0 12)) else none
  | 1 => if fld w 20 5 = 0 ∧ fld w 14 1 = 0 then some (.crwr (bits w 15 5) (bits w 0 12)) else none
  | 2 => if fld w 14 1 = 0 then some (.crset (bits w 20 5) (bits w 15 5) (bits w 0 12)) else none
  | 3 => if fld w 14 1 = 0 then some (.crclr (bits w 20 5) (bits w 15 5) (bits w 0 12)) else none
  | _ => none

/-- Major 0x02 of R40: the words of ADD, SUB, AND, OR, XOR, ANDN, SHL, SHR, SRA, ROL, SLT, SLTN, SEQ, MIN, MAX, MINN, MAXN, CLZ, CTZ, POPC, SEXT, ZEXT. -/
def decodeAlu (w : Nat) : Option Instr :=
  match fld w 0 10 with
  | 0 => some (.add (bits w 20 5) (bits w 15 5) (bits w 10 5))
  | 1 => some (.sub (bits w 20 5) (bits w 15 5) (bits w 10 5))
  | 2 => some (.and (bits w 20 5) (bits w 15 5) (bits w 10 5))
  | 3 => some (.or (bits w 20 5) (bits w 15 5) (bits w 10 5))
  | 4 => some (.xor (bits w 20 5) (bits w 15 5) (bits w 10 5))
  | 5 => some (.andn (bits w 20 5) (bits w 15 5) (bits w 10 5))
  | 6 => some (.shl (bits w 20 5) (bits w 15 5) (bits w 10 5))
  | 7 => some (.shr (bits w 20 5) (bits w 15 5) (bits w 10 5))
  | 8 => some (.sra (bits w 20 5) (bits w 15 5) (bits w 10 5))
  | 9 => some (.rol (bits w 20 5) (bits w 15 5) (bits w 10 5))
  | 10 => some (.slt (bits w 20 5) (bits w 15 5) (bits w 10 5))
  | 11 => some (.sltn (bits w 20 5) (bits w 15 5) (bits w 10 5))
  | 12 => some (.seq (bits w 20 5) (bits w 15 5) (bits w 10 5))
  | 13 => some (.min (bits w 20 5) (bits w 15 5) (bits w 10 5))
  | 14 => some (.max (bits w 20 5) (bits w 15 5) (bits w 10 5))
  | 15 => some (.minn (bits w 20 5) (bits w 15 5) (bits w 10 5))
  | 16 => some (.maxn (bits w 20 5) (bits w 15 5) (bits w 10 5))
  | 17 => if fld w 10 5 = 0 then some (.clz (bits w 20 5) (bits w 15 5)) else none
  | 18 => if fld w 10 5 = 0 then some (.ctz (bits w 20 5) (bits w 15 5)) else none
  | 19 => if fld w 10 5 = 0 then some (.popc (bits w 20 5) (bits w 15 5)) else none
  | 20 => some (.sext (bits w 20 5) (bits w 15 5) (bits w 10 5))
  | 21 => some (.zext (bits w 20 5) (bits w 15 5) (bits w 10 5))
  | _ => none

/-- Major 0x03 of R40: the words of MUL, MULH, MULHN, DIV, DIVN, REM, REMN. -/
def decodeMuldiv (w : Nat) : Option Instr :=
  match fld w 0 10 with
  | 0 => some (.mul (bits w 20 5) (bits w 15 5) (bits w 10 5))
  | 1 => some (.mulh (bits w 20 5) (bits w 15 5) (bits w 10 5))
  | 2 => some (.mulhn (bits w 20 5) (bits w 15 5) (bits w 10 5))
  | 3 => some (.div (bits w 20 5) (bits w 15 5) (bits w 10 5))
  | 4 => some (.divn (bits w 20 5) (bits w 15 5) (bits w 10 5))
  | 5 => some (.rem (bits w 20 5) (bits w 15 5) (bits w 10 5))
  | 6 => some (.remn (bits w 20 5) (bits w 15 5) (bits w 10 5))
  | _ => none

/-- Major 0x04 of R40: the words of ADDI. -/
def decodeAddi (w : Nat) : Option Instr :=
  some (.addi (bits w 20 5) (bits w 15 5) (bits w 0 15))

/-- Major 0x05 of R40: the words of ANDI. -/
def decodeAndi (w : Nat) : Option Instr :=
  some (.andi (bits w 20 5) (bits w 15 5) (bits w 0 15))

/-- Major 0x06 of R40: the words of ORI. -/
def decodeOri (w : Nat) : Option Instr :=
  some (.ori (bits w 20 5) (bits w 15 5) (bits w 0 15))

/-- Major 0x07 of R40: the words of XORI. -/
def decodeXori (w : Nat) : Option Instr :=
  some (.xori (bits w 20 5) (bits w 15 5) (bits w 0 15))

/-- Major 0x08 of R40: the words of SLTI. -/
def decodeSlti (w : Nat) : Option Instr :=
  some (.slti (bits w 20 5) (bits w 15 5) (bits w 0 15))

/-- Major 0x09 of R40: the words of SLTNI. -/
def decodeSltni (w : Nat) : Option Instr :=
  some (.sltni (bits w 20 5) (bits w 15 5) (bits w 0 15))

/-- Major 0x0A of R40: the words of SHLI, SHRI, SRAI, ROLI. -/
def decodeShifti (w : Nat) : Option Instr :=
  match fld w 13 2 with
  | 0 => if fld w 6 7 = 0 then some (.shli (bits w 20 5) (bits w 15 5) (bits w 0 6)) else none
  | 1 => if fld w 6 7 = 0 then some (.shri (bits w 20 5) (bits w 15 5) (bits w 0 6)) else none
  | 2 => if fld w 6 7 = 0 then some (.srai (bits w 20 5) (bits w 15 5) (bits w 0 6)) else none
  | 3 => if fld w 6 7 = 0 then some (.roli (bits w 20 5) (bits w 15 5) (bits w 0 6)) else none
  | _ => none

/-- Major 0x0B of R40: the words of LIH. -/
def decodeLih (w : Nat) : Option Instr :=
  some (.lih (bits w 20 5) (bits w 0 20))

/-- Major 0x0C of R40: the words of ADDPC. -/
def decodeAddpc (w : Nat) : Option Instr :=
  some (.addpc (bits w 20 5) (bits w 0 20))

/-- Major 0x0D of R40: the words of BEQ. -/
def decodeBeq (w : Nat) : Option Instr :=
  some (.beq (bits w 20 5) (bits w 15 5) (bits w 0 15))

/-- Major 0x0E of R40: the words of BNE. -/
def decodeBne (w : Nat) : Option Instr :=
  some (.bne (bits w 20 5) (bits w 15 5) (bits w 0 15))

/-- Major 0x0F of R40: the words of BLT. -/
def decodeBlt (w : Nat) : Option Instr :=
  some (.blt (bits w 20 5) (bits w 15 5) (bits w 0 15))

/-- Major 0x10 of R40: the words of BGE. -/
def decodeBge (w : Nat) : Option Instr :=
  some (.bge (bits w 20 5) (bits w 15 5) (bits w 0 15))

/-- Major 0x11 of R40: the words of BLTN. -/
def decodeBltn (w : Nat) : Option Instr :=
  some (.bltn (bits w 20 5) (bits w 15 5) (bits w 0 15))

/-- Major 0x12 of R40: the words of BGEN. -/
def decodeBgen (w : Nat) : Option Instr :=
  some (.bgen (bits w 20 5) (bits w 15 5) (bits w 0 15))

/-- Major 0x13 of R40: the words of JAL. -/
def decodeJal (w : Nat) : Option Instr :=
  some (.jal (bits w 20 5) (bits w 0 20))

/-- Major 0x14 of R40: the words of JALR. -/
def decodeJalr (w : Nat) : Option Instr :=
  some (.jalr (bits w 20 5) (bits w 15 5) (bits w 0 15))

/-- Major 0x15 of R40: the words of LOOP, LOOPM, LOOPS, LSTG, LSTR, LMASK, LIDX, LBRK. -/
def decodeLoop (w : Nat) : Option Instr :=
  match fld w 22 3 with
  | 0 => if fld w 12 5 = 0 then some (.loop (bits w 17 5) (bits w 0 12)) else none
  | 1 => if fld w 12 5 = 0 then some (.loopm (bits w 17 5) (bits w 0 12)) else none
  | 2 => if fld w 12 5 = 0 then some (.loops (bits w 17 5) (bits w 0 12)) else none
  | 3 => if fld w 0 17 = 0 then some (.lstg (bits w 17 5)) else none
  | 4 => if fld w 0 12 = 0 then some (.lstr (bits w 17 5) (bits w 12 5)) else none
  | 5 => if fld w 0 12 = 0 then some (.lmask (bits w 17 5) (bits w 12 5)) else none
  | 6 => if fld w 3 14 = 0 then some (.lidx (bits w 17 5) (bits w 0 3)) else none
  | 7 => if fld w 0 17 = 0 then some (.lbrk (bits w 17 5)) else none
  | _ => none

/-- Major 0x16 of R40: the words of LD. -/
def decodeLd (w : Nat) : Option Instr :=
  some (.ld (bits w 20 5) (bits w 15 5) (bits w 11 4) (bits w 9 2) (bits w 0 9))

/-- Major 0x17 of R40: the words of LDN. -/
def decodeLdn (w : Nat) : Option Instr :=
  some (.ldn (bits w 20 5) (bits w 15 5) (bits w 11 4) (bits w 9 2) (bits w 0 9))

/-- Major 0x18 of R40: the words of ST. -/
def decodeSt (w : Nat) : Option Instr :=
  some (.st (bits w 20 5) (bits w 15 5) (bits w 11 4) (bits w 9 2) (bits w 0 9))

/-- Major 0x19 of R40: the words of AMOADD, AMOAND, AMOOR, AMOXOR, AMOMIN, AMOMAX, AMOMINN, AMOMAXN, AMOSWP, AMOCAS, ARRIVE. -/
def decodeAmo (w : Nat) : Option Instr :=
  match fld w 0 4 with
  | 0 => some (.amoadd (bits w 20 5) (bits w 15 5) (bits w 10 5) (bits w 6 4) (bits w 4 2))
  | 1 => some (.amoand (bits w 20 5) (bits w 15 5) (bits w 10 5) (bits w 6 4) (bits w 4 2))
  | 2 => some (.amoor (bits w 20 5) (bits w 15 5) (bits w 10 5) (bits w 6 4) (bits w 4 2))
  | 3 => some (.amoxor (bits w 20 5) (bits w 15 5) (bits w 10 5) (bits w 6 4) (bits w 4 2))
  | 4 => some (.amomin (bits w 20 5) (bits w 15 5) (bits w 10 5) (bits w 6 4) (bits w 4 2))
  | 5 => some (.amomax (bits w 20 5) (bits w 15 5) (bits w 10 5) (bits w 6 4) (bits w 4 2))
  | 6 => some (.amominn (bits w 20 5) (bits w 15 5) (bits w 10 5) (bits w 6 4) (bits w 4 2))
  | 7 => some (.amomaxn (bits w 20 5) (bits w 15 5) (bits w 10 5) (bits w 6 4) (bits w 4 2))
  | 8 => some (.amoswp (bits w 20 5) (bits w 15 5) (bits w 10 5) (bits w 6 4) (bits w 4 2))
  | 9 => some (.amocas (bits w 20 5) (bits w 15 5) (bits w 10 5) (bits w 6 4) (bits w 4 2))
  | 10 => some (.arrive (bits w 20 5) (bits w 15 5) (bits w 10 5) (bits w 6 4) (bits w 4 2))
  | _ => none

/-- Major 0x1A of R40: the words of FENCE. -/
def decodeFence (w : Nat) : Option Instr :=
  match fld w 22 3 with
  | 0 => if fld w 0 3 = 0 then some (.fence (bits w 19 3) (bits w 3 16)) else none
  | _ => none

/-- Major 0x1B of R40: the words of WAITA, CROSS, CROSSA, CROSSW, CROSSP. -/
def decodeWait (w : Nat) : Option Instr :=
  match fld w 0 10 with
  | 0 => some (.waita (bits w 20 5) (bits w 15 5) (bits w 10 5))
  | 1 => if fld w 10 10 = 0 then some (.cross (bits w 20 5)) else none
  | 2 => if fld w 10 10 = 0 then some (.crossa (bits w 20 5)) else none
  | 3 => if fld w 10 5 = 0 then some (.crossw (bits w 20 5) (bits w 15 5)) else none
  | 4 => if fld w 10 5 = 0 then some (.crossp (bits w 20 5) (bits w 15 5)) else none
  | _ => none

/-- Major 0x1C of R40: the words of VSET. -/
def decodeVset (w : Nat) : Option Instr :=
  if fld w 31 1 = 1 ∧ fld w 5 10 = 0 then some (.vset (bits w 20 5) (bits w 15 5) (bits w 0 5)) else none

/-- Major 0x1D of R40: the words of VLD, VLDS, VLDX, VLDFF, VLSEG, VLDT, VLDL. -/
def decodeVload (w : Nat) : Option Instr :=
  match fld w 4 3 with
  | 0 => if fld w 10 5 = 0 then some (.vld (bits w 31 1) (bits w 20 5) (bits w 15 5) (bits w 7 3) (bits w 0 4)) else none
  | 1 => some (.vlds (bits w 31 1) (bits w 20 5) (bits w 15 5) (bits w 10 5) (bits w 7 3) (bits w 0 4))
  | 2 => some (.vldx (bits w 31 1) (bits w 20 5) (bits w 15 5) (bits w 10 5) (bits w 7 3) (bits w 0 4))
  | 3 => if fld w 10 5 = 0 then some (.vldff (bits w 31 1) (bits w 20 5) (bits w 15 5) (bits w 7 3) (bits w 0 4)) else none
  | 4 => some (.vlseg (bits w 31 1) (bits w 20 5) (bits w 15 5) (bits w 10 5) (bits w 7 3) (bits w 0 4))
  | 5 => some (.vldt (bits w 31 1) (bits w 20 5) (bits w 15 5) (bits w 10 5) (bits w 7 3) (bits w 0 4))
  | 6 => if fld w 10 5 = 0 then some (.vldl (bits w 31 1) (bits w 20 5) (bits w 15 5) (bits w 7 3) (bits w 0 4)) else none
  | _ => none

/-- Major 0x1E of R40: the words of VST, VSTS, VSTX, VSSEG, VSTT, VSTL. -/
def decodeVstore (w : Nat) : Option Instr :=
  match fld w 4 3 with
  | 0 => if fld w 10 5 = 0 then some (.vst (bits w 31 1) (bits w 20 5) (bits w 15 5) (bits w 7 3) (bits w 0 4)) else none
  | 1 => some (.vsts (bits w 31 1) (bits w 20 5) (bits w 15 5) (bits w 10 5) (bits w 7 3) (bits w 0 4))
  | 2 => some (.vstx (bits w 31 1) (bits w 20 5) (bits w 15 5) (bits w 10 5) (bits w 7 3) (bits w 0 4))
  | 4 => some (.vsseg (bits w 31 1) (bits w 20 5) (bits w 15 5) (bits w 10 5) (bits w 7 3) (bits w 0 4))
  | 5 => some (.vstt (bits w 31 1) (bits w 20 5) (bits w 15 5) (bits w 10 5) (bits w 7 3) (bits w 0 4))
  | 6 => if fld w 10 5 = 0 then some (.vstl (bits w 31 1) (bits w 20 5) (bits w 15 5) (bits w 7 3) (bits w 0 4)) else none
  | _ => none

/-- Major 0x1F of R40: the words of VADD, VSUB, VMUL, VMULH, VMULHN, VMIN, VMAX, VMINN, VMAXN, VAND, VOR, VXOR, VSHL, VSHR, VSRA, VSADD, VSADDN, VSSUB, VSSUBN, VWADD, VWMUL, VWMAC, VNSHR, VDOT4, VCMPEQ, VCMPLT, VCMPLTN. -/
def decodeVint (w : Nat) : Option Instr :=
  match fld w 0 6 with
  | 0 => some (.vadd (bits w 31 1) (bits w 20 5) (bits w 15 5) (bits w 10 5) (bits w 7 3) (bits w 6 1))
  | 1 => some (.vsub (bits w 31 1) (bits w 20 5) (bits w 15 5) (bits w 10 5) (bits w 7 3) (bits w 6 1))
  | 2 => some (.vmul (bits w 31 1) (bits w 20 5) (bits w 15 5) (bits w 10 5) (bits w 7 3) (bits w 6 1))
  | 3 => some (.vmulh (bits w 31 1) (bits w 20 5) (bits w 15 5) (bits w 10 5) (bits w 7 3) (bits w 6 1))
  | 4 => some (.vmulhn (bits w 31 1) (bits w 20 5) (bits w 15 5) (bits w 10 5) (bits w 7 3) (bits w 6 1))
  | 5 => some (.vmin (bits w 31 1) (bits w 20 5) (bits w 15 5) (bits w 10 5) (bits w 7 3) (bits w 6 1))
  | 6 => some (.vmax (bits w 31 1) (bits w 20 5) (bits w 15 5) (bits w 10 5) (bits w 7 3) (bits w 6 1))
  | 7 => some (.vminn (bits w 31 1) (bits w 20 5) (bits w 15 5) (bits w 10 5) (bits w 7 3) (bits w 6 1))
  | 8 => some (.vmaxn (bits w 31 1) (bits w 20 5) (bits w 15 5) (bits w 10 5) (bits w 7 3) (bits w 6 1))
  | 9 => some (.vand (bits w 31 1) (bits w 20 5) (bits w 15 5) (bits w 10 5) (bits w 7 3) (bits w 6 1))
  | 10 => some (.vor (bits w 31 1) (bits w 20 5) (bits w 15 5) (bits w 10 5) (bits w 7 3) (bits w 6 1))
  | 11 => some (.vxor (bits w 31 1) (bits w 20 5) (bits w 15 5) (bits w 10 5) (bits w 7 3) (bits w 6 1))
  | 12 => some (.vshl (bits w 31 1) (bits w 20 5) (bits w 15 5) (bits w 10 5) (bits w 7 3) (bits w 6 1))
  | 13 => some (.vshr (bits w 31 1) (bits w 20 5) (bits w 15 5) (bits w 10 5) (bits w 7 3) (bits w 6 1))
  | 14 => some (.vsra (bits w 31 1) (bits w 20 5) (bits w 15 5) (bits w 10 5) (bits w 7 3) (bits w 6 1))
  | 15 => some (.vsadd (bits w 31 1) (bits w 20 5) (bits w 15 5) (bits w 10 5) (bits w 7 3) (bits w 6 1))
  | 16 => some (.vsaddn (bits w 31 1) (bits w 20 5) (bits w 15 5) (bits w 10 5) (bits w 7 3) (bits w 6 1))
  | 17 => some (.vssub (bits w 31 1) (bits w 20 5) (bits w 15 5) (bits w 10 5) (bits w 7 3) (bits w 6 1))
  | 18 => some (.vssubn (bits w 31 1) (bits w 20 5) (bits w 15 5) (bits w 10 5) (bits w 7 3) (bits w 6 1))
  | 19 => some (.vwadd (bits w 31 1) (bits w 20 5) (bits w 15 5) (bits w 10 5) (bits w 7 3) (bits w 6 1))
  | 20 => some (.vwmul (bits w 31 1) (bits w 20 5) (bits w 15 5) (bits w 10 5) (bits w 7 3) (bits w 6 1))
  | 21 => some (.vwmac (bits w 31 1) (bits w 20 5) (bits w 15 5) (bits w 10 5) (bits w 7 3) (bits w 6 1))
  | 22 => some (.vnshr (bits w 31 1) (bits w 20 5) (bits w 15 5) (bits w 10 5) (bits w 7 3) (bits w 6 1))
  | 23 => some (.vdot4 (bits w 31 1) (bits w 20 5) (bits w 15 5) (bits w 10 5) (bits w 7 3) (bits w 6 1))
  | 24 => some (.vcmpeq (bits w 31 1) (bits w 20 5) (bits w 15 5) (bits w 10 5) (bits w 7 3) (bits w 6 1))
  | 25 => some (.vcmplt (bits w 31 1) (bits w 20 5) (bits w 15 5) (bits w 10 5) (bits w 7 3) (bits w 6 1))
  | 26 => some (.vcmpltn (bits w 31 1) (bits w 20 5) (bits w 15 5) (bits w 10 5) (bits w 7 3) (bits w 6 1))
  | _ => none

/-- Major 0x20 of R40: the words of VFADD, VFSUB, VFMUL, VFMA, VFNMA, VFDIV, VFSQRT, VFREC, VFRSQ, VFMIN, VFMAX, VFMINP, VFMAXP, VFABS, VFNEG, VFCMPEQ, VFCMPLT, VFCMPLE, VFCLASS. -/
def decodeVfp (w : Nat) : Option Instr :=
  match fld w 0 6 with
  | 0 => some (.vfadd (bits w 31 1) (bits w 20 5) (bits w 15 5) (bits w 10 5) (bits w 7 3) (bits w 6 1))
  | 1 => some (.vfsub (bits w 31 1) (bits w 20 5) (bits w 15 5) (bits w 10 5) (bits w 7 3) (bits w 6 1))
  | 2 => some (.vfmul (bits w 31 1) (bits w 20 5) (bits w 15 5) (bits w 10 5) (bits w 7 3) (bits w 6 1))
  | 3 => some (.vfma (bits w 31 1) (bits w 20 5) (bits w 15 5) (bits w 10 5) (bits w 7 3) (bits w 6 1))
  | 4 => some (.vfnma (bits w 31 1) (bits w 20 5) (bits w 15 5) (bits w 10 5) (bits w 7 3) (bits w 6 1))
  | 5 => some (.vfdiv (bits w 31 1) (bits w 20 5) (bits w 15 5) (bits w 10 5) (bits w 7 3) (bits w 6 1))
  | 6 => if fld w 10 5 = 0 then some (.vfsqrt (bits w 31 1) (bits w 20 5) (bits w 15 5) (bits w 7 3) (bits w 6 1)) else none
  | 7 => if fld w 10 5 = 0 then some (.vfrec (bits w 31 1) (bits w 20 5) (bits w 15 5) (bits w 7 3) (bits w 6 1)) else none
  | 8 => if fld w 10 5 = 0 then some (.vfrsq (bits w 31 1) (bits w 20 5) (bits w 15 5) (bits w 7 3) (bits w 6 1)) else none
  | 9 => some (.vfmin (bits w 31 1) (bits w 20 5) (bits w 15 5) (bits w 10 5) (bits w 7 3) (bits w 6 1))
  | 10 => some (.vfmax (bits w 31 1) (bits w 20 5) (bits w 15 5) (bits w 10 5) (bits w 7 3) (bits w 6 1))
  | 11 => some (.vfminp (bits w 31 1) (bits w 20 5) (bits w 15 5) (bits w 10 5) (bits w 7 3) (bits w 6 1))
  | 12 => some (.vfmaxp (bits w 31 1) (bits w 20 5) (bits w 15 5) (bits w 10 5) (bits w 7 3) (bits w 6 1))
  | 13 => if fld w 10 5 = 0 then some (.vfabs (bits w 31 1) (bits w 20 5) (bits w 15 5) (bits w 7 3) (bits w 6 1)) else none
  | 14 => if fld w 10 5 = 0 then some (.vfneg (bits w 31 1) (bits w 20 5) (bits w 15 5) (bits w 7 3) (bits w 6 1)) else none
  | 15 => some (.vfcmpeq (bits w 31 1) (bits w 20 5) (bits w 15 5) (bits w 10 5) (bits w 7 3) (bits w 6 1))
  | 16 => some (.vfcmplt (bits w 31 1) (bits w 20 5) (bits w 15 5) (bits w 10 5) (bits w 7 3) (bits w 6 1))
  | 17 => some (.vfcmple (bits w 31 1) (bits w 20 5) (bits w 15 5) (bits w 10 5) (bits w 7 3) (bits w 6 1))
  | 18 => if fld w 10 5 = 0 then some (.vfclass (bits w 31 1) (bits w 20 5) (bits w 15 5) (bits w 7 3) (bits w 6 1)) else none
  | _ => none

/-- Major 0x21 of R40: the words of VCMUL, VCMAC, VCMACJ, VCCONJ, VCABS2, VCROT, VCSCL, VCINV2, VGJP. -/
def decodeVcplx (w : Nat) : Option Instr :=
  match fld w 0 6 with
  | 0 => some (.vcmul (bits w 31 1) (bits w 20 5) (bits w 15 5) (bits w 10 5) (bits w 7 3) (bits w 6 1))
  | 1 => some (.vcmac (bits w 31 1) (bits w 20 5) (bits w 15 5) (bits w 10 5) (bits w 7 3) (bits w 6 1))
  | 2 => some (.vcmacj (bits w 31 1) (bits w 20 5) (bits w 15 5) (bits w 10 5) (bits w 7 3) (bits w 6 1))
  | 3 => if fld w 10 5 = 0 then some (.vcconj (bits w 31 1) (bits w 20 5) (bits w 15 5) (bits w 7 3) (bits w 6 1)) else none
  | 4 => if fld w 10 5 = 0 then some (.vcabs2 (bits w 31 1) (bits w 20 5) (bits w 15 5) (bits w 7 3) (bits w 6 1)) else none
  | 5 => some (.vcrot (bits w 31 1) (bits w 20 5) (bits w 15 5) (bits w 10 5) (bits w 7 3) (bits w 6 1))
  | 6 => some (.vcscl (bits w 31 1) (bits w 20 5) (bits w 15 5) (bits w 10 5) (bits w 7 3) (bits w 6 1))
  | 7 => if fld w 10 5 = 0 then some (.vcinv2 (bits w 31 1) (bits w 20 5) (bits w 15 5) (bits w 7 3) (bits w 6 1)) else none
  | 8 => some (.vgjp (bits w 31 1) (bits w 20 5) (bits w 15 5) (bits w 10 5) (bits w 7 3) (bits w 6 1))
  | _ => none

/-- Major 0x22 of R40: the words of VPERM, VSLUP, VSLDN, VREV, VPACK, VZIP, VUNZIP. -/
def decodeVx (w : Nat) : Option Instr :=
  match fld w 0 6 with
  | 0 => if fld w 6 1 = 0 then some (.vperm (bits w 31 1) (bits w 20 5) (bits w 15 5) (bits w 10 5) (bits w 7 3)) else none
  | 1 => if fld w 6 1 = 0 then some (.vslup (bits w 31 1) (bits w 20 5) (bits w 15 5) (bits w 10 5) (bits w 7 3)) else none
  | 2 => if fld w 6 1 = 0 then some (.vsldn (bits w 31 1) (bits w 20 5) (bits w 15 5) (bits w 10 5) (bits w 7 3)) else none
  | 3 => if fld w 10 5 = 0 ∧ fld w 6 1 = 0 then some (.vrev (bits w 31 1) (bits w 20 5) (bits w 15 5) (bits w 7 3)) else none
  | 4 => if fld w 6 4 = 0 then some (.vpack (bits w 31 1) (bits w 20 5) (bits w 15 5) (bits w 10 5)) else none
  | 5 => if fld w 10 5 = 0 ∧ fld w 6 1 = 0 then some (.vzip (bits w 31 1) (bits w 20 5) (bits w 15 5) (bits w 7 3)) else none
  | 6 => if fld w 10 5 = 0 ∧ fld w 6 1 = 0 then some (.vunzip (bits w 31 1) (bits w 20 5) (bits w 15 5) (bits w 7 3)) else none
  | _ => none

/-- Major 0x23 of R40: the words of VXCH, VBFLY, VIBFLY, VPLAN. -/
def decodeVdist (w : Nat) : Option Instr :=
  match fld w 0 2 with
  | 0 => if fld w 10 5 = 0 ∧ fld w 6 1 = 0 then some (.vxch (bits w 31 1) (bits w 20 5) (bits w 15 5) (bits w 7 3) (bits w 2 4)) else none
  | 1 => some (.vbfly (bits w 31 1) (bits w 20 5) (bits w 15 5) (bits w 10 5) (bits w 7 3) (bits w 6 1) (bits w 2 4))
  | 2 => some (.vibfly (bits w 31 1) (bits w 20 5) (bits w 15 5) (bits w 10 5) (bits w 7 3) (bits w 6 1) (bits w 2 4))
  | 3 => some (.vplan (bits w 31 1) (bits w 20 5) (bits w 15 5) (bits w 10 5) (bits w 7 3) (bits w 6 1) (bits w 2 4))
  | _ => none

/-- Major 0x24 of R40: the words of VMAND, VMOR, VMXOR, VMNOT, VMFIRST, VMUPTO, VMPOP, VREDSUM, VREDMIN, VREDMAX, VREDMINN, VREDMAXN, VFREDSUM, VFREDMIN, VFREDMAX, VCREDSUM, VSCAN, VLTRIP, VLSTEP. -/
def decodeVmask (w : Nat) : Option Instr :=
  match fld w 0 6 with
  | 0 => if fld w 6 1 = 0 then some (.vmand (bits w 31 1) (bits w 20 5) (bits w 15 5) (bits w 10 5) (bits w 7 3)) else none
  | 1 => if fld w 6 1 = 0 then some (.vmor (bits w 31 1) (bits w 20 5) (bits w 15 5) (bits w 10 5) (bits w 7 3)) else none
  | 2 => if fld w 6 1 = 0 then some (.vmxor (bits w 31 1) (bits w 20 5) (bits w 15 5) (bits w 10 5) (bits w 7 3)) else none
  | 3 => if fld w 10 5 = 0 ∧ fld w 6 1 = 0 then some (.vmnot (bits w 31 1) (bits w 20 5) (bits w 15 5) (bits w 7 3)) else none
  | 4 => if fld w 10 5 = 0 ∧ fld w 6 1 = 0 then some (.vmfirst (bits w 31 1) (bits w 20 5) (bits w 15 5) (bits w 7 3)) else none
  | 5 => if fld w 10 5 = 0 ∧ fld w 6 1 = 0 then some (.vmupto (bits w 31 1) (bits w 20 5) (bits w 15 5) (bits w 7 3)) else none
  | 6 => if fld w 10 5 = 0 ∧ fld w 6 1 = 0 then some (.vmpop (bits w 31 1) (bits w 20 5) (bits w 15 5) (bits w 7 3)) else none
  | 7 => some (.vredsum (bits w 31 1) (bits w 20 5) (bits w 15 5) (bits w 10 5) (bits w 7 3) (bits w 6 1))
  | 8 => some (.vredmin (bits w 31 1) (bits w 20 5) (bits w 15 5) (bits w 10 5) (bits w 7 3) (bits w 6 1))
  | 9 => some (.vredmax (bits w 31 1) (bits w 20 5) (bits w 15 5) (bits w 10 5) (bits w 7 3) (bits w 6 1))
  | 10 => some (.vredminn (bits w 31 1) (bits w 20 5) (bits w 15 5) (bits w 10 5) (bits w 7 3) (bits w 6 1))
  | 11 => some (.vredmaxn (bits w 31 1) (bits w 20 5) (bits w 15 5) (bits w 10 5) (bits w 7 3) (bits w 6 1))
  | 12 => some (.vfredsum (bits w 31 1) (bits w 20 5) (bits w 15 5) (bits w 10 5) (bits w 7 3) (bits w 6 1))
  | 13 => some (.vfredmin (bits w 31 1) (bits w 20 5) (bits w 15 5) (bits w 10 5) (bits w 7 3) (bits w 6 1))
  | 14 => some (.vfredmax (bits w 31 1) (bits w 20 5) (bits w 15 5) (bits w 10 5) (bits w 7 3) (bits w 6 1))
  | 15 => some (.vcredsum (bits w 31 1) (bits w 20 5) (bits w 15 5) (bits w 10 5) (bits w 7 3) (bits w 6 1))
  | 16 => if fld w 10 5 = 0 then some (.vscan (bits w 31 1) (bits w 20 5) (bits w 15 5) (bits w 7 3) (bits w 6 1)) else none
  | 17 => if fld w 7 3 = 0 then some (.vltrip (bits w 31 1) (bits w 20 5) (bits w 15 5) (bits w 10 5) (bits w 6 1)) else none
  | 18 => if fld w 15 5 = 0 ∧ fld w 7 3 = 0 then some (.vlstep (bits w 31 1) (bits w 20 5) (bits w 10 5) (bits w 6 1)) else none
  | _ => none

/-- Major 0x25 of R40: the words of VCVT, VCVTSAT, VCVTZ, VQUANT, VDEQ, VTDEC. -/
def decodeVcvt (w : Nat) : Option Instr :=
  match fld w 0 6 with
  | 0 => some (.vcvt (bits w 31 1) (bits w 20 5) (bits w 15 5) (bits w 10 5) (bits w 7 3) (bits w 6 1))
  | 1 => some (.vcvtsat (bits w 31 1) (bits w 20 5) (bits w 15 5) (bits w 10 5) (bits w 7 3) (bits w 6 1))
  | 2 => some (.vcvtz (bits w 31 1) (bits w 20 5) (bits w 15 5) (bits w 10 5) (bits w 7 3) (bits w 6 1))
  | 3 => some (.vquant (bits w 31 1) (bits w 20 5) (bits w 15 5) (bits w 10 5) (bits w 7 3) (bits w 6 1))
  | 4 => some (.vdeq (bits w 31 1) (bits w 20 5) (bits w 15 5) (bits w 10 5) (bits w 7 3) (bits w 6 1))
  | 5 => if fld w 10 5 = 0 then some (.vtdec (bits w 31 1) (bits w 20 5) (bits w 15 5) (bits w 7 3) (bits w 6 1)) else none
  | _ => none

/-- Major 0x26 of R40: the words of VMV, VMVS, VEXT, VINS, VID, VPUSH, VTAKE, VPOLL. -/
def decodeVmov (w : Nat) : Option Instr :=
  match fld w 0 6 with
  | 0 => if fld w 10 5 = 0 ∧ fld w 6 1 = 0 then some (.vmv (bits w 31 1) (bits w 20 5) (bits w 15 5) (bits w 7 3)) else none
  | 1 => if fld w 10 5 = 0 ∧ fld w 6 1 = 0 then some (.vmvs (bits w 31 1) (bits w 20 5) (bits w 15 5) (bits w 7 3)) else none
  | 2 => if fld w 6 1 = 0 then some (.vext (bits w 31 1) (bits w 20 5) (bits w 15 5) (bits w 10 5) (bits w 7 3)) else none
  | 3 => if fld w 6 1 = 0 then some (.vins (bits w 31 1) (bits w 20 5) (bits w 15 5) (bits w 10 5) (bits w 7 3)) else none
  | 4 => if fld w 10 10 = 0 ∧ fld w 6 1 = 0 then some (.vid (bits w 31 1) (bits w 20 5) (bits w 7 3)) else none
  | 5 => if fld w 20 5 = 0 ∧ fld w 6 4 = 0 then some (.vpush (bits w 31 1) (bits w 15 5) (bits w 10 5)) else none
  | 6 => if fld w 15 5 = 0 ∧ fld w 6 4 = 0 then some (.vtake (bits w 31 1) (bits w 20 5) (bits w 10 5)) else none
  | 7 => if fld w 15 5 = 0 ∧ fld w 6 4 = 0 then some (.vpoll (bits w 31 1) (bits w 20 5) (bits w 10 5)) else none
  | _ => none

/-- Major 0x27 of R40: the words of ACLAIM, ARELS, ATILE, ALDA, ALDB, AMMA, AMMZ, ASMMA, ASTC, AZERO, ALEASE, AFREE, AWAIT. -/
def decodeAnvil (w : Nat) : Option Instr :=
  match fld w 17 8 with
  | 0 => if fld w 0 17 = 0 then some (.alease) else none
  | 1 => if fld w 0 17 = 0 then some (.afree) else none
  | 2 => if fld w 0 7 = 0 then some (.aclaim (bits w 12 5) (bits w 7 5)) else none
  | 3 => if fld w 12 5 = 0 ∧ fld w 0 2 = 0 then some (.arels (bits w 7 5) (bits w 2 5)) else none
  | 4 => if fld w 0 2 = 0 then some (.atile (bits w 12 5) (bits w 7 5) (bits w 2 5)) else none
  | 5 => if fld w 12 5 = 0 ∧ fld w 0 2 = 0 then some (.alda (bits w 7 5) (bits w 2 5)) else none
  | 6 => if fld w 12 5 = 0 ∧ fld w 0 2 = 0 then some (.aldb (bits w 7 5) (bits w 2 5)) else none
  | 7 => if fld w 0 2 = 0 then some (.amma (bits w 12 5) (bits w 7 5) (bits w 2 5)) else none
  | 8 => if fld w 0 2 = 0 then some (.ammz (bits w 12 5) (bits w 7 5) (bits w 2 5)) else none
  | 9 => if fld w 0 2 = 0 then some (.asmma (bits w 12 5) (bits w 7 5) (bits w 2 5)) else none
  | 10 => if fld w 0 2 = 0 then some (.astc (bits w 12 5) (bits w 7 5) (bits w 2 5)) else none
  | 11 => if fld w 0 12 = 0 then some (.azero (bits w 12 5)) else none
  | 12 => if fld w 0 17 = 0 then some (.await) else none
  | _ => none

/-- Major 0x28 of R40: the words of HAUL, HAULNB, HMILE, HWAIT, TDEF, TSTAT, TSET, TFREE. -/
def decodeHaul (w : Nat) : Option Instr :=
  match fld w 17 8 with
  | 0 => if fld w 0 2 = 0 then some (.haul (bits w 12 5) (bits w 7 5) (bits w 2 5)) else none
  | 1 => if fld w 0 2 = 0 then some (.haulnb (bits w 12 5) (bits w 7 5) (bits w 2 5)) else none
  | 2 => if fld w 0 7 = 0 then some (.hmile (bits w 12 5) (bits w 7 5)) else none
  | 3 => if fld w 12 5 = 0 ∧ fld w 0 2 = 0 then some (.hwait (bits w 7 5) (bits w 2 5)) else none
  | 4 => if fld w 0 2 = 0 then some (.tdef (bits w 12 5) (bits w 7 5) (bits w 2 5)) else none
  | 5 => if fld w 0 7 = 0 then some (.tstat (bits w 12 5) (bits w 7 5)) else none
  | 6 => if fld w 0 2 = 0 then some (.tset (bits w 12 5) (bits w 7 5) (bits w 2 5)) else none
  | 7 => if fld w 0 7 = 0 then some (.tfree (bits w 12 5) (bits w 7 5)) else none
  | _ => none

/-- Major 0x29 of R40: the words of TENC, TWAIT. -/
def decodeTrel (w : Nat) : Option Instr :=
  match fld w 17 8 with
  | 0 => if fld w 0 2 = 0 then some (.tenc (bits w 12 5) (bits w 7 5) (bits w 2 5)) else none
  | 1 => if fld w 12 5 = 0 ∧ fld w 0 7 = 0 then some (.twait (bits w 7 5)) else none
  | _ => none

/-- Major 0x2A of R40: the words of CSUB, CMILE, CWAIT. -/
def decodeCode (w : Nat) : Option Instr :=
  match fld w 17 8 with
  | 0 => if fld w 0 2 = 0 then some (.csub (bits w 12 5) (bits w 7 5) (bits w 2 5)) else none
  | 1 => if fld w 0 12 = 0 then some (.cmile (bits w 12 5)) else none
  | 2 => if fld w 12 5 = 0 ∧ fld w 0 7 = 0 then some (.cwait (bits w 7 5)) else none
  | _ => none

/-- Major 0x2B of R40: the words of FHARM, FHSEND, FHSTAT. -/
def decodeFh (w : Nat) : Option Instr :=
  match fld w 17 8 with
  | 0 => if fld w 0 2 = 0 then some (.fharm (bits w 12 5) (bits w 7 5) (bits w 2 5)) else none
  | 1 => if fld w 0 2 = 0 then some (.fhsend (bits w 12 5) (bits w 7 5) (bits w 2 5)) else none
  | 2 => if fld w 0 7 = 0 then some (.fhstat (bits w 12 5) (bits w 7 5)) else none
  | _ => none

/-- Major 0x2C of R40: the words of WJOIN, WNEAR, WPUB, WGET, WTRACT, WLEAVE. -/
def decodeWay (w : Nat) : Option Instr :=
  match fld w 17 8 with
  | 0 => if fld w 0 2 = 0 then some (.wjoin (bits w 12 5) (bits w 7 5) (bits w 2 5)) else none
  | 1 => if fld w 0 17 = 0 then some (.wleave) else none
  | 2 => if fld w 0 2 = 0 then some (.wnear (bits w 12 5) (bits w 7 5) (bits w 2 5)) else none
  | 3 => if fld w 12 5 = 0 ∧ fld w 0 7 = 0 then some (.wpub (bits w 7 5)) else none
  | 4 => if fld w 0 2 = 0 then some (.wget (bits w 12 5) (bits w 7 5) (bits w 2 5)) else none
  | 5 => if fld w 0 7 = 0 then some (.wtract (bits w 12 5) (bits w 7 5)) else none
  | _ => none

/-- Major 0x2D of R40: the words of SPAWN, JDONE, QPUSH, QPOP, QLEN, CHSEND, CHRECV, CHREL, TIME, SLACK. -/
def decodeSched (w : Nat) : Option Instr :=
  match fld w 17 8 with
  | 0 => if fld w 0 7 = 0 then some (.spawn (bits w 12 5) (bits w 7 5)) else none
  | 1 => if fld w 0 7 = 0 then some (.jdone (bits w 12 5) (bits w 7 5)) else none
  | 2 => if fld w 0 2 = 0 then some (.qpush (bits w 12 5) (bits w 7 5) (bits w 2 5)) else none
  | 3 => if fld w 0 2 = 0 then some (.qpop (bits w 12 5) (bits w 7 5) (bits w 2 5)) else none
  | 4 => if fld w 7 5 = 0 ∧ fld w 0 2 = 0 then some (.qlen (bits w 12 5) (bits w 2 5)) else none
  | 5 => if fld w 0 2 = 0 then some (.chsend (bits w 12 5) (bits w 7 5) (bits w 2 5)) else none
  | 6 => if fld w 0 2 = 0 then some (.chrecv (bits w 12 5) (bits w 7 5) (bits w 2 5)) else none
  | 7 => if fld w 0 12 = 0 then some (.chrel (bits w 12 5)) else none
  | 8 => if fld w 0 12 = 0 then some (.time (bits w 12 5)) else none
  | 9 => if fld w 0 7 = 0 then some (.slack (bits w 12 5) (bits w 7 5)) else none
  | _ => none

/-- Major 0x2E of R40: the words of TRACE, CNTRD, CNTCFG. -/
def decodeDbg (w : Nat) : Option Instr :=
  match fld w 17 8 with
  | 0 => if fld w 12 5 = 0 ∧ fld w 0 2 = 0 then some (.trace (bits w 7 5) (bits w 2 5)) else none
  | 1 => if fld w 0 7 = 0 then some (.cntrd (bits w 12 5) (bits w 7 5)) else none
  | 2 => if fld w 0 2 = 0 then some (.cntcfg (bits w 12 5) (bits w 7 5) (bits w 2 5)) else none
  | _ => none

/-- The instruction a word of a listed major stands for (R40, R42); CB must be 0 outside the vector majors. -/
def decodeMajor (m w : Nat) : Option Instr :=
  match m with
  | 0 => if fld w 31 1 = 0 then decodeSys w else none
  | 1 => if fld w 31 1 = 0 then decodeCr w else none
  | 2 => if fld w 31 1 = 0 then decodeAlu w else none
  | 3 => if fld w 31 1 = 0 then decodeMuldiv w else none
  | 4 => if fld w 31 1 = 0 then decodeAddi w else none
  | 5 => if fld w 31 1 = 0 then decodeAndi w else none
  | 6 => if fld w 31 1 = 0 then decodeOri w else none
  | 7 => if fld w 31 1 = 0 then decodeXori w else none
  | 8 => if fld w 31 1 = 0 then decodeSlti w else none
  | 9 => if fld w 31 1 = 0 then decodeSltni w else none
  | 10 => if fld w 31 1 = 0 then decodeShifti w else none
  | 11 => if fld w 31 1 = 0 then decodeLih w else none
  | 12 => if fld w 31 1 = 0 then decodeAddpc w else none
  | 13 => if fld w 31 1 = 0 then decodeBeq w else none
  | 14 => if fld w 31 1 = 0 then decodeBne w else none
  | 15 => if fld w 31 1 = 0 then decodeBlt w else none
  | 16 => if fld w 31 1 = 0 then decodeBge w else none
  | 17 => if fld w 31 1 = 0 then decodeBltn w else none
  | 18 => if fld w 31 1 = 0 then decodeBgen w else none
  | 19 => if fld w 31 1 = 0 then decodeJal w else none
  | 20 => if fld w 31 1 = 0 then decodeJalr w else none
  | 21 => if fld w 31 1 = 0 then decodeLoop w else none
  | 22 => if fld w 31 1 = 0 then decodeLd w else none
  | 23 => if fld w 31 1 = 0 then decodeLdn w else none
  | 24 => if fld w 31 1 = 0 then decodeSt w else none
  | 25 => if fld w 31 1 = 0 then decodeAmo w else none
  | 26 => if fld w 31 1 = 0 then decodeFence w else none
  | 27 => if fld w 31 1 = 0 then decodeWait w else none
  | 28 => decodeVset w
  | 29 => decodeVload w
  | 30 => decodeVstore w
  | 31 => decodeVint w
  | 32 => decodeVfp w
  | 33 => decodeVcplx w
  | 34 => decodeVx w
  | 35 => decodeVdist w
  | 36 => decodeVmask w
  | 37 => decodeVcvt w
  | 38 => decodeVmov w
  | 39 => if fld w 31 1 = 0 then decodeAnvil w else none
  | 40 => if fld w 31 1 = 0 then decodeHaul w else none
  | 41 => if fld w 31 1 = 0 then decodeTrel w else none
  | 42 => if fld w 31 1 = 0 then decodeCode w else none
  | 43 => if fld w 31 1 = 0 then decodeFh w else none
  | 44 => if fld w 31 1 = 0 then decodeWay w else none
  | 45 => if fld w 31 1 = 0 then decodeSched w else none
  | 46 => if fld w 31 1 = 0 then decodeDbg w else none
  | _ => none

/-- The word of an instruction, written from the formats of R35 and the selectors of R40: each field at its place. The steps of
other agents have no word. -/
def encode (i : Instr) : Option Nat :=
  match i with
  | .trap a => some (asm 0x00000002 [(a.toNat, 15)])
  | .crrd d n => some (asm 0x02000000 [(d.toNat, 20), (n.toNat, 0)])
  | .crwr a n => some (asm 0x02001000 [(a.toNat, 15), (n.toNat, 0)])
  | .crset d a n => some (asm 0x02002000 [(d.toNat, 20), (a.toNat, 15), (n.toNat, 0)])
  | .crclr d a n => some (asm 0x02003000 [(d.toNat, 20), (a.toNat, 15), (n.toNat, 0)])
  | .add d a b => some (asm 0x04000000 [(d.toNat, 20), (a.toNat, 15), (b.toNat, 10)])
  | .sub d a b => some (asm 0x04000001 [(d.toNat, 20), (a.toNat, 15), (b.toNat, 10)])
  | .and d a b => some (asm 0x04000002 [(d.toNat, 20), (a.toNat, 15), (b.toNat, 10)])
  | .or d a b => some (asm 0x04000003 [(d.toNat, 20), (a.toNat, 15), (b.toNat, 10)])
  | .xor d a b => some (asm 0x04000004 [(d.toNat, 20), (a.toNat, 15), (b.toNat, 10)])
  | .andn d a b => some (asm 0x04000005 [(d.toNat, 20), (a.toNat, 15), (b.toNat, 10)])
  | .shl d a b => some (asm 0x04000006 [(d.toNat, 20), (a.toNat, 15), (b.toNat, 10)])
  | .shr d a b => some (asm 0x04000007 [(d.toNat, 20), (a.toNat, 15), (b.toNat, 10)])
  | .sra d a b => some (asm 0x04000008 [(d.toNat, 20), (a.toNat, 15), (b.toNat, 10)])
  | .rol d a b => some (asm 0x04000009 [(d.toNat, 20), (a.toNat, 15), (b.toNat, 10)])
  | .slt d a b => some (asm 0x0400000A [(d.toNat, 20), (a.toNat, 15), (b.toNat, 10)])
  | .sltn d a b => some (asm 0x0400000B [(d.toNat, 20), (a.toNat, 15), (b.toNat, 10)])
  | .seq d a b => some (asm 0x0400000C [(d.toNat, 20), (a.toNat, 15), (b.toNat, 10)])
  | .min d a b => some (asm 0x0400000D [(d.toNat, 20), (a.toNat, 15), (b.toNat, 10)])
  | .max d a b => some (asm 0x0400000E [(d.toNat, 20), (a.toNat, 15), (b.toNat, 10)])
  | .minn d a b => some (asm 0x0400000F [(d.toNat, 20), (a.toNat, 15), (b.toNat, 10)])
  | .maxn d a b => some (asm 0x04000010 [(d.toNat, 20), (a.toNat, 15), (b.toNat, 10)])
  | .clz d a => some (asm 0x04000011 [(d.toNat, 20), (a.toNat, 15)])
  | .ctz d a => some (asm 0x04000012 [(d.toNat, 20), (a.toNat, 15)])
  | .popc d a => some (asm 0x04000013 [(d.toNat, 20), (a.toNat, 15)])
  | .sext d a b => some (asm 0x04000014 [(d.toNat, 20), (a.toNat, 15), (b.toNat, 10)])
  | .zext d a b => some (asm 0x04000015 [(d.toNat, 20), (a.toNat, 15), (b.toNat, 10)])
  | .mul d a b => some (asm 0x06000000 [(d.toNat, 20), (a.toNat, 15), (b.toNat, 10)])
  | .mulh d a b => some (asm 0x06000001 [(d.toNat, 20), (a.toNat, 15), (b.toNat, 10)])
  | .mulhn d a b => some (asm 0x06000002 [(d.toNat, 20), (a.toNat, 15), (b.toNat, 10)])
  | .div d a b => some (asm 0x06000003 [(d.toNat, 20), (a.toNat, 15), (b.toNat, 10)])
  | .divn d a b => some (asm 0x06000004 [(d.toNat, 20), (a.toNat, 15), (b.toNat, 10)])
  | .rem d a b => some (asm 0x06000005 [(d.toNat, 20), (a.toNat, 15), (b.toNat, 10)])
  | .remn d a b => some (asm 0x06000006 [(d.toNat, 20), (a.toNat, 15), (b.toNat, 10)])
  | .addi d a i => some (asm 0x08000000 [(d.toNat, 20), (a.toNat, 15), (i.toNat, 0)])
  | .andi d a i => some (asm 0x0A000000 [(d.toNat, 20), (a.toNat, 15), (i.toNat, 0)])
  | .ori d a i => some (asm 0x0C000000 [(d.toNat, 20), (a.toNat, 15), (i.toNat, 0)])
  | .xori d a i => some (asm 0x0E000000 [(d.toNat, 20), (a.toNat, 15), (i.toNat, 0)])
  | .slti d a i => some (asm 0x10000000 [(d.toNat, 20), (a.toNat, 15), (i.toNat, 0)])
  | .sltni d a i => some (asm 0x12000000 [(d.toNat, 20), (a.toNat, 15), (i.toNat, 0)])
  | .shli d a n => some (asm 0x14000000 [(d.toNat, 20), (a.toNat, 15), (n.toNat, 0)])
  | .shri d a n => some (asm 0x14002000 [(d.toNat, 20), (a.toNat, 15), (n.toNat, 0)])
  | .srai d a n => some (asm 0x14004000 [(d.toNat, 20), (a.toNat, 15), (n.toNat, 0)])
  | .roli d a n => some (asm 0x14006000 [(d.toNat, 20), (a.toNat, 15), (n.toNat, 0)])
  | .lih d i => some (asm 0x16000000 [(d.toNat, 20), (i.toNat, 0)])
  | .addpc d i => some (asm 0x18000000 [(d.toNat, 20), (i.toNat, 0)])
  | .beq a b o => some (asm 0x1A000000 [(a.toNat, 20), (b.toNat, 15), (o.toNat, 0)])
  | .bne a b o => some (asm 0x1C000000 [(a.toNat, 20), (b.toNat, 15), (o.toNat, 0)])
  | .blt a b o => some (asm 0x1E000000 [(a.toNat, 20), (b.toNat, 15), (o.toNat, 0)])
  | .bge a b o => some (asm 0x20000000 [(a.toNat, 20), (b.toNat, 15), (o.toNat, 0)])
  | .bltn a b o => some (asm 0x22000000 [(a.toNat, 20), (b.toNat, 15), (o.toNat, 0)])
  | .bgen a b o => some (asm 0x24000000 [(a.toNat, 20), (b.toNat, 15), (o.toNat, 0)])
  | .jal d o => some (asm 0x26000000 [(d.toNat, 20), (o.toNat, 0)])
  | .jalr d a i => some (asm 0x28000000 [(d.toNat, 20), (a.toNat, 15), (i.toNat, 0)])
  | .loop a e => some (asm 0x2A000000 [(a.toNat, 17), (e.toNat, 0)])
  | .loopm a e => some (asm 0x2A400000 [(a.toNat, 17), (e.toNat, 0)])
  | .loops a e => some (asm 0x2A800000 [(a.toNat, 17), (e.toNat, 0)])
  | .lstg a => some (asm 0x2AC00000 [(a.toNat, 17)])
  | .lstr a b => some (asm 0x2B000000 [(a.toNat, 17), (b.toNat, 12)])
  | .lmask a b => some (asm 0x2B400000 [(a.toNat, 17), (b.toNat, 12)])
  | .lidx d k => some (asm 0x2B800000 [(d.toNat, 17), (k.toNat, 0)])
  | .lbrk a => some (asm 0x2BC00000 [(a.toNat, 17)])
  | .ld d b c s i => some (asm 0x2C000000 [(d.toNat, 20), (b.toNat, 15), (c.toNat, 11), (s.toNat, 9), (i.toNat, 0)])
  | .ldn d b c s i => some (asm 0x2E000000 [(d.toNat, 20), (b.toNat, 15), (c.toNat, 11), (s.toNat, 9), (i.toNat, 0)])
  | .st s b c z i => some (asm 0x30000000 [(s.toNat, 20), (b.toNat, 15), (c.toNat, 11), (z.toNat, 9), (i.toNat, 0)])
  | .amoadd d a b c o => some (asm 0x32000000 [(d.toNat, 20), (a.toNat, 15), (b.toNat, 10), (c.toNat, 6), (o.toNat, 4)])
  | .amoand d a b c o => some (asm 0x32000001 [(d.toNat, 20), (a.toNat, 15), (b.toNat, 10), (c.toNat, 6), (o.toNat, 4)])
  | .amoor d a b c o => some (asm 0x32000002 [(d.toNat, 20), (a.toNat, 15), (b.toNat, 10), (c.toNat, 6), (o.toNat, 4)])
  | .amoxor d a b c o => some (asm 0x32000003 [(d.toNat, 20), (a.toNat, 15), (b.toNat, 10), (c.toNat, 6), (o.toNat, 4)])
  | .amomin d a b c o => some (asm 0x32000004 [(d.toNat, 20), (a.toNat, 15), (b.toNat, 10), (c.toNat, 6), (o.toNat, 4)])
  | .amomax d a b c o => some (asm 0x32000005 [(d.toNat, 20), (a.toNat, 15), (b.toNat, 10), (c.toNat, 6), (o.toNat, 4)])
  | .amominn d a b c o => some (asm 0x32000006 [(d.toNat, 20), (a.toNat, 15), (b.toNat, 10), (c.toNat, 6), (o.toNat, 4)])
  | .amomaxn d a b c o => some (asm 0x32000007 [(d.toNat, 20), (a.toNat, 15), (b.toNat, 10), (c.toNat, 6), (o.toNat, 4)])
  | .amoswp d a b c o => some (asm 0x32000008 [(d.toNat, 20), (a.toNat, 15), (b.toNat, 10), (c.toNat, 6), (o.toNat, 4)])
  | .amocas d a b c o => some (asm 0x32000009 [(d.toNat, 20), (a.toNat, 15), (b.toNat, 10), (c.toNat, 6), (o.toNat, 4)])
  | .arrive d a b c o => some (asm 0x3200000A [(d.toNat, 20), (a.toNat, 15), (b.toNat, 10), (c.toNat, 6), (o.toNat, 4)])
  | .fence s m => some (asm 0x34000000 [(s.toNat, 19), (m.toNat, 3)])
  | .waita d a b => some (asm 0x36000000 [(d.toNat, 20), (a.toNat, 15), (b.toNat, 10)])
  | .cross d => some (asm 0x36000001 [(d.toNat, 20)])
  | .crossa d => some (asm 0x36000002 [(d.toNat, 20)])
  | .crossw d a => some (asm 0x36000003 [(d.toNat, 20), (a.toNat, 15)])
  | .crossp d a => some (asm 0x36000004 [(d.toNat, 20), (a.toNat, 15)])
  | .vset d a t => some (asm 0xB8000000 [(d.toNat, 20), (a.toNat, 15), (t.toNat, 0)])
  | .vld c v b k q => some (asm 0x3A000000 [(c.toNat, 31), (v.toNat, 20), (b.toNat, 15), (k.toNat, 7), (q.toNat, 0)])
  | .vlds c v b i k q => some (asm 0x3A000010 [(c.toNat, 31), (v.toNat, 20), (b.toNat, 15), (i.toNat, 10), (k.toNat, 7), (q.toNat, 0)])
  | .vldx c v b i k q => some (asm 0x3A000020 [(c.toNat, 31), (v.toNat, 20), (b.toNat, 15), (i.toNat, 10), (k.toNat, 7), (q.toNat, 0)])
  | .vldff c v b k q => some (asm 0x3A000030 [(c.toNat, 31), (v.toNat, 20), (b.toNat, 15), (k.toNat, 7), (q.toNat, 0)])
  | .vlseg c v b i k q => some (asm 0x3A000040 [(c.toNat, 31), (v.toNat, 20), (b.toNat, 15), (i.toNat, 10), (k.toNat, 7), (q.toNat, 0)])
  | .vldt c v b i k q => some (asm 0x3A000050 [(c.toNat, 31), (v.toNat, 20), (b.toNat, 15), (i.toNat, 10), (k.toNat, 7), (q.toNat, 0)])
  | .vldl c v b k q => some (asm 0x3A000060 [(c.toNat, 31), (v.toNat, 20), (b.toNat, 15), (k.toNat, 7), (q.toNat, 0)])
  | .vst c v b k q => some (asm 0x3C000000 [(c.toNat, 31), (v.toNat, 20), (b.toNat, 15), (k.toNat, 7), (q.toNat, 0)])
  | .vsts c v b i k q => some (asm 0x3C000010 [(c.toNat, 31), (v.toNat, 20), (b.toNat, 15), (i.toNat, 10), (k.toNat, 7), (q.toNat, 0)])
  | .vstx c v b i k q => some (asm 0x3C000020 [(c.toNat, 31), (v.toNat, 20), (b.toNat, 15), (i.toNat, 10), (k.toNat, 7), (q.toNat, 0)])
  | .vsseg c v b i k q => some (asm 0x3C000040 [(c.toNat, 31), (v.toNat, 20), (b.toNat, 15), (i.toNat, 10), (k.toNat, 7), (q.toNat, 0)])
  | .vstt c v b i k q => some (asm 0x3C000050 [(c.toNat, 31), (v.toNat, 20), (b.toNat, 15), (i.toNat, 10), (k.toNat, 7), (q.toNat, 0)])
  | .vstl c v b k q => some (asm 0x3C000060 [(c.toNat, 31), (v.toNat, 20), (b.toNat, 15), (k.toNat, 7), (q.toNat, 0)])
  | .vadd c d a b k x => some (asm 0x3E000000 [(c.toNat, 31), (d.toNat, 20), (a.toNat, 15), (b.toNat, 10), (k.toNat, 7), (x.toNat, 6)])
  | .vsub c d a b k x => some (asm 0x3E000001 [(c.toNat, 31), (d.toNat, 20), (a.toNat, 15), (b.toNat, 10), (k.toNat, 7), (x.toNat, 6)])
  | .vmul c d a b k x => some (asm 0x3E000002 [(c.toNat, 31), (d.toNat, 20), (a.toNat, 15), (b.toNat, 10), (k.toNat, 7), (x.toNat, 6)])
  | .vmulh c d a b k x => some (asm 0x3E000003 [(c.toNat, 31), (d.toNat, 20), (a.toNat, 15), (b.toNat, 10), (k.toNat, 7), (x.toNat, 6)])
  | .vmulhn c d a b k x => some (asm 0x3E000004 [(c.toNat, 31), (d.toNat, 20), (a.toNat, 15), (b.toNat, 10), (k.toNat, 7), (x.toNat, 6)])
  | .vmin c d a b k x => some (asm 0x3E000005 [(c.toNat, 31), (d.toNat, 20), (a.toNat, 15), (b.toNat, 10), (k.toNat, 7), (x.toNat, 6)])
  | .vmax c d a b k x => some (asm 0x3E000006 [(c.toNat, 31), (d.toNat, 20), (a.toNat, 15), (b.toNat, 10), (k.toNat, 7), (x.toNat, 6)])
  | .vminn c d a b k x => some (asm 0x3E000007 [(c.toNat, 31), (d.toNat, 20), (a.toNat, 15), (b.toNat, 10), (k.toNat, 7), (x.toNat, 6)])
  | .vmaxn c d a b k x => some (asm 0x3E000008 [(c.toNat, 31), (d.toNat, 20), (a.toNat, 15), (b.toNat, 10), (k.toNat, 7), (x.toNat, 6)])
  | .vand c d a b k x => some (asm 0x3E000009 [(c.toNat, 31), (d.toNat, 20), (a.toNat, 15), (b.toNat, 10), (k.toNat, 7), (x.toNat, 6)])
  | .vor c d a b k x => some (asm 0x3E00000A [(c.toNat, 31), (d.toNat, 20), (a.toNat, 15), (b.toNat, 10), (k.toNat, 7), (x.toNat, 6)])
  | .vxor c d a b k x => some (asm 0x3E00000B [(c.toNat, 31), (d.toNat, 20), (a.toNat, 15), (b.toNat, 10), (k.toNat, 7), (x.toNat, 6)])
  | .vshl c d a b k x => some (asm 0x3E00000C [(c.toNat, 31), (d.toNat, 20), (a.toNat, 15), (b.toNat, 10), (k.toNat, 7), (x.toNat, 6)])
  | .vshr c d a b k x => some (asm 0x3E00000D [(c.toNat, 31), (d.toNat, 20), (a.toNat, 15), (b.toNat, 10), (k.toNat, 7), (x.toNat, 6)])
  | .vsra c d a b k x => some (asm 0x3E00000E [(c.toNat, 31), (d.toNat, 20), (a.toNat, 15), (b.toNat, 10), (k.toNat, 7), (x.toNat, 6)])
  | .vsadd c d a b k x => some (asm 0x3E00000F [(c.toNat, 31), (d.toNat, 20), (a.toNat, 15), (b.toNat, 10), (k.toNat, 7), (x.toNat, 6)])
  | .vsaddn c d a b k x => some (asm 0x3E000010 [(c.toNat, 31), (d.toNat, 20), (a.toNat, 15), (b.toNat, 10), (k.toNat, 7), (x.toNat, 6)])
  | .vssub c d a b k x => some (asm 0x3E000011 [(c.toNat, 31), (d.toNat, 20), (a.toNat, 15), (b.toNat, 10), (k.toNat, 7), (x.toNat, 6)])
  | .vssubn c d a b k x => some (asm 0x3E000012 [(c.toNat, 31), (d.toNat, 20), (a.toNat, 15), (b.toNat, 10), (k.toNat, 7), (x.toNat, 6)])
  | .vwadd c d a b k x => some (asm 0x3E000013 [(c.toNat, 31), (d.toNat, 20), (a.toNat, 15), (b.toNat, 10), (k.toNat, 7), (x.toNat, 6)])
  | .vwmul c d a b k x => some (asm 0x3E000014 [(c.toNat, 31), (d.toNat, 20), (a.toNat, 15), (b.toNat, 10), (k.toNat, 7), (x.toNat, 6)])
  | .vwmac c d a b k x => some (asm 0x3E000015 [(c.toNat, 31), (d.toNat, 20), (a.toNat, 15), (b.toNat, 10), (k.toNat, 7), (x.toNat, 6)])
  | .vnshr c d a b k x => some (asm 0x3E000016 [(c.toNat, 31), (d.toNat, 20), (a.toNat, 15), (b.toNat, 10), (k.toNat, 7), (x.toNat, 6)])
  | .vdot4 c d a b k x => some (asm 0x3E000017 [(c.toNat, 31), (d.toNat, 20), (a.toNat, 15), (b.toNat, 10), (k.toNat, 7), (x.toNat, 6)])
  | .vcmpeq c d a b k x => some (asm 0x3E000018 [(c.toNat, 31), (d.toNat, 20), (a.toNat, 15), (b.toNat, 10), (k.toNat, 7), (x.toNat, 6)])
  | .vcmplt c d a b k x => some (asm 0x3E000019 [(c.toNat, 31), (d.toNat, 20), (a.toNat, 15), (b.toNat, 10), (k.toNat, 7), (x.toNat, 6)])
  | .vcmpltn c d a b k x => some (asm 0x3E00001A [(c.toNat, 31), (d.toNat, 20), (a.toNat, 15), (b.toNat, 10), (k.toNat, 7), (x.toNat, 6)])
  | .vfadd c d a b k x => some (asm 0x40000000 [(c.toNat, 31), (d.toNat, 20), (a.toNat, 15), (b.toNat, 10), (k.toNat, 7), (x.toNat, 6)])
  | .vfsub c d a b k x => some (asm 0x40000001 [(c.toNat, 31), (d.toNat, 20), (a.toNat, 15), (b.toNat, 10), (k.toNat, 7), (x.toNat, 6)])
  | .vfmul c d a b k x => some (asm 0x40000002 [(c.toNat, 31), (d.toNat, 20), (a.toNat, 15), (b.toNat, 10), (k.toNat, 7), (x.toNat, 6)])
  | .vfma c d a b k x => some (asm 0x40000003 [(c.toNat, 31), (d.toNat, 20), (a.toNat, 15), (b.toNat, 10), (k.toNat, 7), (x.toNat, 6)])
  | .vfnma c d a b k x => some (asm 0x40000004 [(c.toNat, 31), (d.toNat, 20), (a.toNat, 15), (b.toNat, 10), (k.toNat, 7), (x.toNat, 6)])
  | .vfdiv c d a b k x => some (asm 0x40000005 [(c.toNat, 31), (d.toNat, 20), (a.toNat, 15), (b.toNat, 10), (k.toNat, 7), (x.toNat, 6)])
  | .vfsqrt c d a k x => some (asm 0x40000006 [(c.toNat, 31), (d.toNat, 20), (a.toNat, 15), (k.toNat, 7), (x.toNat, 6)])
  | .vfrec c d a k x => some (asm 0x40000007 [(c.toNat, 31), (d.toNat, 20), (a.toNat, 15), (k.toNat, 7), (x.toNat, 6)])
  | .vfrsq c d a k x => some (asm 0x40000008 [(c.toNat, 31), (d.toNat, 20), (a.toNat, 15), (k.toNat, 7), (x.toNat, 6)])
  | .vfmin c d a b k x => some (asm 0x40000009 [(c.toNat, 31), (d.toNat, 20), (a.toNat, 15), (b.toNat, 10), (k.toNat, 7), (x.toNat, 6)])
  | .vfmax c d a b k x => some (asm 0x4000000A [(c.toNat, 31), (d.toNat, 20), (a.toNat, 15), (b.toNat, 10), (k.toNat, 7), (x.toNat, 6)])
  | .vfminp c d a b k x => some (asm 0x4000000B [(c.toNat, 31), (d.toNat, 20), (a.toNat, 15), (b.toNat, 10), (k.toNat, 7), (x.toNat, 6)])
  | .vfmaxp c d a b k x => some (asm 0x4000000C [(c.toNat, 31), (d.toNat, 20), (a.toNat, 15), (b.toNat, 10), (k.toNat, 7), (x.toNat, 6)])
  | .vfabs c d a k x => some (asm 0x4000000D [(c.toNat, 31), (d.toNat, 20), (a.toNat, 15), (k.toNat, 7), (x.toNat, 6)])
  | .vfneg c d a k x => some (asm 0x4000000E [(c.toNat, 31), (d.toNat, 20), (a.toNat, 15), (k.toNat, 7), (x.toNat, 6)])
  | .vfcmpeq c d a b k x => some (asm 0x4000000F [(c.toNat, 31), (d.toNat, 20), (a.toNat, 15), (b.toNat, 10), (k.toNat, 7), (x.toNat, 6)])
  | .vfcmplt c d a b k x => some (asm 0x40000010 [(c.toNat, 31), (d.toNat, 20), (a.toNat, 15), (b.toNat, 10), (k.toNat, 7), (x.toNat, 6)])
  | .vfcmple c d a b k x => some (asm 0x40000011 [(c.toNat, 31), (d.toNat, 20), (a.toNat, 15), (b.toNat, 10), (k.toNat, 7), (x.toNat, 6)])
  | .vfclass c d a k x => some (asm 0x40000012 [(c.toNat, 31), (d.toNat, 20), (a.toNat, 15), (k.toNat, 7), (x.toNat, 6)])
  | .vcmul c d a b k x => some (asm 0x42000000 [(c.toNat, 31), (d.toNat, 20), (a.toNat, 15), (b.toNat, 10), (k.toNat, 7), (x.toNat, 6)])
  | .vcmac c d a b k x => some (asm 0x42000001 [(c.toNat, 31), (d.toNat, 20), (a.toNat, 15), (b.toNat, 10), (k.toNat, 7), (x.toNat, 6)])
  | .vcmacj c d a b k x => some (asm 0x42000002 [(c.toNat, 31), (d.toNat, 20), (a.toNat, 15), (b.toNat, 10), (k.toNat, 7), (x.toNat, 6)])
  | .vcconj c d a k x => some (asm 0x42000003 [(c.toNat, 31), (d.toNat, 20), (a.toNat, 15), (k.toNat, 7), (x.toNat, 6)])
  | .vcabs2 c d a k x => some (asm 0x42000004 [(c.toNat, 31), (d.toNat, 20), (a.toNat, 15), (k.toNat, 7), (x.toNat, 6)])
  | .vcrot c d a n k x => some (asm 0x42000005 [(c.toNat, 31), (d.toNat, 20), (a.toNat, 15), (n.toNat, 10), (k.toNat, 7), (x.toNat, 6)])
  | .vcscl c d a b k x => some (asm 0x42000006 [(c.toNat, 31), (d.toNat, 20), (a.toNat, 15), (b.toNat, 10), (k.toNat, 7), (x.toNat, 6)])
  | .vcinv2 c d a k x => some (asm 0x42000007 [(c.toNat, 31), (d.toNat, 20), (a.toNat, 15), (k.toNat, 7), (x.toNat, 6)])
  | .vgjp c d a b k x => some (asm 0x42000008 [(c.toNat, 31), (d.toNat, 20), (a.toNat, 15), (b.toNat, 10), (k.toNat, 7), (x.toNat, 6)])
  | .vperm c d a b k => some (asm 0x44000000 [(c.toNat, 31), (d.toNat, 20), (a.toNat, 15), (b.toNat, 10), (k.toNat, 7)])
  | .vslup c d a b k => some (asm 0x44000001 [(c.toNat, 31), (d.toNat, 20), (a.toNat, 15), (b.toNat, 10), (k.toNat, 7)])
  | .vsldn c d a b k => some (asm 0x44000002 [(c.toNat, 31), (d.toNat, 20), (a.toNat, 15), (b.toNat, 10), (k.toNat, 7)])
  | .vrev c d a k => some (asm 0x44000003 [(c.toNat, 31), (d.toNat, 20), (a.toNat, 15), (k.toNat, 7)])
  | .vpack c d a b => some (asm 0x44000004 [(c.toNat, 31), (d.toNat, 20), (a.toNat, 15), (b.toNat, 10)])
  | .vzip c d a k => some (asm 0x44000005 [(c.toNat, 31), (d.toNat, 20), (a.toNat, 15), (k.toNat, 7)])
  | .vunzip c d a k => some (asm 0x44000006 [(c.toNat, 31), (d.toNat, 20), (a.toNat, 15), (k.toNat, 7)])
  | .vxch c d a k l => some (asm 0x46000000 [(c.toNat, 31), (d.toNat, 20), (a.toNat, 15), (k.toNat, 7), (l.toNat, 2)])
  | .vbfly c d a b k x l => some (asm 0x46000001 [(c.toNat, 31), (d.toNat, 20), (a.toNat, 15), (b.toNat, 10), (k.toNat, 7), (x.toNat, 6), (l.toNat, 2)])
  | .vibfly c d a b k x l => some (asm 0x46000002 [(c.toNat, 31), (d.toNat, 20), (a.toNat, 15), (b.toNat, 10), (k.toNat, 7), (x.toNat, 6), (l.toNat, 2)])
  | .vplan c d a b k x l => some (asm 0x46000003 [(c.toNat, 31), (d.toNat, 20), (a.toNat, 15), (b.toNat, 10), (k.toNat, 7), (x.toNat, 6), (l.toNat, 2)])
  | .vmand c d a b k => some (asm 0x48000000 [(c.toNat, 31), (d.toNat, 20), (a.toNat, 15), (b.toNat, 10), (k.toNat, 7)])
  | .vmor c d a b k => some (asm 0x48000001 [(c.toNat, 31), (d.toNat, 20), (a.toNat, 15), (b.toNat, 10), (k.toNat, 7)])
  | .vmxor c d a b k => some (asm 0x48000002 [(c.toNat, 31), (d.toNat, 20), (a.toNat, 15), (b.toNat, 10), (k.toNat, 7)])
  | .vmnot c d a k => some (asm 0x48000003 [(c.toNat, 31), (d.toNat, 20), (a.toNat, 15), (k.toNat, 7)])
  | .vmfirst c d a k => some (asm 0x48000004 [(c.toNat, 31), (d.toNat, 20), (a.toNat, 15), (k.toNat, 7)])
  | .vmupto c d a k => some (asm 0x48000005 [(c.toNat, 31), (d.toNat, 20), (a.toNat, 15), (k.toNat, 7)])
  | .vmpop c d a k => some (asm 0x48000006 [(c.toNat, 31), (d.toNat, 20), (a.toNat, 15), (k.toNat, 7)])
  | .vredsum c d a b k x => some (asm 0x48000007 [(c.toNat, 31), (d.toNat, 20), (a.toNat, 15), (b.toNat, 10), (k.toNat, 7), (x.toNat, 6)])
  | .vredmin c d a b k x => some (asm 0x48000008 [(c.toNat, 31), (d.toNat, 20), (a.toNat, 15), (b.toNat, 10), (k.toNat, 7), (x.toNat, 6)])
  | .vredmax c d a b k x => some (asm 0x48000009 [(c.toNat, 31), (d.toNat, 20), (a.toNat, 15), (b.toNat, 10), (k.toNat, 7), (x.toNat, 6)])
  | .vredminn c d a b k x => some (asm 0x4800000A [(c.toNat, 31), (d.toNat, 20), (a.toNat, 15), (b.toNat, 10), (k.toNat, 7), (x.toNat, 6)])
  | .vredmaxn c d a b k x => some (asm 0x4800000B [(c.toNat, 31), (d.toNat, 20), (a.toNat, 15), (b.toNat, 10), (k.toNat, 7), (x.toNat, 6)])
  | .vfredsum c d a b k x => some (asm 0x4800000C [(c.toNat, 31), (d.toNat, 20), (a.toNat, 15), (b.toNat, 10), (k.toNat, 7), (x.toNat, 6)])
  | .vfredmin c d a b k x => some (asm 0x4800000D [(c.toNat, 31), (d.toNat, 20), (a.toNat, 15), (b.toNat, 10), (k.toNat, 7), (x.toNat, 6)])
  | .vfredmax c d a b k x => some (asm 0x4800000E [(c.toNat, 31), (d.toNat, 20), (a.toNat, 15), (b.toNat, 10), (k.toNat, 7), (x.toNat, 6)])
  | .vcredsum c d a b k x => some (asm 0x4800000F [(c.toNat, 31), (d.toNat, 20), (a.toNat, 15), (b.toNat, 10), (k.toNat, 7), (x.toNat, 6)])
  | .vscan c d a k x => some (asm 0x48000010 [(c.toNat, 31), (d.toNat, 20), (a.toNat, 15), (k.toNat, 7), (x.toNat, 6)])
  | .vltrip c d a b x => some (asm 0x48000011 [(c.toNat, 31), (d.toNat, 20), (a.toNat, 15), (b.toNat, 10), (x.toNat, 6)])
  | .vlstep c d b x => some (asm 0x48000012 [(c.toNat, 31), (d.toNat, 20), (b.toNat, 10), (x.toNat, 6)])
  | .vcvt c d a t k x => some (asm 0x4A000000 [(c.toNat, 31), (d.toNat, 20), (a.toNat, 15), (t.toNat, 10), (k.toNat, 7), (x.toNat, 6)])
  | .vcvtsat c d a t k x => some (asm 0x4A000001 [(c.toNat, 31), (d.toNat, 20), (a.toNat, 15), (t.toNat, 10), (k.toNat, 7), (x.toNat, 6)])
  | .vcvtz c d a t k x => some (asm 0x4A000002 [(c.toNat, 31), (d.toNat, 20), (a.toNat, 15), (t.toNat, 10), (k.toNat, 7), (x.toNat, 6)])
  | .vquant c d a b k x => some (asm 0x4A000003 [(c.toNat, 31), (d.toNat, 20), (a.toNat, 15), (b.toNat, 10), (k.toNat, 7), (x.toNat, 6)])
  | .vdeq c d a b k x => some (asm 0x4A000004 [(c.toNat, 31), (d.toNat, 20), (a.toNat, 15), (b.toNat, 10), (k.toNat, 7), (x.toNat, 6)])
  | .vtdec c d a k x => some (asm 0x4A000005 [(c.toNat, 31), (d.toNat, 20), (a.toNat, 15), (k.toNat, 7), (x.toNat, 6)])
  | .vmv c d a k => some (asm 0x4C000000 [(c.toNat, 31), (d.toNat, 20), (a.toNat, 15), (k.toNat, 7)])
  | .vmvs c d a k => some (asm 0x4C000001 [(c.toNat, 31), (d.toNat, 20), (a.toNat, 15), (k.toNat, 7)])
  | .vext c d a b k => some (asm 0x4C000002 [(c.toNat, 31), (d.toNat, 20), (a.toNat, 15), (b.toNat, 10), (k.toNat, 7)])
  | .vins c d a b k => some (asm 0x4C000003 [(c.toNat, 31), (d.toNat, 20), (a.toNat, 15), (b.toNat, 10), (k.toNat, 7)])
  | .vid c d k => some (asm 0x4C000004 [(c.toNat, 31), (d.toNat, 20), (k.toNat, 7)])
  | .vpush c a b => some (asm 0x4C000005 [(c.toNat, 31), (a.toNat, 15), (b.toNat, 10)])
  | .vtake c d b => some (asm 0x4C000006 [(c.toNat, 31), (d.toNat, 20), (b.toNat, 10)])
  | .vpoll c d b => some (asm 0x4C000007 [(c.toNat, 31), (d.toNat, 20), (b.toNat, 10)])
  | .aclaim d a => some (asm 0x4E040000 [(d.toNat, 12), (a.toNat, 7)])
  | .arels a b => some (asm 0x4E060000 [(a.toNat, 7), (b.toNat, 2)])
  | .atile d a b => some (asm 0x4E080000 [(d.toNat, 12), (a.toNat, 7), (b.toNat, 2)])
  | .alda a b => some (asm 0x4E0A0000 [(a.toNat, 7), (b.toNat, 2)])
  | .aldb a b => some (asm 0x4E0C0000 [(a.toNat, 7), (b.toNat, 2)])
  | .amma d a b => some (asm 0x4E0E0000 [(d.toNat, 12), (a.toNat, 7), (b.toNat, 2)])
  | .ammz d a b => some (asm 0x4E100000 [(d.toNat, 12), (a.toNat, 7), (b.toNat, 2)])
  | .asmma d a b => some (asm 0x4E120000 [(d.toNat, 12), (a.toNat, 7), (b.toNat, 2)])
  | .astc d a b => some (asm 0x4E140000 [(d.toNat, 12), (a.toNat, 7), (b.toNat, 2)])
  | .azero d => some (asm 0x4E160000 [(d.toNat, 12)])
  | .haul d a b => some (asm 0x50000000 [(d.toNat, 12), (a.toNat, 7), (b.toNat, 2)])
  | .haulnb d a b => some (asm 0x50020000 [(d.toNat, 12), (a.toNat, 7), (b.toNat, 2)])
  | .hmile d a => some (asm 0x50040000 [(d.toNat, 12), (a.toNat, 7)])
  | .hwait a b => some (asm 0x50060000 [(a.toNat, 7), (b.toNat, 2)])
  | .tdef d a b => some (asm 0x50080000 [(d.toNat, 12), (a.toNat, 7), (b.toNat, 2)])
  | .tstat d a => some (asm 0x500A0000 [(d.toNat, 12), (a.toNat, 7)])
  | .tset d a b => some (asm 0x500C0000 [(d.toNat, 12), (a.toNat, 7), (b.toNat, 2)])
  | .tfree d a => some (asm 0x500E0000 [(d.toNat, 12), (a.toNat, 7)])
  | .tenc d a b => some (asm 0x52000000 [(d.toNat, 12), (a.toNat, 7), (b.toNat, 2)])
  | .twait a => some (asm 0x52020000 [(a.toNat, 7)])
  | .csub d a b => some (asm 0x54000000 [(d.toNat, 12), (a.toNat, 7), (b.toNat, 2)])
  | .cmile d => some (asm 0x54020000 [(d.toNat, 12)])
  | .cwait a => some (asm 0x54040000 [(a.toNat, 7)])
  | .fharm d a b => some (asm 0x56000000 [(d.toNat, 12), (a.toNat, 7), (b.toNat, 2)])
  | .fhsend d a b => some (asm 0x56020000 [(d.toNat, 12), (a.toNat, 7), (b.toNat, 2)])
  | .fhstat d a => some (asm 0x56040000 [(d.toNat, 12), (a.toNat, 7)])
  | .wjoin d a b => some (asm 0x58000000 [(d.toNat, 12), (a.toNat, 7), (b.toNat, 2)])
  | .wnear d a b => some (asm 0x58040000 [(d.toNat, 12), (a.toNat, 7), (b.toNat, 2)])
  | .wpub a => some (asm 0x58060000 [(a.toNat, 7)])
  | .wget d a b => some (asm 0x58080000 [(d.toNat, 12), (a.toNat, 7), (b.toNat, 2)])
  | .wtract d a => some (asm 0x580A0000 [(d.toNat, 12), (a.toNat, 7)])
  | .spawn d a => some (asm 0x5A000000 [(d.toNat, 12), (a.toNat, 7)])
  | .jdone d a => some (asm 0x5A020000 [(d.toNat, 12), (a.toNat, 7)])
  | .qpush d a b => some (asm 0x5A040000 [(d.toNat, 12), (a.toNat, 7), (b.toNat, 2)])
  | .qpop d a b => some (asm 0x5A060000 [(d.toNat, 12), (a.toNat, 7), (b.toNat, 2)])
  | .qlen d b => some (asm 0x5A080000 [(d.toNat, 12), (b.toNat, 2)])
  | .chsend d a b => some (asm 0x5A0A0000 [(d.toNat, 12), (a.toNat, 7), (b.toNat, 2)])
  | .chrecv d a b => some (asm 0x5A0C0000 [(d.toNat, 12), (a.toNat, 7), (b.toNat, 2)])
  | .chrel d => some (asm 0x5A0E0000 [(d.toNat, 12)])
  | .time d => some (asm 0x5A100000 [(d.toNat, 12)])
  | .slack d a => some (asm 0x5A120000 [(d.toNat, 12), (a.toNat, 7)])
  | .trace a b => some (asm 0x5C000000 [(a.toNat, 7), (b.toNat, 2)])
  | .cntrd d a => some (asm 0x5C020000 [(d.toNat, 12), (a.toNat, 7)])
  | .cntcfg d a b => some (asm 0x5C040000 [(d.toNat, 12), (a.toNat, 7), (b.toNat, 2)])
  | .notAnInstruction _ => none
  | .ill => some (asm 0x00000000 [])
  | .nop => some (asm 0x00000001 [])
  | .eret => some (asm 0x00000003 [])
  | .endStrand => some (asm 0x00000004 [])
  | .yield => some (asm 0x00000005 [])
  | .idle => some (asm 0x00000006 [])
  | .bkpt => some (asm 0x00000007 [])
  | .alease => some (asm 0x4E000000 [])
  | .afree => some (asm 0x4E020000 [])
  | .await => some (asm 0x4E180000 [])
  | .wleave => some (asm 0x58020000 [])
  | .doorbell => none
  | .launchRoute => none
  | .launchJob => none
  | .writePacket => none
  | .writeSignal => none
  | .abandonTree => none
  | .discardedPacket => none
  | .sliceExpiry => none
  | .lock => none
  | .fencedAcknowledge => none
  | .registerWrite => none
  | .hstatFaultClear => none
  | .cstatFaultClear => none
  | .tflagsClear => none
  | .reset => none
  | .getMeasurements => none
  | .hallmarkExtend => none
  | .twinLinkDown => none
  | .governorMeasurement => none
  | .powerExceeded => none
  | .tierRise => none
  | .junctionTemperature => none
  | .junctionCooled => none
  | .clockSwitch => none
  | .patrolScrub => none
  | .schedulerTick => none
  | .firstInstruction => none
  | .preemptionAck => none
  | .deadlineTick => none
  | .graceExpiry => none
  | .watchdogRun => none
  | .watchdogKill => none
  | .watchdogFence => none
  | .stewardEndsJob => none
  | .completion => none
  | .sys => none
  | .refill => none
  | .timeout => none
  | .req => none
  | .rsp => none
  | .retry => none
  | .migration => none
  | .lpddr6ReadReturn => none
  | .wakeNotice => none
  | .waitaTimeout => none
  | .waitaReload => none
  | .crossingRelease => none
  | .crossingTimeout => none
  | .trapDelivery => none
  | .stripStop => none
  | .convoyOpen => none
  | .convoyDrain => none
  | .imageArrival => none
  | .transferStart => none
  | .transferComplete => none
  | .haulFault => none
  | .leaseWin => none
  | .leaseIdlePass => none
  | .anvilCommandStart => none
  | .anvilCommandComplete => none
  | .tencStart => none
  | .tencComplete => none
  | .codingRequestStart => none
  | .codingRequestComplete => none
  | .codingFault => none
  | .portArrival => none
  | .uPlaneMessage => none
  | .receivedFrame => none
  | .windowOpen => none
  | .windowClose => none
  | .windowExpiry => none
  | .sendLaunch => none
  | .sendFinish => none
  | .tractMapRequest => none
  | .tractMapAnswer => none
  | .handover => none
  | .mapCopyUpdate => none
  | .tractFull => none
  | .haloUpdate => none
  | .translationInvalidation => none
  | .instructionCacheInvalidation => none
  | .fetchFault => none
  | .twinLinkUp => none
  | .postedWrite => none
  | .spdmRequest => none

/-- Why a word is not an instruction (R42, cases 1 to 5), or that the bytes do not hold a word. -/
inductive DecodeError where
  /-- fewer than four bytes -/
  | short
  /-- major 0x3F -/
  | ill
  /-- majors 0x2F to 0x3E -/
  | reservedMajor
  /-- CB = 1 outside the vector majors -/
  | convoyBit
  /-- a selector R40 does not list, or a field that must be 0 and is not -/
  | selectorOrField
deriving DecidableEq, Repr

/-- The 32-bit word stored little-endian in the first four bytes (R33, R5). -/
def wordOfBytes (b0 b1 b2 b3 : Byte) : Nat :=
  b0.toNat + b1.toNat * 2 ^ 8 + b2.toNat * 2 ^ 16 + b3.toNat * 2 ^ 24

/-- Decodes one 32-bit word, or names what is wrong with it (R42). -/
def decodeWord (w : Nat) : Except DecodeError Instr :=
  match decodeMajor (fld w 25 6) w with
  | some i => .ok i
  | none =>
    if fld w 25 6 = 63 then .error .ill
    else if 47 ≤ fld w 25 6 then .error .reservedMajor
    else if fld w 31 1 = 1 ∧ (fld w 25 6 < 28 ∨ 38 < fld w 25 6) then .error .convoyBit
    else .error .selectorOrField

/-- Decodes the instruction at the head of some bytes and gives the bytes that follow it. -/
def decode (bs : List Byte) : Except DecodeError (Instr × List Byte) :=
  match bs with
  | b0 :: b1 :: b2 :: b3 :: rest =>
    match decodeWord (wordOfBytes b0 b1 b2 b3) with
    | .ok i => .ok (i, rest)
    | .error e => .error e
  | _ => .error .short

/-- The four bytes of a word, little-endian (R33). -/
def bytesOfWord (w : Nat) : List Byte :=
  [BitVec.ofNat 8 w, BitVec.ofNat 8 (w / 2 ^ 8), BitVec.ofNat 8 (w / 2 ^ 16), BitVec.ofNat 8 (w / 2 ^ 24)]

/-- The instruction the decoder reads from a table word: every instruction is one 32-bit word, so only 32 bits make one. -/
def decodeTableWord (nbits w : Nat) : Option Instr :=
  if nbits = 32 then
    match decode (bytesOfWord w) with
    | .ok (i, _) => some i
    | .error _ => none
  else none

end Sys2Proof
end

