-- ==== Sys2Proof/Config.lean ====
section
/-! DEFINITION. What the spec leaves to the part, and the free values: constants without a value that a proof could use. -/

namespace Sys2Proof.Config

/-- Bits [3:0] of %feat0, which the part fixes (R395, log 21). -/
opaque feat0 : BitVec 4

/-- A byte whose value the spec does not state; the argument is the counter of free values (log 8). -/
opaque freeByte : Nat → Byte

/-- What the n-th event whose messages the spec does not number adds to a network counter, and what %nstall has counted by a cycle; the number of the
event or cycle, and the register's (log 2, log 20). -/
opaque uncounted : Nat → Nat → BitVec 64

/-- A job id the scheduler would like to assign (R212, log 8). -/
opaque jobId : Nat → BitVec 32

/-- How much the scheduler prefers a slot when it chooses where a crew goes: placement number, core and slot (R213, log 9). -/
opaque placement : Nat → Nat → Nat → Nat

/-- What the tables of 3GPP TS 38.212 give for a request of eight words: the parity bits of an LDPC code for its K bits, by the base graphs of clause
5.3.2; and the N inputs of the polar transform for K' bits, by the tables of clause 5.3.1 (R354, log 10). -/
opaque ldpcParity : List W64 → List Bool → List Bool
opaque polarInput : List W64 → List Bool → List Bool

/-- The K' bits that a decoder finds from soft values: of each position the bit it favours, and how strongly, or none where it is certain (R354, R356,
log 10). -/
opaque codingDecode : List W64 → List (Bool × Option Nat) → List Bool

/-- CRCOK of an encode that names a CRC, which no rule states (R361, log 10). -/
opaque codingCrcok : List W64 → Bool

/-- Whether an LDPC decode meets every parity check, and at which iteration it first does (R361, log 10). -/
opaque codingParity : List W64 → List (Bool × Option Nat) → Bool
opaque codingIters : List W64 → List (Bool × Option Nat) → Nat

/-- The ROM's own digest (R398, log 11). -/
opaque romDigest : BitVec 512

/-- The device's answer to an SPDM request other than GET_MEASUREMENTS (R399, log 11). -/
opaque spdmAnswer : List Byte → List (BitVec 512)

/-- The bytes of a U-plane message beside its PRBs, which the spec does not give (R349, log 29). -/
opaque uplaneHeader : Nat

/-- Which line a full home cache or L2 slice gives up, by its place among those it holds (R15, R16, log 49). -/
opaque victim : Nat → Nat

/-- The length in bytes of a migrating strand's state as a message (R120, log 20). -/
opaque stateWords : Nat → List W64

/-- How many cycles an access takes whose latency the spec gives no value, by the cycle it is issued in (R49, R417, log 2). -/
opaque latency : Nat → Nat

/-- Which of two outcomes the spec permits comes about: the order of an anvil command's flags against a CR write (R145), and the
like. -/
opaque choice : Nat → Bool

end Sys2Proof.Config
end

