-- ==== Sys2Proof/Machine/Sparse.lean ====
section
/-! DEFINITION. Data held by key in one canonical form: the keys rise strictly, and bytes and words list no default. -/

namespace Sys2Proof.Machine

/-- What is held at a key; d where nothing is. -/
def Sparse.get (d : α) : Sparse α → Nat → α
  | [], _ => d
  | (j, x) :: m, k => if j = k then x else Sparse.get d m k

/-- The data without a key. -/
def Sparse.erase : Sparse α → Nat → Sparse α
  | [], _ => []
  | (j, x) :: m, k => if j = k then Sparse.erase m k else (j, x) :: Sparse.erase m k

/-- The data with an entry added before the first larger key. -/
def Sparse.insert : Sparse α → Nat → α → Sparse α
  | [], k, v => [(k, v)]
  | (j, x) :: m, k, v => if k < j then (k, v) :: (j, x) :: m else (j, x) :: Sparse.insert m k v

/-- Holds v at a key. -/
def Sparse.put (m : Sparse α) (k : Nat) (v : α) : Sparse α := Sparse.insert (Sparse.erase m k) k v

/-- Holds v at a key, listing nothing for the default. -/
def Sparse.set [DecidableEq α] (d : α) (m : Sparse α) (k : Nat) (v : α) : Sparse α :=
  if v = d then Sparse.erase m k else Sparse.insert (Sparse.erase m k) k v

/-- Whether a key is listed. -/
def Sparse.has (m : Sparse α) (k : Nat) : Bool := m.any fun p => p.1 == k

/-- The canonical form: the keys rise strictly. -/
def Sparse.rising : Sparse α → Bool
  | [] => true
  | [_] => true
  | (j, _) :: (k, y) :: m => decide (j < k) && Sparse.rising ((k, y) :: m)

/-- What keys at or above lo and below hi hold. -/
def Sparse.between (m : Sparse α) (lo hi : Nat) : Sparse α := m.filter fun p => decide (lo ≤ p.1) && decide (p.1 < hi)

/-- The data without the keys at or above lo and below hi. -/
def Sparse.without (m : Sparse α) (lo hi : Nat) : Sparse α := m.filter fun p => !(decide (lo ≤ p.1) && decide (p.1 < hi))

/-- The canonical form of a memory (log 1): rising addresses, and no byte listed that an unlisted address reads as. -/
def Memory.wf (m : Sparse Byte) : Bool := Sparse.rising m && m.all fun p => p.2 != 0

/-- Adds entries of one listing to another. -/
def Sparse.merge [DecidableEq α] (d : α) (m more : Sparse α) : Sparse α := more.foldl (fun m p => Sparse.set d m p.1 p.2) m

end Sys2Proof.Machine
end

