-- ==== Sys2Proof/Machine/State.lean ====
section
/-! DEFINITION. The state of the whole device, as plain data: memory, contexts, cores, clusters, the scheduler, the mesh and the host
side; the faults and refusals; the state after reset. -/

namespace Sys2Proof.Machine

/-! ### Traps (R192) -/

/-- The trap causes of R192, in the order of their codes. -/
inductive Cause where
  | service | illegal | priv | brk | tileEmpty | misalign | page | prot | watch | numeric
  | slot | queue | coord | tractFull | haul | code | deadline | watchdog
deriving DecidableEq, Repr, Inhabited

/-! ### Loops (R133, R160) -/

inductive LoopKind where
  | counted | masked | staged
deriving DecidableEq, Repr, Inhabited

/-- The settings LSTR, LMASK and LSTG leave for the next loop instruction (R160). -/
structure LoopSettings where
  /-- target register and stride, oldest first, at most two -/
  binds : List (BitVec 5 × W64) := []
  first : BitVec 16 := 0
  last : BitVec 16 := 0
  tags : BitVec 48 := 0
deriving DecidableEq, Repr, Inhabited

/-- One active level (R133). -/
structure Level where
  kind : LoopKind := .counted
  /-- trip count; 0 for a LOOPM -/
  n : W64 := 0
  /-- pass index -/
  p : W64 := 0
  start : VA := 0
  stop : VA := 0
  /-- stage count S of a LOOPS -/
  stages : Nat := 1
  /-- mask register of a LOOPM -/
  mreg : Nat := 0
  set : LoopSettings := {}
  /-- innermost by construction (R159) -/
  inner : Bool := true
  /-- the mask of a LOOPM has been read for the pass at hand (R138) -/
  checked : Bool := true
  /-- the loop buffer: the words fetched so far, by body position (R135) -/
  words : Sparse W32 := []
deriving DecidableEq, Repr, Inhabited

/-! ### The vector sequencer (R130) -/

inductive IntOp where
  | add | sub | mul | mulh | mulhn | min | max | minn | maxn | and | or | xor | shl | shr | sra
  | sadd | saddn | ssub | ssubn | wadd | wmul | wmac | nshr | dot4 | cmpeq | cmplt | cmpltn
deriving DecidableEq, Repr, Inhabited

inductive FpOp where
  | add | sub | mul | ma | nma | div | sqrt | rcp | rsq | min | max | minp | maxp | abs | neg
  | cmpeq | cmplt | cmple | cls
deriving DecidableEq, Repr, Inhabited

inductive CxOp where
  | mul | mac | macj | conj | abs2 | rot | scl | inv2 | gjp
deriving DecidableEq, Repr, Inhabited

inductive XOp where
  | perm | slup | sldn | rev | pack | zip | unzip
deriving DecidableEq, Repr, Inhabited

inductive DistOp where
  | xch | bfly | ibfly | plan
deriving DecidableEq, Repr, Inhabited

inductive MaskOp where
  | mand | mor | mxor | mnot | first | upto | pop
deriving DecidableEq, Repr, Inhabited

inductive RedOp where
  | sum | min | max | minn | maxn | fsum | fmin | fmax | csum
deriving DecidableEq, Repr, Inhabited

inductive CvtOp where
  | cvt | sat | trunc | quant | deq | tdec
deriving DecidableEq, Repr, Inhabited

inductive MovOp where
  | mv | mvs | ext | ins | id | push | take | poll
deriving DecidableEq, Repr, Inhabited

/-- The modes of the VM format (R39). -/
inductive VMode where
  | unit | strided | indexed | faultFirst | segment | tile | lane
deriving DecidableEq, Repr, Inhabited

/-- What a vector instruction does, apart from its registers. -/
inductive VOp where
  | vset (code : Nat)
  /-- a word that refuses the convoy it joins: a VSET with CB = 0 (R46), or a word of 18_vector_arith with an unused field not 0 (R260) -/
  | refused
  | load (m : VMode)
  | store (m : VMode)
  | int (o : IntOp)
  | fp (o : FpOp)
  | cx (o : CxOp)
  | vx (o : XOp)
  | dist (o : DistOp)
  | mask (o : MaskOp)
  | red (o : RedOp)
  | scan
  | ltrip
  | lstep
  | cvt (o : CvtOp)
  | mov (o : MovOp)
deriving DecidableEq, Repr, Inhabited

/-- A vector instruction as the sequencer holds it: the operation and its fields, with the vector registers it names after rotation
(R137). -/
structure Member where
  op : VOp := .mov .mv
  /-- CB -/
  cb : Bool := true
  d : Nat := 0
  a : Nat := 0
  b : Nat := 0
  emask : Nat := 0
  x : Bool := false
  /-- exchange distance exponent of VDIST -/
  ld : Nat := 0
  /-- ordering class of a memory member -/
  cls : Nat := 0
deriving DecidableEq, Repr, Inhabited

/-- The control registers a queued instruction keeps as they stood at its place (R146, R260). -/
structure VSettings where
  round : Nat := 0
  fen : BitVec 8 := 0
  vfill : W64 := 0
  sngthr : W32 := 0
  sngreg : W32 := 0
  vqfmt : Nat := 17
  tlen : Nat := 12
  tadv : Nat := 1
  /-- VL and type as the scalar pipe last set them, for the byte ranges of R131 -/
  vl : Nat := 0
  ty : Nat := 0
deriving DecidableEq, Repr, Inhabited

/-- One entry of the queue: the instruction, its address and the g values read at scalar issue (R130). -/
structure Entry where
  word : W32 := 0
  pc : VA := 0
  m : Member := {}
  /-- whether it opens a convoy: CB = 1, or reopened by ERET (R47) -/
  opens : Bool := true
  g1 : W64 := 0
  g2 : W64 := 0
  set : VSettings := {}
  /-- expanded from a handed level, which holds its queue entries (R139) -/
  lvl : Bool := false
  /-- of a VSET: what g[d] held before it, which a refused convoy leaves unchanged (R46) -/
  old : W64 := 0
deriving DecidableEq, Repr, Inhabited

/-- A convoy that has opened and not drained (R130): its entries stand at the head of the queue. -/
structure Running where
  n : Nat := 0
  /-- what its synchronising member writes: destination and value -/
  g : Option (Nat × W64) := none
  /-- the vector length a VLDFF leaves (R253) -/
  vl : Option Nat := none
  /-- the image a VPUSH sends when the convoy drains: peer and bytes (R293) -/
  push : Option (Nat × List Byte) := none
deriving DecidableEq, Repr, Inhabited

/-- A level handed to the vector sequencer (R139). -/
structure SeqLevel where
  lvl : Level := {}
  /-- passes of a LOOP or LOOPS -/
  passes : Nat := 0
  /-- the rotation base of pass 0 -/
  rb0 : Nat := 0
  /-- the body, with the g registers each member reads named beside it: first and second, 32 for none -/
  body : List (Entry × Nat × Nat) := []
deriving DecidableEq, Repr, Inhabited

/-- What stands in the queue. -/
inductive QItem where
  | entry (e : Entry)
  | level (l : SeqLevel)
deriving DecidableEq, Repr, Inhabited

/-! ### Contexts (R126) -/

/-- Why a context does not issue (R128). -/
inductive Hold where
  | ready
  /-- placed, and its first instruction not yet due (R216) -/
  | placed
  /-- a trap on it is pending or being serviced -/
  | trapped
  | idle
  /-- WAITA is parked -/
  | waita
  /-- CROSS or CROSSW waits on a phase -/
  | cross
  /-- a queue operation is held at the scheduler -/
  | queue
  /-- a channel operation is held -/
  | channel
  /-- JDONE is held -/
  | jdone
  /-- a synchronising vector instruction drains (R48) -/
  | vsync
  /-- migrating to a core and slot (R140) -/
  | migrate (dest : Nat)
  /-- a coordinate write, or a WJOIN, is held until its migration is answered (R370, R376) -/
  | coord
  /-- stopped at a pre-emption point (R203) -/
  | stopped
  /-- a steward whose firmware has not been started -/
  | asleep
deriving DecidableEq, Repr, Inhabited

/-- A coordinate write that waits for its migration (R370), or the entry of a WJOIN (R376). -/
structure CoordWrite where
  join : Bool := false
  /-- destination register and its value -/
  d : Nat := 0
  v : W64 := 0
  /-- the coordinate registers -/
  xreg : Nat := 0
  yreg : Nat := 0
  x : Nat := 0
  y : Nat := 0
  /-- the unit has admitted it -/
  admitted : Bool := false
  /-- the unit has answered once -/
  answered : Bool := false
deriving DecidableEq, Repr, Inhabited

/-- A result that is not available yet (R128, R50): its register, the cycle it comes in, the word that makes it, and whether a hold on it is
charged (R387). -/
structure Late where
  reg : Nat := 0
  at_ : Nat := 0
  pc : VA := 0
  charged : Bool := false
  /-- of a load through the twin window, what it returns if the link goes down (R394) -/
  ones : Option W64 := none
deriving DecidableEq, Repr, Inhabited

/-- The state of one strand, or of a steward context (R126, R248, R316, R332, R367). -/
structure Ctx where
  pc : VA := 0
  g : Sparse W64 := []
  /-- registers last written by a synchronising instruction (R48) -/
  syncRegs : List Nat := []
  /-- results still on their way to a register (R128) -/
  late : List Late := []
  /-- active levels, innermost first -/
  levels : List Level := []
  pending : LoopSettings := {}
  /-- rotation base -/
  rb : BitVec 4 := 0
  /-- per-strand control registers, by number -/
  cr : Sparse W64 := []
  /-- byte b of v(n) at 2048 n + b -/
  vreg : Sparse Byte := []
  /-- LEN of each vector register -/
  len : Sparse Nat := []
  /-- byte b of m(n) at 1024 n + b -/
  mreg : Sparse Byte := []
  /-- %astat.ERR: an uncorrectable error struck a command (R325) -/
  anvilErr : Bool := false
  /-- ATILE shape -/
  tileM : Nat := 0
  tileN : Nat := 0
  tileK : Nat := 0
  /-- the vector sequencer queue, oldest first -/
  queue : List QItem := []
  /-- a convoy is open at the tail of the queue (R44) -/
  open_ : Bool := false
  running : Option Running := none
  /-- the granted VL of the VSET that retired last, which names the strip (R252) -/
  grant : Nat := 0
  /-- it forgoes its next turn after a taken branch (R128) -/
  forgoes : Bool := false
  /-- YIELD retired, and these strands of its core have issued since (R189) -/
  yielded : Option (List Nat) := none
  /-- a spurious wake notice has come: its WAITA takes an issue slot and parks again (R210) -/
  recheck : Bool := false
  /-- what a hold that R387 charges waits on: the producer's word, and whether the hold has been counted -/
  stall : Option (Nat × Bool) := none
  /-- the migration predictor (R94) -/
  predN : Nat := 0
  predHome : Nat := 0
  hold : Hold := .ready
  /-- the last step ended a pass of the innermost level, or left an instruction held: a pre-emption point (R203) -/
  atPoint : Bool := true
  /-- the instruction at pc was held: it executes again from its first step (R128) -/
  again : Bool := false
  /-- the instruction at pc has issued and waits: going on, it takes no further slot (R207) -/
  waited : Bool := false
  /-- the word of the last break-bit BREAK, and whether the word at pc issues past its break bit (R385) -/
  breakAt : Option VA := none
  pastBreak : Bool := false
  /-- ERET returned to the word at pc: with CB = 0 it reopens its convoy (R47) -/
  reopen : Bool := false
  /-- the phase a CROSS or CROSSW waits on, and its word (R185) -/
  crossPhase : Option (BitVec 32 × VA) := none
  /-- the hold of the instruction at pc has timed out (R184) -/
  expired : Bool := false
  /-- the cycle from which the time-out of the present hold counts (R178, R184, R236, R371) -/
  since : Nat := 0
  coordWrite : Option CoordWrite := none
  /-- a hand-over waits for a pre-emption point, once the core's copy of the map is the one numbered here (R372, R381) -/
  handover : Option Nat := none
  /-- notices not yet delivered (R194) -/
  notices : List Cause := []
  /-- the queue a vector trap captured, and the settings of R146 as they stood then (R132, log 24) -/
  captured : List QItem := []
  trapSet : VSettings := {}
  /-- core * 16 + slot where it runs -/
  here : Nat := 0
  job : Nat := 0
  rank : Nat := 0
  vec : Bool := false
deriving DecidableEq, Repr, Inhabited

/-- The accumulators acc0 and acc1 of a core (R314). -/
structure Accs where
  /-- run and wide values of element (i, j) of acc t at (t·32 + i)·32 + j (R74, R76) -/
  run : Sparse Nat := []
  wide : Sparse Nat := []
  /-- passes since the last promotion, and the path tag, of each -/
  count : Sparse Nat := []
  tag : Sparse Nat := []
deriving DecidableEq, Repr, Inhabited

/-- A trap raised and not yet delivered (R196). -/
structure PendingTrap where
  key : Nat := 0
  cause : Cause := .illegal
  fetch : Bool := false
  tval : W64 := 0
  tepc : VA := 0
  /-- a vector trap's restart point and captured queue (R132) -/
  vec : Bool := false
  tvpc : VA := 0
  queue : List QItem := []
deriving DecidableEq, Repr, Inhabited

/-- A cached translation (R103): the root it was walked from, the level of its leaf, the address bits it covers, and the entry. -/
structure TlbEntry where
  root : Nat := 0
  level : Nat := 0
  tag : Nat := 0
  pte : Nat := 0
  /-- where the leaf's entry stands -/
  at_ : Nat := 0
deriving DecidableEq, Repr, Inhabited

/-- A watchpoint: a range of virtual addresses and the accesses it watches (R202). -/
structure Watch where
  lo : Nat := 0
  hi : Nat := 0
  rd : Bool := true
  wr : Bool := true
deriving DecidableEq, Repr, Inhabited

/-! ### The inbox (R292, R293) -/

structure Image where
  src : Nat := 0
  /-- the job whose vector strand it is for (R293) -/
  job : Nat := 0
  bytes : List Byte := []
deriving DecidableEq, Repr, Inhabited

/-! ### Jobs (R211 to R226) -/

inductive JobState where
  | queued | running | preempted | cutting | completing | finished
deriving DecidableEq, Repr, Inhabited

/-- The completion status of R215. -/
inductive Status where
  | done | abandonedUnstarted | abandonedCut | faulted | killed
deriving DecidableEq, Repr, Inhabited

/-- What PREEMPTED keeps of one strand, and of the memory that the pre-empting work may use (R204). -/
structure Saved where
  key : Nat := 0
  ctx : Ctx := {}
  /-- it held or asked for the anvil lease -/
  lease : Bool := false
  /-- its private area, and its core's lane-private slices and accumulators, once other work has taken them -/
  priv : Option (List Byte) := none
  lanes : Option (List Byte) := none
  acc : Accs := {}
  /-- where its save record stands in the steward's address space, if all of it could be written (R205) -/
  record : Option Nat := none
  inbox : List Image := []
  /-- who asks for the slots of that inbox (R293) -/
  reserved : List Nat := []
deriving DecidableEq, Repr, Inhabited

/-- A job the scheduler holds: its copy of the record and what becomes of it. -/
structure Job where
  id : Nat := 0
  record : JobRecord := default
  tree : Nat := 0
  parent : Nat := 0
  /-- its parent, its parent's parent and so on (R222) -/
  ancestors : List Nat := []
  /-- launched by the host (R31) -/
  hosted : Bool := false
  /-- translation root (R419) -/
  root : W64 := 0
  /-- the core of each rank under LIST, read at acceptance -/
  list : List Nat := []
  /-- acceptance order -/
  order : Nat := 0
  state : JobState := .queued
  status : Status := .done
  /-- the origin of each rank's strand -/
  places : List Nat := []
  /-- strands whose END has not retired -/
  live : List Nat := []
  saved : List Saved := []
  /-- crossing channel number, phase and arrivals (R182) -/
  channel : Option Nat := none
  phase : BitVec 32 := 0
  arrived : List Nat := []
  /-- when each arrival of the phase was made, in cycles (R207) -/
  arrivedAt : Sparse Nat := []
  /-- route run and stage -/
  stage : Option (Nat × Nat) := none
  /-- a DEADLINE notice was raised: the time at which grace ends -/
  graceEnd : Option Nat := none
  /-- its deadline has acted -/
  acted : Bool := false
  /-- a pre-emption request stands, and the cycle it was made in (R194, R203) -/
  preempt : Bool := false
  preemptAt : Nat := 0
  /-- running time in ns so far, and the time the pre-emption request of the watchdog was made -/
  ranFor : Nat := 0
  runAsked : Option Nat := none
  /-- it is to be cut once every stage downstream has finished (R226) -/
  cutWanted : Bool := false
  /-- when the cut began -/
  cutAt : Option Nat := none
  /-- an uncorrectable error struck one of its anvil commands: it ends FAULTED (R325) -/
  struck : Bool := false
  /-- the job is a fallback job (R223) -/
  fallback : Bool := false
  /-- not to be considered before this time (R220) -/
  notBefore : Nat := 0
  /-- an abandoned job with children: words are written leaves first (R222) -/
  waitsFor : List Nat := []
  /-- completion values retained for JDONE: child and value (R233) -/
  retained : List (Nat × W64) := []
deriving DecidableEq, Repr, Inhabited

/-- One channel between two stages (R238). -/
structure Channel where
  allowance : Nat := 1
  records : List (List Byte) := []
  /-- records taken and not released -/
  taken : Nat := 0
deriving DecidableEq, Repr, Inhabited

/-- A launched route (R225, R226). -/
structure RouteRun where
  id : Nat := 0
  stages : List Nat := []
  statuses : List (Option Status) := []
  channels : List Channel := []
  caddr : Nat := 0
  scope : Nat := 0
  root : W64 := 0
deriving DecidableEq, Repr, Inhabited

/-- An operation held at the scheduler (R236, R239, R233). -/
structure HeldOp where
  key : Nat := 0
  /-- 0 QPUSH, 1 QPOP, 2 CHSEND, 3 CHRECV, 4 JDONE -/
  kind : Nat := 0
  /-- destination g register -/
  d : Nat := 0
  /-- where its record is read or written, as the strand translated it -/
  loc : Nat := 0
  record : List Byte := []
  /-- the child a JDONE waits for -/
  child : Nat := 0
  /-- a QPOP whose record is in the ring: it waits for the refill and not for a record (R235, R244) -/
  sure : Bool := false
deriving DecidableEq, Repr, Inhabited

/-- A hardware queue (R234, R235). -/
structure HwQueue where
  chip : List (List Byte) := []
  ring : List (List Byte) := []
  /-- index of the ring's oldest record -/
  head : Nat := 0
  held : List HeldOp := []
deriving DecidableEq, Repr, Inhabited

/-! ### Tiles and the haul engine (R295 to R303) -/

inductive TileState where
  | empty | filling | ready | draining
deriving DecidableEq, Repr, Inhabited

/-- One defined entry of a tile table (R295). OWNER: 0 none, 1 haul, 2 port, 3 anvil, 4 coding engine, 5 trellis encoder. -/
structure Tile where
  off : Nat := 0
  len : Nat := 0
  state : TileState := .empty
  owner : Nat := 0
  arr : Nat := 0
  job : Nat := 0
  /-- the instruction that started its fill or drain (R387) -/
  by_ : Nat := 0
deriving DecidableEq, Repr, Inhabited

inductive XferState where
  | waiting | inFlight | finished | faulted | discarded
deriving DecidableEq, Repr, Inhabited

/-- One haul command, from its HAUL until the milestone has passed it (R297, R298). -/
structure Xfer where
  chan : Nat := 0
  id : Nat := 0
  addr : VA := 0
  /-- the HAUL or HAULNB word -/
  pc : Nat := 0
  key : Nat := 0
  job : Nat := 0
  root : W64 := 0
  state : XferState := .waiting
  /-- the request as the engine read it: address, tile, length, tile offset, class, direction -/
  mem : Nat := 0
  tile : Nat := 0
  len : Nat := 0
  toff : Nat := 0
  cls : Nat := 0
  drain : Bool := false
  /-- its start moved its tile (R296) -/
  holds : Bool := false
  /-- a fault found and not yet recorded (R301) -/
  code : Nat := 0
  /-- the memory side as the start translated it: locations and lengths in order (R104) -/
  spans : List (Nat × Nat) := []
  /-- the twin link went down while it was in flight through the window (R394) -/
  severed : Bool := false
deriving DecidableEq, Repr, Inhabited

/-- One channel of a haul engine (R298, R300, R303). -/
structure HaulChan where
  next : Nat := 0
  fault : Bool := false
  code : Nat := 0
  fid : Nat := 0
deriving DecidableEq, Repr, Inhabited

/-! ### The anvil (R310 to R325) -/

inductive AnvilOp where
  | lda | ldb | mma | mmz | smma | stc | zero
deriving DecidableEq, Repr, Inhabited

/-- One command of a strand's list, with what it read at issue (R310, R146). -/
structure AnvilCmd where
  op : AnvilOp := .zero
  key : Nat := 0
  /-- accumulator, slots, tile and offset, type -/
  acc : Nat := 0
  sa : Nat := 0
  sb : Nat := 0
  tile : Nat := 0
  off : Nat := 0
  ty : Nat := 0
  /-- format register, side table offset, promotion exponent and shape at its place -/
  fmt : Nat := 0
  mx : Bool := false
  sparse : Bool := false
  side : Nat := 0
  promo : Nat := 2
  m : Nat := 0
  n : Nat := 0
  k : Nat := 0
  tlen : Nat := 12
  tadv : Nat := 1
  /-- formats and MX bits of the pair at issue -/
  fa : Nat := 0
  fb : Nat := 0
  mxa : Bool := false
  mxb : Bool := false
  /-- the tags of the A and B slots, one after another, as they stood at issue (R310, R318) -/
  ta : List (Nat × Bool × Bool) := []
  tb : List (Nat × Bool × Bool) := []
  started : Bool := false
  /-- once it has started, the cycle of its start and its class: what started commands complete by (R324) -/
  endsAt : Nat := 0
  /-- flags it raised, ORed into %flags at completion (R77) -/
  flags : BitVec 8 := 0
deriving DecidableEq, Repr, Inhabited

/-- An operand slot's owner and tag (R313): format, MX and SPARSE, none for NONE. -/
structure OperandSlot where
  owner : Nat := 0
  /-- the owner's job: a pre-empted strand keeps its slots while another of its origin runs (R204) -/
  job : Nat := 0
  tag : Option (Nat × Bool × Bool) := none
deriving DecidableEq, Repr, Inhabited

/-- A TENC command (R336, R337). -/
structure TencCmd where
  key : Nat := 0
  core : Nat := 0
  job : Nat := 0
  id : Nat := 0
  scale : Nat := 0
  src : Nat := 0
  soff : Nat := 0
  bf : Bool := false
  nseg : Nat := 0
  dst : Nat := 0
  doff : Nat := 0
  tlen : Nat := 12
  tadv : Nat := 1
  started : Bool := false
deriving DecidableEq, Repr, Inhabited

/-- A cluster: lease, operand slots and encoder (R14, R311, R313, R337). -/
structure Cluster where
  /-- the strand that holds the lease -/
  holder : Option Nat := none
  /-- standing requests, in order of entry -/
  requests : List Nat := []
  /-- core index of the last holder -/
  last : Nat := 7
  /-- commands issued under the lease -/
  used : Nat := 0
  /-- the holder gave the lease up, or must pass it on, once its commands have started -/
  passing : Bool := false
  /-- the cycle from which the holder counts as idle (R311) -/
  idleSince : Nat := 0
  slots : Sparse (Option OperandSlot) := []
  /-- byte b of slot s at 4096 s + b -/
  data : Sparse Byte := []
  /-- the encoder's queue, oldest first, the command in progress included -/
  tenc : List TencCmd := []
deriving DecidableEq, Repr, Inhabited

/-! ### Coding engines (R355 to R363) -/

/-- A coding request (R355), with the words of its block. -/
structure CodeReq where
  key : Nat := 0
  core : Nat := 0
  job : Nat := 0
  root : W64 := 0
  id : Nat := 0
  words : List W64 := []
  started : Bool := false
deriving DecidableEq, Repr, Inhabited

/-! ### Fronthaul (R345 to R352) -/

inductive FhState where
  | armed | opened | closed | queued | sending | sent
deriving DecidableEq, Repr, Inhabited

/-- A window or a send (R345, R346, R349). -/
structure FhItem where
  core : Nat := 0
  key : Nat := 0
  job : Nat := 0
  handle : Nat := 0
  isSend : Bool := false
  words : List W64 := []
  tile : Nat := 0
  state : FhState := .armed
  late : Bool := false
  /-- has reached its port -/
  arrived : Bool := false
  /-- slots that have arrived (R347) -/
  slots : List Nat := []
  /-- bytes a send has sent -/
  sent : Nat := 0
  /-- when a window closed, and when a send began to leave -/
  closedAt : Nat := 0
  launchedAt : Nat := 0
  /-- a window is no longer matchable -/
  gone : Bool := false
  /-- order of arming on the device -/
  order : Nat := 0
deriving DecidableEq, Repr, Inhabited

/-! ### Wayfarers (R365 to R374) -/

/-- The tract map (R365): column boundaries, and row boundary i of column c at 17 c + i. -/
structure TractMap where
  xb : List Nat := []
  yb : List Nat := []
deriving DecidableEq, Repr, Inhabited

/-- A wayfarer's record (R368). -/
structure WayRecord where
  key : Nat := 0
  job : Nat := 0
  x : Nat := 0
  y : Nat := 0
  u1 : W64 := 0
  u2 : W64 := 0
  u3 : W64 := 0
  /-- the cores whose halo the host has sent it to, or keeps it in (R373) -/
  copies : List Nat := []
deriving DecidableEq, Repr, Inhabited

/-- A change of a record on its way to a halo (R373): the record, or its removal. -/
structure HaloMsg where
  src : Nat := 0
  dst : Nat := 0
  record : WayRecord := {}
  remove : Bool := false
deriving DecidableEq, Repr, Inhabited

/-- A request at the tract map unit (R371, R376). -/
structure TractReq where
  key : Nat := 0
  x : Nat := 0
  y : Nat := 0
  /-- the cycle in which it reaches the unit (R381) -/
  at_ : Nat := 0
deriving DecidableEq, Repr, Inhabited

/-! ### The mesh (R117 to R125) -/

inductive MsgClass where
  | req | rsp | msg | sys
deriving DecidableEq, Repr, Inhabited

/-- What a message carries (R118). -/
inductive MsgKind where
  /-- an access, its reply, and what the scheduler and the stewards send each other -/
  | plain
  /-- a command to an engine: no reply -/
  | command
  /-- an L2 slice's read of a line from its LPDDR-6 channel -/
  | line
  | image
  | halo
  /-- the state of a migrating strand -/
  | state
  /-- a RETRY (R123) -/
  | retry
  /-- a notice of a lost twin link (R394) -/
  | twin
deriving DecidableEq, Repr, Inhabited

/-- A reader that an L2 reply names: its core, and the TAG and strand of its request (R124). -/
structure Reader where
  core : Nat := 0
  tag : Nat := 0
  key : Option Nat := none
deriving DecidableEq, Repr, Inhabited

/-- A message in flight: its header and, for MSG, its payload words (R117, R121). -/
structure Message where
  cls : MsgClass := .req
  kind : MsgKind := .plain
  src : Nat := 0
  dst : Nat := 0
  len : Nat := 0
  compressed : Bool := false
  rst : Bool := false
  tag : Nat := 0
  words : List W64 := []
  /-- payload bytes of a MSG before compression -/
  raw : Nat := 0
  /-- of a request: the location, whether it writes, and of a write-back the bytes of its line that it carries (R97) -/
  loc : Nat := 0
  wr : Bool := false
  mask : Nat := 0
  /-- the strand whose access or state it is -/
  key : Option Nat := none
  /-- of an L2 reply: every reader it names (R124) -/
  readers : List Reader := []
deriving DecidableEq, Repr, Inhabited

/-- The requests for a 256-byte line that wait for one LPDDR-6 read (R97, R124). -/
structure MergeWindow where
  line : Nat := 0
  /-- the requests registered, which one multicast answers -/
  readers : List Message := []
  /-- later readers may still register -/
  joins : Bool := true
  /-- later requests, served as hits once the data returns -/
  held : List Message := []
deriving DecidableEq, Repr, Inhabited

/-- The dictionary of one ordered pair of cores (R121), both copies, and whether the next message carries RST (R123). -/
structure PairDict where
  sender : List W64 := List.replicate 8 0
  sendP : Nat := 0
  receiver : List W64 := List.replicate 8 0
  recvP : Nat := 0
  rst : Bool := false
  /-- the receiver discards until a message with RST -/
  discarding : Bool := false
deriving DecidableEq, Repr, Inhabited

/-! ### Debug (R383, R388) -/

structure StallEntry where
  ppc : Nat := 0
  cpc : Nat := 0
  lost : Nat := 0
  maxlag : Nat := 0
  count : Nat := 0
  job : Nat := 0
deriving DecidableEq, Repr, Inhabited

/-- A parked WAITA (R177 to R181). -/
structure Park where
  key : Nat := 0
  loc : Nat := 0
  /-- value it waits to differ from, value last read, and destination -/
  cmp : W64 := 0
  seen : W64 := 0
  d : Nat := 0
deriving DecidableEq, Repr, Inhabited

/-- A 32-byte line of a home cache, and the mask of the bytes written since it came (R92, R97). -/
structure HomeLine where
  line : Nat := 0
  mask : Nat := 0
deriving DecidableEq, Repr, Inhabited

/-- The state of one core beside its strands (R15, R195, R197, R295, R344, R367, R383). -/
structure Core where
  /-- the steward services a trap, and the traps waiting for it (R196) -/
  servicing : Bool := false
  traps : List PendingTrap := []
  /-- steward-only and per-core control registers, by number -/
  cr : Sparse W64 := []
  /-- flits injected, %nflit (R125) -/
  nflit : W64 := 0
  /-- events so far whose messages the spec does not number (log 20), and how many there were when a counter was last written -/
  unseen : Nat := 0
  unseenAt : Sparse Nat := []
  /-- the home cache (R15, R92) -/
  home : List HomeLine := []
  fenced : Bool := false
  /-- the slot that issued last, and the steward's issues in the current window (R128, R129) -/
  lastSlot : Nat := 15
  stUsed : Nat := 0
  /-- it has issued an instruction in the cycle at hand (R384, R387) -/
  issued : Bool := false
  tlb : List TlbEntry := []
  watch : List Watch := []
  /-- addresses of words whose break bit the instruction cache holds, and lines filled (R385) -/
  breaks : List Nat := []
  lines : List Nat := []
  /-- the job each slot last held a strand of (R87) -/
  slotJob : Sparse Nat := []
  tiles : Sparse (Option Tile) := []
  chans : Sparse HaulChan := []
  xfers : List Xfer := []
  /-- commands of the vector strand's list (R310) -/
  anvil : List AnvilCmd := []
  acc : Accs := {}
  /-- TENC ids: next, and finished above the milestone -/
  tencNext : Nat := 0
  tencOpen : List Nat := []
  tflags : BitVec 2 := 0
  /-- coding ids -/
  codeNext : Nat := 0
  codeOpen : List Nat := []
  codeFault : Bool := false
  codeCode : Nat := 0
  codeFid : Nat := 0
  /-- the job whose request faulted -/
  codeJob : Nat := 0
  codeDiscard : List Nat := []
  /-- strand and job of each request that has ended in a fault and does not count as complete yet (R363, R364) -/
  codeStuck : List (Nat × Nat) := []
  fhNext : Nat := 0
  fh : List FhItem := []
  records : List WayRecord := []
  halo : List WayRecord := []
  /-- records dropped because the halo was full: strand and job (R373) -/
  lost : List (Nat × Nat) := []
  /-- the copy of the map, which of the unit's maps it is, and the count %wtract shows until a hand-over's map reaches the core (R372, R381) -/
  map : TractMap := {}
  mapVersion : Nat := 0
  shown : Option Nat := none
  inbox : List Image := []
  /-- images on their way (R293) -/
  arriving : List Image := []
  /-- source cores whose VPUSH asks for a slot, in order of arrival: the first ones hold the free slots (R293) -/
  reserved : List Nat := []
  stalls : List (Option StallEntry) := List.replicate 16 none
  /-- order of update of the stall entries, least recent first -/
  stallOrder : List Nat := []
  /-- cycle of the last strip record of each strand (R389) -/
  stripAt : Sparse Nat := []
deriving DecidableEq, Repr, Inhabited

/-- A frame handed to the steward, with its hardware timestamp (R342). -/
structure RxFrame where
  port : Nat := 0
  half : Nat := 0
  stamp : Nat := 0
  bytes : List Byte := []
deriving DecidableEq, Repr, Inhabited

/-- What a U-plane message says of its section: where its PRBs are from, and its ecpriSeqId (R345, R349). -/
structure SentSection where
  seq : Nat := 0
  eaxc : Nat := 0
  frame : Nat := 0
  subf : Nat := 0
  slot : Nat := 0
  sym : Nat := 0
  prb0 : Nat := 0
  nprb : Nat := 0
  width : Nat := 0
deriving DecidableEq, Repr, Inhabited

/-- What leaves a port, with its hardware timestamp (R342): a raw frame, or the PRBs of a U-plane message with its section (R349). -/
structure TxFrame where
  port : Nat := 0
  half : Nat := 0
  stamp : Nat := 0
  message : Option SentSection := none
  bytes : List Byte := []
deriving DecidableEq, Repr, Inhabited

/-- How an access of the host to BAR0 completes (R391). -/
inductive BarCompletion where
  | none | written
  | read (v : W64)
  /-- Unsupported Request -/
  | unsupported
deriving DecidableEq, Repr, Inhabited

/-- BAR0, boot, power and the links (R391 to R402). -/
structure Device where
  ready : Bool := false
  recov : Bool := false
  berr : BitVec 8 := 0
  feaen : W64 := 0
  cbase : W64 := 0
  csize : W64 := 0
  locked : Bool := false
  /-- how the host's last access to BAR0 completed (R391) -/
  completion : BarCompletion := .none
  /-- the root key and the rollback counter in the fuses, and the firmware images of the boot chain (R397) -/
  rootKey : BitVec 456 := 0
  rollback : Nat := 0
  images : List Firmware := []
  /-- RBASE, RSIZE, RPROD, RCONS of each ring at 4 r + i -/
  ring : Sparse W64 := []
  rerr : Sparse W64 := []
  /-- the ring being served -/
  serving : Nat := 0
  hallmarks : Sparse (BitVec 512) := []
  /-- the last SPDM answer: its blocks -/
  spdm : List (BitVec 512) := []
  tables : OperatorTables := {}
  twinUp : Bool := false
  tier : BitVec 2 := 0
  thermal : Bool := false
  /-- the tier a clock switch in progress goes to -/
  switching : Option (BitVec 2) := none
  pmeas : BitVec 20 := 0
  /-- measurements above 750 W in a row, and measurements in a row at which the higher tier would have kept within the budget -/
  overruns : Nat := 0
  within : Nat := 0
  /-- reports to the host: dropped writes, and fenced cores -/
  dropped : Nat := 0
  reported : List Nat := []
  /-- 32-byte lines whose copy in their home cache an uncorrectable error has struck, lines that a fenced core could not write back for it, and those
  reported to the host (R400) -/
  badLines : List Nat := []
  lostLines : List Nat := []
  lostReports : List Nat := []
  /-- frames handed to the steward, and PRBs reported (R342, R347) -/
  frames : List RxFrame := []
  prbReports : Nat := 0
  /-- windows armed and sends arrived so far, what has left the ports, oldest first, and the next ecpriSeqId of each port and eAxC (R349) -/
  fhOrder : Nat := 0
  sent : List TxFrame := []
  fhSeq : Sparse Nat := []
  /-- cores whose steward has received a notice of a lost twin link (R394) -/
  twinNotices : List Nat := []
  time : W64 := 0
  cycle : W64 := 0
  /-- a phase step waiting for the next tick (R343) -/
  phaseStep : W64 := 0
  /-- device-wide control registers, by number -/
  cr : Sparse W64 := []
deriving DecidableEq, Repr, Inhabited

/-- The scheduler (R211 to R239). -/
structure Sched where
  jobs : List Job := []
  nextOrder : Nat := 0
  /-- an EDF choice is to be made -/
  choosing : Bool := false
  /-- finished jobs whose tree has an unfinished one: tree and id (R212) -/
  past : List (Nat × Nat) := []
  routes : List RouteRun := []
  nextRoute : Nat := 0
  queues : Sparse HwQueue := []
  /-- held JDONEs and channel operations, in arrival order -/
  held : List HeldOp := []
  /-- strands whose pre-emption was acknowledged with ENDED (R191) -/
  endedAcks : List Nat := []
deriving DecidableEq, Repr, Inhabited

/-- The tract map unit (R366, R371). -/
structure WayUnit where
  map : TractMap := {}
  /-- how often the map has changed -/
  version : Nat := 0
  /-- requests that wait for their strand's engines (R371), requests not yet served, and requests that wait for room -/
  asking : List TractReq := []
  requests : List TractReq := []
  waiting : List TractReq := []
  /-- answers on their way -/
  answers : List Nat := []
  /-- the tract each wayfarer counts in: core, and strand with its job -/
  counts : List (Nat × (Nat × Nat)) := []
  /-- slots reserved for migrants: place, and strand with its job; 4096 + core for the next slot of a core that is left (R371) -/
  slots : List (Nat × (Nat × Nat)) := []
  /-- tracts that a wayfarer has left since the waiting requests were last tried -/
  left : List Nat := []
  /-- cores whose copy of the map is to change -/
  updates : List Nat := []
  halo : List HaloMsg := []
deriving DecidableEq, Repr, Inhabited

/-- The mesh (R115 to R125). -/
structure Mesh where
  flight : List Message := []
  dicts : Sparse PairDict := []
  tag : Nat := 0
  /-- merge windows at the L2 slices, oldest first -/
  windows : List MergeWindow := []
  /-- lines the L2 holds (R96), and of each the bytes written since it came, which write-backs merge by their masks (R97) -/
  present : List Nat := []
  dirty : Sparse Nat := []
deriving DecidableEq, Repr, Inhabited

/-- What a step from outside carries: every step reads only the parts its own rule names. -/
structure Input where
  core : BitVec 8 := 0
  /-- strand, as core * 16 + slot of its origin -/
  key : BitVec 13 := 0
  job : BitVec 32 := 0
  /-- a transfer id, a handle, or another number -/
  num : W64 := 0
  value : W64 := 0
  addr : BitVec 48 := 0
  index : BitVec 16 := 0
  digest : BitVec 512 := 0
  bytes : List Byte := []
  /-- an uncorrectable error strikes what the step reads (R301, R325, R337, R363), or, with PATROL_SCRUB, the 32-byte line at addr in its home cache
  (R400) -/
  struck : Bool := false
  port : RegPort := .bar 0 8
  section_ : UPlane := {}
  tables : OperatorTables := {}
  boot : BootImages := {}
deriving DecidableEq, Repr, Inhabited

/-- Which part of a step comes next when nothing is scheduled from outside: an instruction, or an agent beside the cores (log 4). -/
inductive Turn where
  | issue | engines
deriving DecidableEq, Repr, Inhabited

/-- The state of the device. -/
structure State where
  /-- bytes of memory by location: a physical address, or the window address of on-chip memory (R79, R98) -/
  mem : Sparse Byte := []
  /-- strands by origin (core * 16 + slot), stewards at 4096 + core -/
  ctx : Sparse (Option Ctx) := []
  core : Sparse Core := []
  cluster : Sparse Cluster := []
  /-- coding engine queues, oldest first -/
  coding : Sparse (List CodeReq) := []
  sched : Sched := {}
  dev : Device := {}
  way : WayUnit := {}
  mesh : Mesh := {}
  parks : List Park := []
  /-- wake notices in flight: strand, and the destination and value that return its WAITA (R210) -/
  notices : List (Nat × Option (Nat × W64)) := []
  /-- the context that issues next -/
  cur : Nat := 4096
  turn : Turn := .issue
  /-- how often the turns have gone round the cores since the last tick: a round passes for a cycle (log 4) -/
  rounds : Nat := 0
  /-- engine steps so far: the agents beside the cores take turns by it (log 4) -/
  served : Nat := 0
  /-- steps still to come from outside, oldest first, each with what it carries -/
  schedule : List (Instr × Input) := []
  input : Input := {}
  /-- the word being issued -/
  ir : W32 := 0
  /-- how many free values have been used -/
  free : Nat := 0
deriving DecidableEq, Repr, Inhabited

/-! ### How a step can stop -/

/-- The machine never stops by a fault of the model: every case the spec describes has a next state. -/
inductive Fault where
  /-- Kept for a step that would act on a context that is no context of the device; no meaning raises it. Safe. -/
  | noContext
deriving DecidableEq, Repr

/-- Why a step has no meaning. -/
inductive Refusal where
  /-- An instruction whose meaning is not modelled. Safe. -/
  | notModelled (mnemonic : String)
deriving DecidableEq, Repr

/-! ### Reset -/

/-- The boundaries after reset: 4,096 times the index (R365). -/
def TractMap.reset : TractMap where
  xb := (List.range 17).map (4096 * ·)
  yb := (List.range 16).flatMap fun _ => (List.range 17).map (4096 * ·)

/-- A core after reset: %stshare 4 (R129), %waycap 12 (R367), %dtctl.SIZE 7 (R383), the reset map; the registers the spec gives no
reset value read 0 (log 6). -/
def Core.reset : Core where
  cr := [(0x3C2, 12), (0x484, 7), (0x801, 4)]
  map := TractMap.reset

/-- The default core, as an absent key reads. -/
def coreDefault : Core := Core.reset

/-- A steward whose firmware has not been started (log 6). -/
def Ctx.steward (m : Nat) : Ctx := { hold := .asleep, here := m * 16, cr := [] }

/-- The device after reset: the values the spec states, and 0 elsewhere (log 6). %pbudget, %prehyst and %thrpen are R219's, %halo
is R367's, the tract map R365's. -/
def State.reset : State where
  dev := { cr := [(0x3C3, 256), (0x403, 750000), (0x404, 1000), (0x405, 10000)] }
  way := { map := TractMap.reset }

end Sys2Proof.Machine
end

