-- ==== Sys2Proof/Machine/Parts.lean ====
section
/-! DEFINITION. Reading and writing the parts of the state: contexts, registers, cores and memory. -/

namespace Sys2Proof.Machine

/-- What a step answers. -/
abbrev Res := Host.Outcome State Fault Refusal

/-- The cycle the device is in: %cycle (R10). -/
def State.now (s : State) : Nat := s.dev.cycle.toNat + s.rounds

/-! ### Contexts and cores -/

/-- What an absent context reads as: nothing that issues. -/
def ctxDefault (k : Nat) : Ctx := if 4096 ≤ k then Ctx.steward (k - 4096) else { here := k, hold := .asleep }

def State.ctxAt (s : State) (k : Nat) : Ctx := (Sparse.get none s.ctx k).getD (ctxDefault k)

def State.setCtx (s : State) (k : Nat) (c : Ctx) : State := { s with ctx := Sparse.put s.ctx k (some c) }

def State.onCtx (s : State) (k : Nat) (f : Ctx → Ctx) : State := s.setCtx k (f (s.ctxAt k))

/-- The context that issues. -/
def State.me (s : State) : Ctx := s.ctxAt s.cur

def State.setMe (s : State) (c : Ctx) : State := s.setCtx s.cur c

def State.onMe (s : State) (f : Ctx → Ctx) : State := s.setMe (f s.me)

/-- Frees a context's place. -/
def State.dropCtx (s : State) (k : Nat) : State := { s with ctx := Sparse.erase s.ctx k }

def State.hasCtx (s : State) (k : Nat) : Bool := Sparse.has s.ctx k

/-- Whether a key names a steward context. -/
def isSteward (k : Nat) : Bool := decide (4096 ≤ k)

def State.coreAt (s : State) (m : Nat) : Core := Sparse.get coreDefault s.core m

def State.setCore (s : State) (m : Nat) (c : Core) : State := { s with core := Sparse.put s.core m c }

def State.onCore (s : State) (m : Nat) (f : Core → Core) : State := s.setCore m (f (s.coreAt m))

/-- The core a context runs on (R127). -/
def State.coreOf (s : State) (k : Nat) : Nat := (s.ctxAt k).here / 16

/-- The core the issuing context runs on. -/
def State.myCore (s : State) : Nat := s.me.here / 16

def State.clusterAt (s : State) (y : Nat) : Cluster := Sparse.get {} s.cluster y

def State.onCluster (s : State) (y : Nat) (f : Cluster → Cluster) : State :=
  { s with cluster := Sparse.put s.cluster y (f (s.clusterAt y)) }

/-- The cluster of a core (R14), and its index within the cluster (R82). -/
def clusterOf (m : Nat) : Nat := m / 16 / 2 * 4 + m % 16 / 4
def indexInCluster (m : Nat) : Nat := m / 16 % 2 * 4 + m % 4

/-- Hops between two cores (R13). -/
def hops (m n : Nat) : Nat :=
  (m % 16 - n % 16) + (n % 16 - m % 16) + ((m / 16 - n / 16) + (n / 16 - m / 16))

/-- Every listed strand, by origin. -/
def State.strands (s : State) : List Nat := (s.ctx.map (·.1)).filter (· < 4096)

/-- The strand that runs in a slot of a core. -/
def State.strandAt (s : State) (place : Nat) : Option Nat := s.strands.find? fun k => (s.ctxAt k).here == place

/-- Whether a slot is free to a migrant: no strand runs there and none holds it as its origin (R140), and none is reserved or kept. -/
def State.slotFree (s : State) (place : Nat) : Bool :=
  s.strands.all fun k => (s.ctxAt k).here != place && k != place

/-- The vector strand of a core. -/
def State.vectorStrand (s : State) (m : Nat) : Option Nat :=
  s.strands.find? fun k => (s.ctxAt k).vec && (s.ctxAt k).here / 16 == m

/-! ### General registers (R36) -/

def Ctx.rd (c : Ctx) (r : Nat) : W64 := if r = 0 then 0 else Sparse.get 0 c.g r

def Ctx.wr (c : Ctx) (r : Nat) (v : W64) : Ctx :=
  if r = 0 then c
  else { c with g := Sparse.set 0 c.g r v, syncRegs := c.syncRegs.filter (· != r), late := c.late.filter fun l => l.reg != r }

/-- A register written by a synchronising instruction (R48). -/
def Ctx.wrSync (c : Ctx) (r : Nat) (v : W64) : Ctx :=
  if r = 0 then c else { c.wr r v with syncRegs := r :: c.syncRegs.filter (· != r) }

def State.rd (s : State) (r : BitVec 5) : W64 := s.me.rd r.toNat

def State.wr (s : State) (r : BitVec 5) (v : W64) : State := s.onMe (·.wr r.toNat v)

/-- LEN(r) set (R251): bytes beyond it read 0 from then on. -/
def Ctx.setLen (c : Ctx) (r n : Nat) : Ctx :=
  { c with len := Sparse.set 0 c.len r n, vreg := Sparse.without c.vreg (2048 * r + n) (2048 * r + 2048) }

/-! ### Control registers as they are stored -/

def Ctx.crGet (c : Ctx) (n : Nat) : W64 := Sparse.get 0 c.cr n
def Ctx.crSet (c : Ctx) (n : Nat) (v : W64) : Ctx := { c with cr := Sparse.set 0 c.cr n v }
def Core.crGet (c : Core) (n : Nat) : W64 := Sparse.get 0 c.cr n
def Core.crSet (c : Core) (n : Nat) (v : W64) : Core := { c with cr := Sparse.set 0 c.cr n v }
def Core.crAdd (c : Core) (n k : Nat) : Core := c.crSet n (c.crGet n + BitVec.ofNat 64 k)
def Device.crGet (d : Device) (n : Nat) : W64 := Sparse.get 0 d.cr n
def Device.crSet (d : Device) (n : Nat) (v : W64) : Device := { d with cr := Sparse.set 0 d.cr n v }

/-- Bits [lo + n - 1 : lo] of a register. -/
def bitsOf (v : W64) (lo n : Nat) : Nat := v.toNat / 2 ^ lo % 2 ^ n

/-- The per-strand control registers at a strand's first instruction (R95, R248, R316, R332, R367); all others are 0. -/
def crStart : Sparse W64 :=
  [(0x030, 4), (0x10C, 17), (0x204, 2), (0x205, 64), (0x280, 12), (0x281, 1), (0x3C4, 16), (0x3C5, 4096)]

/-! ### Jobs -/

def State.job? (s : State) (j : Nat) : Option Job := s.sched.jobs.find? fun x => x.id == j

/-- Whether a pre-emption request stands for a strand (R203). -/
def State.preemptAsked (s : State) (k : Nat) : Bool :=
  !(isSteward k) && match s.job? (s.ctxAt k).job with | some j => j.preempt && j.state == .running | none => false

def State.onJob (s : State) (j : Nat) (f : Job → Job) : State :=
  { s with sched := { s.sched with jobs := s.sched.jobs.map fun x => if x.id == j then f x else x } }

/-- The deadline of a job, in device ns. -/
def Job.deadline (j : Job) : Nat := j.record.w3.toNat

/-! ### Free values (log 8) -/

/-- The next free byte. -/
def State.freeByte (s : State) : Byte := Config.freeByte s.free

def State.freshen (s : State) (n : Nat) : State := { s with free := s.free + n }

/-- The next n free bytes. -/
def State.freeBytes (s : State) (n : Nat) : List Byte := (List.range n).map fun i => Config.freeByte (s.free + i)

/-! ### Event counters and trace records (R384, R389) -/

/-- Whether a counter's selection counts an event of a slot; a steward is slot 16 (R383). -/
def counts (sel : W64) (event slot : Nat) : Bool :=
  bitsOf sel 0 8 == event && (bitsOf sel 12 1 == 1 || bitsOf sel 8 4 == slot)

/-- Adds n to each counter of a core that counts an event. -/
def Core.count (c : Core) (event slot n : Nat) : Core :=
  (List.range 8).foldl (fun c j => if counts (c.crGet (0x498 + j)) event slot then c.crAdd (0x490 + j) n else c) c

/-! ### Bytes (R5) -/

/-- The number some bytes hold, little-endian. -/
def leNat : List Byte → Nat
  | [] => 0
  | b :: bs => b.toNat + 256 * leNat bs

/-- The low n bytes of a number, little-endian. -/
def leBytes : Nat → Nat → List Byte
  | 0, _ => []
  | n + 1, v => BitVec.ofNat 8 v :: leBytes n (v / 256)

def State.readByte (s : State) (a : Nat) : Byte := Sparse.get 0 s.mem a

def State.readBytes (s : State) (a : Nat) : Nat → List Byte
  | 0 => []
  | n + 1 => s.readByte a :: s.readBytes (a + 1) n

def State.readNat (s : State) (a n : Nat) : Nat := leNat (s.readBytes a n)

def State.read64 (s : State) (a : Nat) : W64 := BitVec.ofNat 64 (s.readNat a 8)

/-- A memory with some bytes stored from an address on. -/
def pokeBytes (m : Sparse Byte) (a : Nat) : List Byte → Sparse Byte
  | [] => m
  | b :: bs => pokeBytes (Sparse.set 0 m a b) (a + 1) bs

/-- Whether a parked double-word's line is one of those a write of n bytes at a touches (R179). -/
def onLine (loc a n : Nat) : Bool := n != 0 && decide (a / 32 ≤ loc / 32) && decide (loc / 32 ≤ (a + n - 1) / 32)

/-- The value a parked strand's double-word holds. -/
def State.parkValue (s : State) (p : Park) : W64 := s.read64 p.loc

/-- The wake notices a write sends, in park order: a strand whose double-word now differs is deregistered and its notice carries the
value; any other stays parked, and its notice is spurious (R179, R210). -/
def State.wake (s : State) (a n : Nat) : State :=
  let hit := s.parks.filter fun p => onLine p.loc a n
  let notes := hit.map fun p => (p.key, if s.parkValue p != p.cmp then some (p.d, s.parkValue p) else none)
  { s with
    notices := s.notices ++ notes
    parks := s.parks.filter fun p => !(onLine p.loc a n && s.parkValue p != p.cmp) }

/-- A write performs: the bytes land and wake the strands parked on their lines (R179). -/
def State.perform (s : State) (a : Nat) (bs : List Byte) : State :=
  { s with mem := pokeBytes s.mem a bs }.wake a bs.length

def State.performNat (s : State) (a n v : Nat) : State := s.perform a (leBytes n v)

end Sys2Proof.Machine
end

