-- ==== Sys2Proof/Machine/Net.lean ====
section
/-! DEFINITION. Messages of the mesh, payload compression and the network counters (07_network R117 to R125). Accesses perform when their
instruction executes (log 3); the messages that carry them are kept here for the counters and the dictionaries (log 20). -/

namespace Sys2Proof.Machine

/-- One copy of a dictionary: eight words and the insert pointer (R121). -/
abbrev Dict := List W64 × Nat

/-- The dictionary with a word inserted. -/
def dictInsert (d : Dict) (w : W64) : Dict := (d.1.set d.2 w, (d.2 + 1) % 8)

/-- The lowest entry with a property. -/
def dictFind (d : Dict) (p : W64 → Bool) : Option Nat := d.1.findIdx? p

/-- One word's encoding: its bits as a number, how many they are, and the dictionary after it (R121). -/
def encodeWord (d : Dict) (w : W64) : Nat × Nat × Dict :=
  if w = 0 then (3, 2, d)
  else
    match dictFind d (· == w) with
    | some i => (1 + 4 * i, 5, d)
    | none =>
      match dictFind d (fun e => bitsOf e 16 48 == bitsOf w 16 48) with
      | some i => (2 + 4 * i + 32 * bitsOf w 0 16, 21, dictInsert d w)
      | none => (4 * w.toNat, 66, dictInsert d w)

/-- The stream of some words: its bits as a number, how many, and the dictionary after them. -/
def encodeWords (d : Dict) (ws : List W64) : Nat × Nat × Dict :=
  ws.foldl (fun acc w =>
    let (v, n, d1) := encodeWord acc.2.2 w
    (acc.1 + v * 2 ^ acc.2.1, acc.2.1 + n, d1)) (0, 0, d)

/-- The flits of a message with some payload bytes (R117). -/
def flits (len : Nat) : Nat := (8 + len + 31) / 32

/-! ### Places, paths and headers (R96, R116, R117) -/

/-- Edge stop k as a mesh address (R117): 0 to 15 north, 16 to 31 east, 32 to 47 south, 48 to 63 west. -/
def edge (k : Nat) : Nat := 256 + k

/-- The core beside an edge stop; a core itself (R16, R116). -/
def besideStop (a : Nat) : Nat :=
  if a < 256 then a
  else
    let k := (a - 256) % 16
    match (a - 256) / 16 with
    | 0 => k
    | 1 => 16 * k + 15
    | 2 => 240 + k
    | _ => 16 * k

/-- The way from one row or column to another, one step at a time. -/
def steps (x y : Nat) : List Nat := if x ≤ y then (List.range (y - x)).map (x + 1 + ·) else (List.range (x - y)).map (x - 1 - ·)

/-- The core that may hold a scalar-cacheable line (R92). -/
def homeCore (pa : Nat) : Nat := (pa / 2 ^ 5 ^^^ pa / 2 ^ 13 ^^^ pa / 2 ^ 21) % 256

/-- The L2 slice of a line (R96), as a mesh address. -/
def l2Slice (pa : Nat) : Nat := (pa / 2 ^ 8 ^^^ pa / 2 ^ 14 ^^^ pa / 2 ^ 20) % 64

/-- The cores a message passes from one core to another: along its row, then along the column (R116). -/
def route (src dst : Nat) : List Nat :=
  ((steps (src % 16) (dst % 16)).map fun x => src / 16 * 16 + x) ++ (steps (src / 16) (dst / 16)).map fun y => y * 16 + dst % 16

/-- The path of a message: an edge stop steps in at the core beside it, and out there (R116). -/
def Message.path (m : Message) : List Nat := route (besideStop m.src) (besideStop m.dst)

/-- The number of a class. -/
def MsgClass.number : MsgClass → Nat
  | .req => 0
  | .rsp => 1
  | .msg => 2
  | .sys => 3

/-- The header word (R117). -/
def Message.header (m : Message) : W64 :=
  BitVec.ofNat 64 (m.cls.number * 2 ^ 62 + m.dst % 512 * 2 ^ 53 + m.src % 512 * 2 ^ 44 + m.len % 4096 * 2 ^ 32
    + (if m.compressed then 2 ^ 31 else 0) + (if m.rst then 2 ^ 30 else 0) + m.tag % 2 ^ 30)

/-- The scheduler's mesh address. DESIGN CHOICE: R16 says that it stands beside the host link and gives it no stop of its own; the model gives it
the host link's, north stop 7 (log 20). -/
def schedulerStop : Nat := edge 7

/-- The stop of coding engine e: stops 2, 6, 10 and 14 of each edge, in the order of R96 (R16). -/
def codingStop (e : Nat) : Nat := edge (16 * (e / 4) + 4 * (e % 4) + 2)

/-- The stop of fronthaul port p: ports 0 to 3 west, 4 to 7 east (R16). -/
def portStop (p : Nat) : Nat := edge ((if p < 4 then 48 else 16) + 1 + 4 * (p % 4))

/-- The LPDDR-6 channel of a line, and its stop: 12 channels per edge, at every stop k with k mod 4 not 3 (R16, R96). -/
def lpddrChannel (pa : Nat) : Nat := pa / 2 ^ 8 % 48
def channelStop (c : Nat) : Nat := edge (16 * (c / 12) + 4 * (c % 12 / 3) + c % 12 % 3)

/-- The largest LEN (R117). -/
def maxLen : Nat := 2112

/-! ### Sending and receiving (R118 to R123, R125) -/

/-- The key of an ordered pair of cores. -/
def pairKey (src dst : Nat) : Nat := src * 256 + dst

def State.dict (s : State) (src dst : Nat) : PairDict := Sparse.get {} s.mesh.dicts (pairKey src dst)

def State.onDict (s : State) (src dst : Nat) (f : PairDict → PairDict) : State :=
  { s with mesh := { s.mesh with dicts := Sparse.put s.mesh.dicts (pairKey src dst) (f (s.dict src dst)) } }

/-- Counts a message at its source: its class counter and its flits (R125). -/
def State.countSent (s : State) (cls : MsgClass) (src len : Nat) : State :=
  if 256 ≤ src then s
  else s.onCore src fun c => { c.crAdd (0x300 + cls.number) 1 with nflit := c.nflit + BitVec.ofNat 64 (flits len) }

def State.inject (s : State) (m : Message) : State :=
  { s with mesh := { s.mesh with flight := s.mesh.flight ++ [m], tag := (s.mesh.tag + 1) % 2 ^ 30 } }

/-- The bytes of a payload whose length the spec does not give (R117, log 20). -/
def State.freeLen (s : State) : Nat := (Config.stateWords s.free).length * 8 % (maxLen + 1)

/-- Sends a message of a free length. -/
def State.sendFree (s : State) (m : Message) : State :=
  ((s.countSent m.cls m.src s.freeLen).inject { m with len := s.freeLen }).freshen 1

/-- Sends a RSP or SYS message. -/
def State.send (s : State) (cls : MsgClass) (src dst : Nat) : State := s.sendFree { cls := cls, src := src, dst := dst, tag := s.mesh.tag }

/-- Sends the request of an access, a strand's or none's; a write-back carries the mask of its bytes (R97). -/
def State.ask (s : State) (src dst loc : Nat) (wr : Bool) (k : Option Nat) (mask : Nat := 0) : State :=
  s.sendFree { src := src, dst := dst, tag := s.mesh.tag, loc := loc, wr := wr, key := k, mask := mask }

/-- Sends the request of an access to the L2 slice of its line (R96). -/
def State.askSlice (s : State) (m loc : Nat) (wr : Bool) : State := s.ask m (edge (l2Slice loc)) loc wr none

/-- Sends a command to the engine at a stop (R118). -/
def State.command (s : State) (src stop : Nat) : State :=
  s.sendFree { kind := .command, src := src, dst := stop, tag := s.mesh.tag }

/-- The reply to a request, with its TAG (R117). -/
def State.reply (s : State) (m : Message) : State :=
  s.sendFree { cls := .rsp, src := m.dst, dst := m.src, tag := m.tag, key := m.key }

/-- A request as one of the readers that a reply names. -/
def Message.reader (m : Message) : Reader := { core := m.src, tag := m.tag, key := m.key }

/-- The registered readers of a line get their data by one message that names them all (R124): each core one copy, which takes its own path from
the slice and counts as a message of its own for R119. DESIGN CHOICE: a core that registered twice is one reader, and a copy's TAG is that of its
core's first request (log 20). -/
def State.multicast (s : State) (rs : List Message) : State :=
  (rs.map (·.src)).eraseDups.foldl (fun s c =>
    match rs.find? fun r => r.src == c with
    | some r =>
      s.sendFree { cls := .rsp, src := r.dst, dst := c, tag := r.tag, key := r.key, readers := rs.map Message.reader }
    | none => s) s

/-- Sends a MSG payload of some bytes, compressed when that saves a flit (R122), with RST when the pair was cleared (R123). -/
def State.sendBytesMsg (s : State) (kind : MsgKind) (k : Option Nat) (src dst raw : Nat) (ws : List W64) : State :=
  let d := s.dict src dst
  let (_, bits, d1) := encodeWords (d.sender, d.sendP) ws
  let packed := (bits + 7) / 8
  let c := decide (flits packed < flits raw)
  let len := if c then packed else raw
  let s1 := s.onDict src dst fun p => { p with sender := if c then d1.1 else p.sender, sendP := if c then d1.2 else p.sendP, rst := false }
  let s2 := (s1.countSent .msg src len).onCore src fun k => (k.crAdd 0x305 raw).crAdd 0x306 len
  s2.inject
    { cls := .msg, kind := kind, src := src, dst := dst, len := len, compressed := c, rst := d.rst, tag := s.mesh.tag, words := ws, raw := raw, key := k }

/-- Sends a MSG payload of whole words. -/
def State.sendMsg (s : State) (kind : MsgKind) (k : Option Nat) (src dst : Nat) (ws : List W64) : State :=
  s.sendBytesMsg kind k src dst (8 * ws.length) ws

/-- The oldest message of a class in flight from one place to another (R119). -/
def State.firstMsg (s : State) (cls : MsgClass) (src dst : Nat) : Option Message :=
  s.mesh.flight.find? fun m => m.cls == cls && m.src == src && m.dst == dst

/-- Whether the next MSG message of a pair is of a kind, and of a strand if one is named: MSG messages of a pair arrive in the order sent (R119);
after a parity error none is taken until one with RST comes (R123). -/
def State.nextMsgIs (s : State) (kind : MsgKind) (k : Option Nat) (src dst : Nat) : Bool :=
  match s.firstMsg .msg src dst with
  | none => src == dst
  | some m => m.kind == kind && (k == none || m.key == k) && (m.rst || !(s.dict src dst).discarding)

/-- The oldest message of a class in flight. -/
def State.oldestOf (s : State) (c : MsgClass) : Option Message := s.mesh.flight.find? fun m => m.cls == c

/-- Takes the first message that equals a given one out of flight. -/
def State.dropMsg (s : State) (m : Message) : State :=
  { s with mesh := { s.mesh with flight := s.mesh.flight.erase m } }

/-- Whether an access of a strand has not been acknowledged: its request or its reply is in flight, or waits at an L2 slice (R120). -/
def State.unacknowledged (s : State) (k : Nat) : Bool :=
  let own (m : Message) : Bool :=
    (m.cls == .req || m.cls == .rsp) && (m.key == some k || m.readers.any fun r => r.core == m.dst && r.key == some k)
  s.mesh.flight.any own || s.mesh.windows.any fun w => w.readers.any own || w.held.any own

/-- The receiver takes the oldest MSG message of a pair: it applies the updates of a compressed payload (R122). -/
def State.receiveMsg (s : State) (src dst : Nat) : State :=
  match s.firstMsg .msg src dst with
  | none => s
  | some m =>
    let s1 := s.dropMsg m
    s1.onDict src dst fun p =>
      -- after a parity error, everything is discarded until a message with RST (R123)
      let p0 := if m.rst then { p with receiver := List.replicate 8 0, recvP := 0, discarding := false } else p
      if m.compressed && !p0.discarding then
        let (_, _, d1) := encodeWords (p0.receiver, p0.recvP) m.words
        { p0 with receiver := d1.1, recvP := d1.2 }
      else p0

end Sys2Proof.Machine
end

