-- ==== Sys2Proof/Machine/Trace.lean ====
section
/-! DEFINITION. Event counters and trace records (29_debug R383, R384, R389). -/

namespace Sys2Proof.Machine

/-- A trace record written at the next place of the ring, which must have a base (R389): one write to its L2 slice (R118). -/
def State.traceRecord (s : State) (m : Nat) (ws : List W64) : State :=
  let c := s.coreAt m
  let base := bitsOf (c.crGet 0x483) 12 36 * 2 ^ 12
  if base = 0 then s
  else
    let at_ := base + 32 * ((c.crGet 0x485).toNat % 2 ^ bitsOf (c.crGet 0x484) 0 5)
    ((s.ask m (edge (l2Slice at_)) at_ true none (2 ^ 32 - 1)).perform at_ (ws.flatMap fun w => leBytes 8 w.toNat)).onCore m
      fun c => c.crAdd 0x485 1

/-- w0 and w1 of a record of a context, with the granted VL of its strip (R389). -/
def State.traceHead (s : State) (m k kind vl : Nat) (pc : VA) : List W64 :=
  [BitVec.ofNat 64 (kind * 2 ^ 60 + (s.ctxAt k).here % 16 * 2 ^ 56 + m % 256 * 2 ^ 48 + s.dev.time.toNat % 2 ^ 48),
   BitVec.ofNat 64 (vl * 2 ^ 50 + pc.toNat)]

/-- The strip ordinal in the upper half of w2, with DATA below it. -/
def State.traceData (s : State) (k data : Nat) : W64 :=
  BitVec.ofNat 64 (((s.ctxAt k).crGet 0x10B).toNat % 2 ^ 32 * 2 ^ 32 + data % 2 ^ 32)

/-! ### Counters and samples (R383, R384, R389) -/

/-- What event counter j of a core reads. -/
def State.counter (s : State) (m j : Nat) : W64 := (s.coreAt m).crGet (0x490 + j)

/-- The multiples of a period that a counter reaches as it moves n on. -/
def multiplesReached (old n period : Nat) : List Nat :=
  if period = 0 then [] else (List.range ((old + n) / period - old / period)).map fun i => (old / period + 1 + i) * period

/-- The counter whose increments drive a core's samples, and its slot number when an event is counted: 16 for a steward's. -/
def Core.sampled (c : Core) : Nat := bitsOf (c.crGet 0x486) 32 3
def State.slotNumber (s : State) (k : Nat) : Nat := if isSteward k then 16 else (s.ctxAt k).here % 16

/-- The sample records of a context whose n events have moved the sampled counter on from old, one for each multiple of the period (R389). -/
def State.samples (s : State) (m k old n : Nat) : State :=
  let c := s.coreAt m
  if (c.crGet 0x484).getLsbD 5 then
    (multiplesReached old n (bitsOf (c.crGet 0x486) 0 32)).foldl (fun s v =>
      s.traceRecord m (s.traceHead m k 1 (s.ctxAt k).grant (s.ctxAt k).pc ++ [s.traceData k c.sampled, BitVec.ofNat 64 v])) s
  else s

/-- Whether a core's sampled counter counts an event of a context. -/
def State.samplesEvent (s : State) (m k event : Nat) : Bool :=
  counts ((s.coreAt m).crGet (0x498 + (s.coreAt m).sampled)) event (s.slotNumber k)

/-- Counts n events of a context on a core (R384), with the samples they make. -/
def State.tally (s : State) (m k event n : Nat) : State :=
  let s1 := s.onCore m fun c => c.count event (s.slotNumber k) n
  if s.samplesEvent m k event then s1.samples m k (s.counter m (s.coreAt m).sampled).toNat n else s1

/-- The context that an event of the core as a whole is written by: the strand that issued last, else the steward. DESIGN CHOICE: R389 names the
strand whose event it is (log 2). -/
def State.lastOn (s : State) (m : Nat) : Nat := (s.strandAt (m * 16 + (s.coreAt m).lastSlot)).getD (4096 + m)

/-- A scalar access performed away from the core: one REQ and its RSP to come (R120), and the remote-word event of R384. -/
def State.remoteAccess (s : State) (src dst k loc : Nat) (wr : Bool) : State := (s.ask src dst loc wr (some k)).tally src k 8 1

end Sys2Proof.Machine
end

