-- ==== Sys2Proof/Machine/Access.lean ====
section
/-! DEFINITION. The translation of addresses and the places that accesses go to (05 R78 to R104). -/

namespace Sys2Proof.Machine

/-! ### Addresses (R78 to R104) -/

/-- What an access does. -/
inductive Acc where
  | read | write | fetch
deriving DecidableEq, Repr

/-- Where an access goes: the location, and whether it lies in global memory on a scalar-cacheable page. -/
structure Place where
  loc : Nat
  global : Bool := false
  cacheable : Bool := false
deriving DecidableEq, Repr, Inhabited

/-- The first physical address above LPDDR-6, and the first of host memory (R98). -/
def lpddrTop : Nat := 0x6000000000
def hostBase : Nat := 0x800000000000

def inLpddr (loc : Nat) : Bool := decide (loc < lpddrTop)
def inHost (loc : Nat) : Bool := decide (hostBase ≤ loc) && decide (loc < 2 ^ 48)

/-- The windows (R79). -/
def coreWindow : Nat := 0x3000000000000
def clusterWindow : Nat := 0x3100000000000
def chipWindow : Nat := 0x3200000000000
def twinWindow : Nat := 0x3800000000000
def clusterAlias : Nat := 0x3FFFD00000000
def coreAlias : Nat := 0x3FFFE00000000
def privateWindow : Nat := 0x3FFFF00000000

def inTwin (loc : Nat) : Bool := decide (twinWindow ≤ loc) && decide (loc < twinWindow + lpddrTop)

/-- Whether the twin window is populated (R394). -/
def State.twinOn (s : State) : Bool := s.dev.twinUp && s.dev.feaen.getLsbD 0

/-- An offset in a core's window (R81): the private areas and lane slices are the steward's. -/
def coreOffset (m o : Nat) (steward : Bool) : Except Cause Place :=
  if o < 0x40000 ∨ (0x100000 ≤ o ∧ o < 0x110000) then
    if steward then .ok { loc := coreWindow + m * 2 ^ 24 + o } else .error .prot
  else if 0x40000 ≤ o ∧ o < 0xC0000 then .ok { loc := coreWindow + m * 2 ^ 24 + o }
  else .error .page

/-- An offset in a cluster's window (R82). -/
def clusterOffset (y o : Nat) : Except Cause Place :=
  if o < 0x200000 then .ok { loc := clusterWindow + y * 2 ^ 24 + o } else .error .page

/-- A local address (R79 to R86): me is the core the access executes on, own the origin of the executing strand. -/
def State.localPlace (s : State) (me own : Nat) (steward : Bool) (va : Nat) : Except Cause Place :=
  if va < coreWindow then .error .page
  else if va < coreWindow + 256 * 2 ^ 24 then
    coreOffset ((va - coreWindow) / 2 ^ 24) ((va - coreWindow) % 2 ^ 24) steward
  else if clusterWindow ≤ va ∧ va < clusterWindow + 32 * 2 ^ 24 then
    clusterOffset ((va - clusterWindow) / 2 ^ 24) ((va - clusterWindow) % 2 ^ 24)
  else if chipWindow ≤ va ∧ va < chipWindow + 0x4000000 then .ok { loc := va }
  else if twinWindow ≤ va ∧ va < twinWindow + lpddrTop then
    if s.twinOn then .ok { loc := va } else .error .page
  else if clusterAlias ≤ va ∧ va < clusterAlias + 2 ^ 24 then clusterOffset (clusterOf me) (va - clusterAlias)
  else if coreAlias ≤ va ∧ va < coreAlias + 2 ^ 24 then coreOffset me (va - coreAlias) steward
  else if privateWindow ≤ va ∧ va < privateWindow + 0x4000 then
    if steward then .error .page
    else .ok { loc := coreWindow + own / 16 * 2 ^ 24 + own % 16 * 0x4000 + (va - privateWindow) }
  else .error .page

/-- The address bits below a level's index (R100). -/
def levelShift (l : Nat) : Nat :=
  match l with
  | 0 => 12
  | 1 => 21
  | 2 => 30
  | _ => 35

/-- The entries of a level's table (R100). -/
def levelEntries (l : Nat) : Nat :=
  match l with
  | 0 => 512
  | 1 => 512
  | 2 => 32
  | _ => 32768

/-- Bit i of a table entry. -/
def pteBit (e i : Nat) : Bool := e / 2 ^ i % 2 == 1

/-- PA[47:12] of an entry, as an address (R101). -/
def pteAddr (e : Nat) : Nat := e / 2 ^ 12 % 2 ^ 36 * 2 ^ 12

/-- The walk from a table of some level down (R100 to R102): the level and address of the leaf's entry, and the entry. DESIGN CHOICE: a next table at
an address that is unpopulated or in host memory is read there like any other memory (log 7). -/
def State.walk (s : State) (va : Nat) : Nat → Nat → Except Cause (Nat × Nat × Nat)
  | l, table =>
    let a := table + va / 2 ^ levelShift l % levelEntries l * 8
    let e := s.readNat a 8
    if !(pteBit e 0) then .error .page
    else if e / 2 ^ 48 ≠ 0 ∨ e / 2 ^ 8 % 16 ≠ 0 then .error .page
    else if pteBit e 1 then
      if pteAddr e % 2 ^ levelShift l ≠ 0 then .error .page else .ok (l, a, e)
    else
      match l with
      | 0 => .error .page
      | l + 1 => s.walk va l (pteAddr e)

/-- The entries that a walk reads, from the top down, to the leaf's or to the one that ends it (R100 to R102). -/
def State.walkReads (s : State) (va : Nat) : Nat → Nat → List Nat
  | l, table =>
    let a := table + va / 2 ^ levelShift l % levelEntries l * 8
    let e := s.readNat a 8
    if !(pteBit e 0) || e / 2 ^ 48 != 0 || e / 2 ^ 8 % 16 != 0 || pteBit e 1 then [a]
    else
      match l with
      | 0 => [a]
      | l + 1 => a :: s.walkReads va l (pteAddr e)

/-- The physical address a leaf maps an address to. -/
def leafAddr (l e va : Nat) : Nat := pteAddr e + va % 2 ^ levelShift l

/-- Whether an address lies in the locked carve-out (R396). -/
def State.carved (s : State) (pa : Nat) : Bool :=
  s.dev.locked && decide (bitsOf s.dev.cbase 21 27 * 2 ^ 21 ≤ pa)
    && decide (pa < bitsOf s.dev.cbase 21 27 * 2 ^ 21 + s.dev.csize.toNat % 1024 * 2 ^ 21)

/-- What a leaf permits (R102): the range first, then the protections. -/
def State.leafCheck (s : State) (steward : Bool) (acc : Acc) (e pa : Nat) : Except Cause Place :=
  if lpddrTop ≤ pa ∧ pa < hostBase then .error .page
  else if !steward && !(pteBit e 4) then .error .prot
  else if acc = .write ∧ !(pteBit e 2) then .error .prot
  else if acc = .fetch ∧ !(pteBit e 3) then .error .prot
  else if !steward && s.carved pa then .error .prot
  else .ok { loc := pa, global := true, cacheable := pteBit e 5 && inLpddr pa }

/-- The cached translation of an address, if a core holds one (R103, log 7). -/
def State.cached (s : State) (core root va : Nat) : Option TlbEntry :=
  (s.coreAt core).tlb.find? fun t => t.root == root && t.tag == va / 2 ^ levelShift t.level

/-- The walker reads an entry of each level at its L2 slice, unless the translation is cached (R103). -/
def State.askWalk (s : State) (core root va : Nat) : State :=
  if root = 0 ∨ (s.cached core root va).isSome then s
  else (s.walkReads va 3 root).foldl (fun s a => s.askSlice core a false) s

/-- A translation cached in place of any of the same page. -/
def State.cache (s : State) (core : Nat) (t : TlbEntry) : State :=
  s.onCore core fun c => { c with tlb := t :: c.tlb.filter fun u => !(u.root == t.root && u.level == t.level && u.tag == t.tag) }

/-- The walker's atomic update of an entry at its slice (R103). -/
def State.updateEntry (s : State) (core a e : Nat) : State := (s.askSlice core a true).performNat a 8 e

/-- The first write under a cached translation sets D, in the cache and in the entry if it still is what was cached (R103, log 7). -/
def State.markDirty (s : State) (core : Nat) (t : TlbEntry) : State :=
  if pteBit t.pte 7 then s
  else
    let s1 := if s.readNat t.at_ 8 = t.pte then s.updateEntry core t.at_ (t.pte + 2 ^ 7) else s
    s1.cache core { t with pte := t.pte + 2 ^ 7 }

/-- A translated access (R99 to R104): the place, and the state with A and D set and the translation cached. DESIGN CHOICE: the walker sets A and D
in the leaf only, not in the entries that point to a next table (R101, log 7). -/
def State.translate (s : State) (core : Nat) (root : W64) (steward : Bool) (va : Nat) (acc : Acc) :
    Except Cause (Place × State) :=
  let base := bitsOf root 18 30 * 2 ^ 18
  if base = 0 then .error .page
  else
    match s.cached core base va with
    | some t =>
      match s.leafCheck steward acc t.pte (leafAddr t.level t.pte va) with
      | .ok p => .ok (p, if acc = .write then s.markDirty core t else s)
      | .error c => .error c
    | none =>
      match s.walk va 3 base with
      | .error c => .error c
      | .ok (l, a, e) =>
        match s.leafCheck steward acc e (leafAddr l e va) with
        | .error c => .error c
        | .ok p =>
          let e1 := if pteBit e 6 then e else e + 2 ^ 6
          let e2 := if acc = .write ∧ !(pteBit e1 7) then e1 + 2 ^ 7 else e1
          let s0 := s.askWalk core base va
          let s1 := if e2 = e then s0 else s0.updateEntry core a e2
          .ok (p, s1.cache core { root := base, level := l, tag := va / 2 ^ levelShift l, pte := e2, at_ := a })

/-- The translation root of a context (R99). -/
def State.rootOf (s : State) (k : Nat) : W64 :=
  if isSteward k then (s.coreAt (k - 4096)).crGet 0x807 else (s.ctxAt k).crGet 0x506

/-- The table root that a context's accesses are translated from (R99). -/
def State.tableOf (s : State) (k : Nat) : Nat := bitsOf (s.rootOf k) 18 30 * 2 ^ 18

/-- Where an access of a context goes (R79, R80): fetches only from global memory. -/
def State.resolve (s : State) (k : Nat) (va : Nat) (acc : Acc) : Except Cause (Place × State) :=
  if va < 2 ^ 49 then s.translate (s.coreOf k) (s.rootOf k) (isSteward k) va acc
  else if acc = .fetch then .error .prot
  else
    match s.localPlace (s.coreOf k) k (isSteward k) va with
    | .ok p => .ok (p, s)
    | .error c => .error c

/-- Whether an address may be named by an engine request of a strand: the private window may not (R86). -/
def privateVa (va : Nat) : Bool := decide (privateWindow ≤ va) && decide (va < privateWindow + 0x4000)

/-- Whether a watchpoint of a context's core covers a byte of an access (R202). -/
def State.watched (s : State) (k va n : Nat) (acc : Acc) : Bool :=
  (s.coreAt (s.coreOf k)).watch.any fun w =>
    decide (w.lo < va + n) && decide (va ≤ w.hi) && (if acc = .write then w.wr else w.rd)

/-- A checked data access of n bytes: PAGE, PROT, then WATCH (R169, R194). -/
def State.checked (s : State) (k va n : Nat) (acc : Acc) : Except Cause (Place × State) :=
  match s.resolve k va acc with
  | .error c => .error c
  | .ok r => if s.watched k va n acc then .error .watch else .ok r

end Sys2Proof.Machine
end

