-- ==== Sys2Proof/Machine/TrellisMath.lean ====
section
/-! DEFINITION. The trellis code and the encoder's search (22_trellis R328 to R335). -/

namespace Sys2Proof.Machine

/-- a_i: the bits weight i advances the stream by (R328). -/
def advanceOf (mode i : Nat) : Nat :=
  match mode with
  | 0 => 1
  | 1 => if i % 2 = 0 then 1 else 2
  | _ => 2

/-- b_i: the stream bit weight i starts at (R328). -/
def startOf (mode i : Nat) : Nat :=
  match mode with
  | 0 => i
  | 1 => i + i / 2
  | _ => 2 * i

/-- S: the stream length in bits (R328, R73). -/
def streamBits (mode : Nat) : Nat := startOf mode 96

/-- The segment size in bytes: the stream and a bf16 scale (R73). -/
def segmentBytes (mode : Nat) : Nat := streamBits mode / 8 + 2

/-- value(s): the value of a window (R329). -/
def windowValue (w : Nat) : Int :=
  let h := (w * 0x6F4B + 0x2D17) % 2 ^ 16
  ((h / 2 ^ 12 + h / 2 ^ 8 % 16 + h / 2 ^ 4 % 16 + h % 16 : Nat) : Int) - 30

/-- The window of weight i of a stream: its first bit is the most significant (R329). -/
def windowAt (mode len stream i : Nat) : Nat :=
  (List.range len).foldl (fun w t => 2 * w + stream / 2 ^ ((startOf mode i + t) % streamBits mode) % 2) 0

/-- Weight i of a stream as an integer (R329). -/
def weightValue (mode len stream i : Nat) : Int := windowValue (windowAt mode len stream i)

/-- The stream and the scale of a segment (R73). -/
def segStream (mode : Nat) (bs : List Byte) : Nat := leNat (bs.take (streamBits mode / 8))
def segScale (mode : Nat) (bs : List Byte) : Nat := leNat ((bs.drop (streamBits mode / 8)).take 2)

/-- An integer as an exact value. -/
def fvOfInt (x : Int) : FV := .fin (decide (x < 0)) x.natAbs 0

/-! ### The encoder (R333) -/

/-- An exact value rounded into f32, as a value. -/
def toF32 (v : FV) : FV := fmtF32.decode (fmtF32.put .rne v).1

/-- a ≤ b as f32 metrics. -/
def metricLt (a b : FV) : Bool := fvLt a b

/-- The state costs of one target: d[i][s] for every window s. -/
def costs (len : Nat) (sig w : FV) : List FV :=
  (List.range (2 ^ len)).map fun st =>
    let r := toF32 (fvMul (fvOfInt (windowValue st)) sig).1
    let e := toF32 (fvSum .rne [w, r.neg]).1
    toF32 (fvMul e e).1

/-- The best predecessor of a state, the lowest first among equals. -/
def bestPred (len a : Nat) (m d : List FV) (st : Nat) : FV × Nat :=
  let cost (h : Nat) : FV × Nat :=
    let p := st / 2 ^ a + h * 2 ^ (len - a)
    (toF32 (fvSum .rne [m.getD p fvZero, d.getD p fvZero]).1, p)
  (List.range (2 ^ a - 1)).foldl (fun best h => if metricLt (cost (h + 1)).1 best.1 then cost (h + 1) else best) (cost 0)

/-- One step: the new metrics and the predecessor of each state. -/
def trellisStep (mode len : Nat) (sig : FV) (m : List FV) (i : Nat) (w : FV) : List FV × List Nat :=
  let d := costs len sig w
  ((List.range (2 ^ len)).map (bestPred len (advanceOf mode i) m d)).unzip

/-- One pass over the 96 targets: the final metrics, and the predecessors of each step, last step first. -/
def trellisPass (mode len : Nat) (sig : FV) : Nat → List FV → List FV → List (List Nat) → List FV × List (List Nat)
  | _, [], m, preds => (m, preds)
  | i, w :: ws, m, preds =>
    let (m1, p) := trellisStep mode len sig m i w
    trellisPass mode len sig (i + 1) ws m1 (p :: preds)

/-- The lowest state with the least metric. -/
def leastState (m : List FV) : Nat :=
  ((List.range m.length).foldl (fun best j => if metricLt (m.getD j fvZero) (m.getD best fvZero) then j else best) 0)

/-- The traceback (R333): the predecessors last step first, the step index, the state, and the stream so far. -/
def traceback (mode len : Nat) : List (List Nat) → Nat → Nat → Nat → Nat
  | [], _, _, stream => stream
  | p :: ps, i, st, stream =>
    let a := advanceOf mode i
    let stream1 := (List.range a).foldl (fun acc q =>
      if st / 2 ^ q % 2 = 1 then acc + 2 ^ ((startOf mode i + len + a - 1 - q) % streamBits mode) else acc) stream
    traceback mode len ps (i - 1) (p.getD st 0) stream1

/-- Whether a value is a NaN or infinite. -/
def notFinite (v : FV) : Bool := v.isNan || v.isInf

/-- The largest magnitude of some values. -/
def largestOf (ws : List FV) : FV := ws.foldl (fun a w => if fvLt a w.abs then w.abs else a) fvZero

/-- The segment of one column of 96 targets, and whether it sets NV (R333, R335). -/
def encodeColumn (mode len scale : Nat) (ws : List FV) : List Byte × Bool :=
  let given := fmtBf16.decode scale
  if ws.any notFinite || notFinite given then
    (leBytes (streamBits mode / 8) 0 ++ leBytes 2 0x7FC0, true)
  else
    let sigBits :=
      if scale ≠ 0 then scale
      else (fmtBf16.put .rne (fvDiv (largestOf ws) (fvOfInt 20)).1).1
    let sig := fmtBf16.decode sigBits
    let m0 := List.replicate (2 ^ len) fvZero
    let (m1, _) := trellisPass mode len sig 0 ws m0 []
    let (m2, preds) := trellisPass mode len sig 0 ws m1 []
    let stream := traceback mode len preds 95 (leastState m2) 0
    (leBytes (streamBits mode / 8) stream ++ leBytes 2 sigBits, false)

end Sys2Proof.Machine
end

