-- ==== Sys2Proof/Machine/AnvilMath.lean ====
section
/-! DEFINITION. Formats, operand slots and sums of the anvil (04_numbers R74 to R77; 21_anvil R315 to R322). -/

namespace Sys2Proof.Machine

/-! ### Formats (R315, R316): 0 bf16, 1 f16, 2 e4m3, 3 e5m2, 4 e3m2, 5 e2m3, 6 e2m1x, 7 i8, 8 n8, 9 i4, 10 i2, 11 cbf16, 12 ci8, 13 tcw -/

/-- The row of the table of R315 a pair of formats belongs to, if it belongs to one. -/
def pairRow (fa fb : Nat) : Option Nat :=
  let row (f : Nat) : Nat :=
    match f with
    | 0 => 0 | 1 => 0 | 2 => 1 | 3 => 1 | 4 => 2 | 5 => 2 | 6 => 3 | 7 => 4 | 8 => 4 | 9 => 5 | 10 => 6 | 11 => 8 | 12 => 9
    | _ => 99
  if 13 < fa ∨ fa = 13 then none
  else if fb = 13 then
    if fa = 2 ∨ fa = 3 ∨ fa = 7 ∨ fa = 8 then some 7 else none
  else if row fa = row fb then some (row fa) else none

/-- K_pass of a row (R315). -/
def rowPass (r : Nat) : Nat :=
  match r with
  | 0 => 48 | 1 => 96 | 2 => 128 | 3 => 192 | 4 => 96 | 5 => 192 | 6 => 384 | 7 => 96 | 8 => 24 | _ => 48

/-- K_pass of a format (R315). -/
def formatPass (f : Nat) : Nat :=
  match f with
  | 0 => 48 | 1 => 48 | 2 => 96 | 3 => 96 | 4 => 128 | 5 => 128 | 6 => 192 | 7 => 96 | 8 => 96 | 9 => 192 | 10 => 384
  | 11 => 24 | 12 => 48 | _ => 96

/-- The paths of R314: 0 NONE, 1 INT, 2 FLOAT, 3 CINT, 4 CFLOAT. -/
def pathNone : Nat := 0
def pathInt : Nat := 1
def pathFloat : Nat := 2
def pathCInt : Nat := 3
def pathCFloat : Nat := 4

/-- The path of a pair (R315): an integer pair with MX runs on the FLOAT path. -/
def pairPath (row : Nat) (mxa mxb : Bool) : Nat :=
  if row = 8 then pathCFloat
  else if row = 9 then pathCInt
  else if row = 4 ∨ row = 5 ∨ row = 6 then (if mxa || mxb then pathFloat else pathInt)
  else pathFloat

/-- What ALDA or ALDB refuses (R315). -/
def formatIllegal (f : Nat) (mx sparse isB : Bool) : Bool :=
  decide (13 < f)
    || (mx && (f == 0 || f == 1 || f == 11 || f == 12 || f == 13))
    || (f == 6 && !mx)
    || (f == 13 && !isB)
    || (sparse && (isB || f == 11 || f == 12))

/-- The bits of an operand element in a slot. -/
def formatBits (f : Nat) : Nat :=
  match f with
  | 0 => 16 | 1 => 16 | 4 => 6 | 5 => 6 | 6 => 4 | 9 => 4 | 10 => 2 | 11 => 16 | _ => 8

/-! ### Operand slots (R313, R318, R320) -/

/-- The bytes of slot s, from byte 0. -/
def slotBytes (data : Sparse Byte) (s : Nat) : Sparse Byte :=
  (Sparse.between data (4096 * s) (4096 * s + 4096)).map fun p => (p.1 - 4096 * s, p.2)

/-- w bits of a slot from a stream bit of a byte position (R55). -/
def streamField (bs : Sparse Byte) (byte bit w : Nat) : Nat :=
  let b := byte + bit / 8
  ((Sparse.get 0 bs b).toNat + 256 * (Sparse.get 0 bs (b + 1)).toNat + 65536 * (Sparse.get 0 bs (b + 2)).toNat)
    / 2 ^ (bit % 8) % 2 ^ w

/-- The element code k of vector r; for a complex format, the code of part q of element k. -/
def slotCode (bs : Sparse Byte) (f r k q : Nat) : Nat :=
  if f = 11 ∨ f = 12 then streamField bs (96 * r) ((2 * k + q) * formatBits f) (formatBits f)
  else streamField bs (96 * r) (k * formatBits f) (formatBits f)

/-- The scale and X of side entry (r, j) (R318): NB entries a vector, doubled with SPARSE. -/
def sideEntry (bs : Sparse Byte) (f : Nat) (sparse : Bool) (r j : Nat) : Nat × Nat :=
  let nb := formatPass f / 32 * (if sparse then 2 else 1)
  let w := if f = 6 then 2 else 1
  let a := 3072 + (r * nb + j) * w
  ((Sparse.get 0 bs a).toNat, (Sparse.get 0 bs (a + 1)).toNat)

/-- The value of an e2m1x code under its X (R70). -/
def e2m1xValue (code x : Nat) : FV := if code = 8 then fmtE4m3.decode x else fmtE2m1.decode code

/-- The integer value of a code of an integer format. -/
def intCode (f code : Nat) : Int := readInt (f != 8) (formatBits f) code

/-- The exact value of a code, without its block scale. -/
def codeValue (f code x : Nat) : FV :=
  match f with
  | 0 => fmtBf16.decode code
  | 1 => fmtF16.decode code
  | 2 => fmtE4m3.decode code
  | 3 => fmtE5m2.decode code
  | 4 => fmtE3m2.decode code
  | 5 => fmtE2m3.decode code
  | 6 => e2m1xValue code x
  | 11 => fmtBf16.decode code
  | _ => fvOfInt (intCode f code)

/-- A value times 2^(scale - 127); a NaN scale gives a NaN (R69). -/
def scaleBy (scale : Nat) (v : FV) : FV :=
  if scale = 255 then .nan false
  else
    match v with
    | .fin n m e => .fin n m (e + (scale : Int) - 127)
    | v => v

/-- An operand: its slot's bytes and tag. -/
structure Operand where
  bytes : Sparse Byte
  fmt : Nat
  mx : Bool
  sparse : Bool

/-- The scaled value of element k of vector r, at K position pos of the pass, and NV from its block (R320, R69, R70). -/
def Operand.value (o : Operand) (r k pos : Nat) : FV × Flags :=
  let code := slotCode o.bytes o.fmt r k 0
  if o.mx then
    let (scale, x) := sideEntry o.bytes o.fmt o.sparse r (pos / 32)
    let v := codeValue o.fmt code x
    (scaleBy scale v, flagIf (scale == 255 || (o.fmt == 6 && code == 8 && v.isNan)) flagNV)
  else (codeValue o.fmt code 0, 0)

/-- Part q of element k of vector r of a complex operand. -/
def Operand.part (o : Operand) (r k q : Nat) : FV := codeValue o.fmt (slotCode o.bytes o.fmt r k q) 0

/-- An element as an integer. -/
def Operand.int (o : Operand) (r k q : Nat) : Int :=
  readInt (o.fmt != 8) (formatBits o.fmt) (slotCode o.bytes o.fmt r k q)

/-! ### One pass of one element (R74, R76) -/

/-- The K positions of a multiply that stand in one pass: for each, the place of A's element and of B's, and the position itself. -/
structure Lane where
  ka : Nat
  kb : Nat
  pos : Nat

/-- The exact products of a pass, with the flags they raise. -/
def passProducts (a b : Operand) (m n : Nat) (lanes : List Lane) : List (FV × Flags) :=
  lanes.map fun l =>
    let (x, fx) := a.value m l.ka l.pos
    let (y, fy) := b.value n l.kb l.kb
    let (p, fp) := fvMul x y
    (p, fx ||| fy ||| fp)

/-- All flags of some results. -/
def orFlags (ps : List (FV × Flags)) : Flags := ps.foldl (fun f p => f ||| p.2) 0

/-- The products that one slot of B contributes to a pass, with the column's scale of a tcw slot. -/
abbrev PassGroup := List (FV × Flags) × Option FV

/-- What a group adds to its pass: the exact sum, times the scale (R74, R320); a group without a product adds nothing: DESIGN CHOICE (log 48). -/
def PassGroup.term (g : PassGroup) : List (FV × Flags) :=
  if g.1.isEmpty then []
  else
    let (s, f1) := fvSum .rne (g.1.map (·.1))
    let (p, f2) := match g.2 with | none => (s, 0) | some c => fvMul s c
    [(p, orFlags g.1 ||| f1 ||| f2)]

/-- A pass summed into a run value (R74): exact, then truncated into f24; of the roundings' flags only OF counts. -/
def runPass (run : Nat) (gs : List PassGroup) : Nat × Flags :=
  let ts := gs.flatMap PassGroup.term
  let (t, f1) := fvSum .rne (fmtF32.decode run :: ts.map (·.1))
  let (r, f2) := fmtF32.put .rz t
  (r, orFlags ts ||| f1 ||| (f2 &&& flagOF))

/-- The scale of column n of a tcw slot (R73, R318). -/
def Operand.colScale (o : Operand) (n : Nat) : Option FV :=
  if o.fmt = 13 then
    some (fmtBf16.decode ((Sparse.get 0 o.bytes (3072 + 2 * n)).toNat + 256 * (Sparse.get 0 o.bytes (3073 + 2 * n)).toNat))
  else none

/-- The promotion step: wide := round_rne(wide + run, f40), of whose flags only OF and NV count. -/
def promote (wide run : Nat) : Nat × Flags :=
  let (t, f1) := fvSum .rne [fmtF40.decode wide, fmtF32.decode run]
  let (w, f2) := fmtF40.put .rne t
  (w, f1 ||| (f2 &&& flagOF))

/-- Products added one by one into an i48 sum that saturates (R76). DESIGN CHOICE: a complex MAC's two products are two such additions, lane by
lane in rising order, each saturating by itself (log 53). -/
def addI48 (sum : Nat) (ps : List Int) : Nat × Flags :=
  ps.foldl (fun acc p =>
    let (c, sat) := clampInt true 48 (readInt true 48 acc.1 + p)
    (truncInt c 48, acc.2 ||| flagIf sat flagSAT)) (sum, 0)

/-- The key of an element of an accumulator. -/
def accKey (t m n : Nat) : Nat := (t * 32 + m) * 32 + n

/-- One float pass of one element of the accumulators, the promotion when it is due. -/
def floatElem (c : Accs) (key : Nat) (gs : List PassGroup) (due : Bool) : Accs × Flags :=
  let (r, f1) := runPass (Sparse.get 0 c.run key) gs
  if due then
    let (w, f2) := promote (Sparse.get 0 c.wide key) r
    ({ c with run := Sparse.set 0 c.run key 0, wide := Sparse.set 0 c.wide key w }, f1 ||| f2)
  else ({ c with run := Sparse.set 0 c.run key r }, f1)

/-- One integer pass of one element. -/
def intElem (c : Accs) (key : Nat) (ps : List Int) : Accs × Flags :=
  let (w, f) := addI48 (Sparse.get 0 c.wide key) ps
  ({ c with wide := Sparse.set 0 c.wide key w }, f)

/-- The elements of a shape, row by row. -/
def elements (m n : Nat) : List (Nat × Nat) := (List.range m).flatMap fun i => (List.range n).map fun j => (i, j)

/-- One element of one pass on its path. -/
def elemPass (path : Nat) (t : Nat) (a b : Operand) (lanes : List Lane) (due : Bool) (c : Accs) (mn : Nat × Nat) : Accs × Flags :=
  let (m, n) := mn
  if path = pathInt then
    intElem c (accKey t m n) (lanes.map fun l => a.int m l.ka 0 * b.int n l.kb 0)
  else if path = pathCInt then
    let re := lanes.flatMap fun l => [a.int m l.ka 0 * b.int n l.kb 0, -(a.int m l.ka 1 * b.int n l.kb 1)]
    let im := lanes.flatMap fun l => [a.int m l.ka 0 * b.int n l.kb 1, a.int m l.ka 1 * b.int n l.kb 0]
    let (c1, f1) := intElem c (accKey t m (2 * n)) re
    let (c2, f2) := intElem c1 (accKey t m (2 * n + 1)) im
    (c2, f1 ||| f2)
  else if path = pathCFloat then
    let mulNeg (x y : FV) := let (p, f) := fvMul x y; (p.neg, f)
    let re := lanes.flatMap fun l =>
      [fvMul (a.part m l.ka 0) (b.part n l.kb 0), mulNeg (a.part m l.ka 1) (b.part n l.kb 1)]
    let im := lanes.flatMap fun l =>
      [fvMul (a.part m l.ka 0) (b.part n l.kb 1), fvMul (a.part m l.ka 1) (b.part n l.kb 0)]
    let (c1, f1) := floatElem c (accKey t m (2 * n)) [(re, none)] due
    let (c2, f2) := floatElem c1 (accKey t m (2 * n + 1)) [(im, none)] due
    (c2, f1 ||| f2)
  else floatElem c (accKey t m n) [(passProducts a b m n lanes, b.colScale n)] due

/-- One pass over the shape (R74, R319): the pass count, then every element. -/
def onePass (path t m n promo : Nat) (a b : Operand) (lanes : List Lane) (c : Accs) : Accs × Flags :=
  let isFloat := path == pathFloat || path == pathCFloat
  let cnt := Sparse.get 0 c.count t + 1
  let due := isFloat && cnt == 2 ^ promo
  let c1 := if isFloat then { c with count := Sparse.set 0 c.count t (if due then 0 else cnt) } else c
  (elements m n).foldl (fun acc mn =>
    let (c2, f) := elemPass path t a b lanes due acc.1 mn
    (c2, acc.2 ||| f)) (c1, 0)

/-! ### Multiplies (R319, R321) -/

/-- Operand j of a command in a slot of a cluster, under the tag it had at issue. -/
def Cluster.operand (y : Cluster) (s : Nat) (tags : List (Nat × Bool × Bool)) (j : Nat) : Operand :=
  let tag := tags.getD j (7, false, false)
  { bytes := slotBytes y.data s, fmt := tag.1, mx := tag.2.1, sparse := tag.2.2 }

/-- The dense lanes of pass j: positions j·kp to min((j + 1)·kp, K) - 1. -/
def denseLanes (kp k j : Nat) : List Lane :=
  (List.range (min kp (k - j * kp))).map fun i => { ka := i, kb := i, pos := i }

/-- The nibble of group g of row m in an index slot (R321). -/
def indexNibble (bs : Sparse Byte) (kp m g : Nat) : Nat := streamField bs 0 ((m * (kp / 2) + g) * 4) 4

/-- The lanes of row m in half h of pass j of a 2:4-sparse multiply: values whose position lies in B slot 2j + h, below K. -/
def sparseLanes (bs : Sparse Byte) (kp k j m h : Nat) : List Lane :=
  (List.range kp).filterMap fun v =>
    let g := v / 2
    let nib := indexNibble bs kp m g
    let i := if v % 2 = 0 then nib % 4 else nib / 4
    let pos := 4 * g + i
    if pos / kp = h ∧ 2 * j * kp + pos < k then some { ka := v, kb := pos % kp, pos := pos } else none

/-- One pass of ASMMA: each row has lanes of its own over two B slots, each with its own column scales (R321, R73). DESIGN CHOICE: a
slot that gives a row no product adds nothing to it, whatever its scale (R74, log 48). -/
def sparsePass (path t m n promo kp k j : Nat) (a b0 b1 : Operand) (index : Sparse Byte) (c : Accs) : Accs × Flags :=
  let isFloat := path == pathFloat
  let cnt := Sparse.get 0 c.count t + 1
  let due := isFloat && cnt == 2 ^ promo
  let c1 := if isFloat then { c with count := Sparse.set 0 c.count t (if due then 0 else cnt) } else c
  (elements m n).foldl (fun acc mn =>
    let l0 := sparseLanes index kp k j mn.1 0
    let l1 := sparseLanes index kp k j mn.1 1
    let key := accKey t mn.1 mn.2
    let (c2, f) :=
      if isFloat then
        floatElem acc.1 key
          [(passProducts a b0 mn.1 mn.2 l0, b0.colScale mn.2), (passProducts a b1 mn.1 mn.2 l1, b1.colScale mn.2)] due
      else
        intElem acc.1 key ((l0.map fun l => a.int mn.1 l.ka 0 * b0.int mn.2 l.kb 0)
          ++ l1.map fun l => a.int mn.1 l.ka 0 * b1.int mn.2 l.kb 0)
    (c2, acc.2 ||| f)) (c1, 0)

/-- The rounded-up quotient. -/
def ceilDiv (a b : Nat) : Nat := (a + b - 1) / b

/-- An accumulator cleared (R74, R323). -/
def Accs.clearAcc (c : Accs) (t : Nat) : Accs :=
  { c with
    run := Sparse.without c.run (t * 1024) (t * 1024 + 1024)
    wide := Sparse.without c.wide (t * 1024) (t * 1024 + 1024)
    count := Sparse.set 0 c.count t 0 }

/-- K positions of one pass of a command. -/
def AnvilCmd.passK (cmd : AnvilCmd) : Nat :=
  let kp := rowPass ((pairRow cmd.fa cmd.fb).getD 0)
  if cmd.op = .smma then 2 * kp else kp

/-- The columns a multiply takes: only 16 complex columns exist (R314). -/
def multiplyCols (path n : Nat) : Nat := if path = pathCInt ∨ path = pathCFloat then min n 16 else n

/-- Whether a command multiplies. -/
def AnvilCmd.multiplies (x : AnvilCmd) : Bool := x.op == .mma || x.op == .mmz || x.op == .smma

/-- The passes of a multiply: P of class AP. -/
def AnvilCmd.passes (cmd : AnvilCmd) : Nat := ceilDiv cmd.k cmd.passK

/-- The first passes of a multiply command (R319, R321), in ascending order of K. An AMMZ clears the accumulator as its passes begin. -/
def multiplyFirst (passes : Nat) (y : Cluster) (cmd : AnvilCmd) (c : Accs) : Accs × Flags :=
  let row := (pairRow cmd.fa cmd.fb).getD 0
  let kp := rowPass row
  let path := pairPath row cmd.mxa cmd.mxb
  let n := multiplyCols path cmd.n
  match cmd.op with
  | .smma =>
    let np := ceilDiv cmd.k (2 * kp)
    (List.range passes).foldl (fun acc j =>
      let (c1, f) := sparsePass path cmd.acc cmd.m n cmd.promo kp cmd.k j (y.operand (cmd.sa + j) cmd.ta j)
        (y.operand (cmd.sb + 2 * j) cmd.tb (2 * j)) (y.operand (cmd.sb + 2 * j + 1) cmd.tb (2 * j + 1))
        (slotBytes y.data (cmd.sa + np + j)) acc.1
      (c1, acc.2 ||| f)) (c, 0)
  | _ =>
    let c0 := if cmd.op = .mmz ∧ (passes ≠ 0 ∨ cmd.k = 0) then c.clearAcc cmd.acc else c
    (List.range passes).foldl (fun acc j =>
      let (c1, f) := onePass path cmd.acc cmd.m n cmd.promo (y.operand (cmd.sa + j) cmd.ta j) (y.operand (cmd.sb + j) cmd.tb j)
        (denseLanes kp cmd.k j) acc.1
      (c1, acc.2 ||| f)) (c0, 0)

/-- A multiply command: all its passes. -/
def multiply (y : Cluster) (cmd : AnvilCmd) (c : Accs) : Accs × Flags := multiplyFirst cmd.passes y cmd c

/-! ### Storing (R75, R322) -/

/-- Bytes per part of an ASTC type, 0 for a type it does not take (R322). -/
def storeBytes (t : Nat) : Nat :=
  match t with
  | 2 => 1 | 4 => 2 | 6 => 4 | 10 => 2 | 11 => 2 | 12 => 4 | 18 => 1 | 19 => 2 | 20 => 2 | 21 => 2 | 22 => 4
  | _ => 0

/-- Whether a type suits a path (R322). -/
def storeFits (path t : Nat) : Bool :=
  if path = pathFloat then t == 10 || t == 11 || t == 12
  else if path = pathInt then t == 2 || t == 4 || t == 6
  else if path = pathCFloat then t == 20 || t == 21 || t == 22
  else if path = pathCInt then t == 18 || t == 19
  else true

/-- The float format of a part of an ASTC type. -/
def storeFmt (t : Nat) : Fmt :=
  match t with
  | 10 => fmtF16 | 20 => fmtF16 | 11 => fmtBf16 | 21 => fmtBf16 | _ => fmtF32

/-- Every element of an accumulator promoted, and its count 0 (R75). -/
def Accs.promoteAll (c : Accs) (t m n : Nat) : Accs × Flags :=
  let live := (Sparse.between c.run (t * 1024) (t * 1024 + 1024)).map (·.1)
  let (c1, f) := live.foldl (fun acc key =>
    let (w, f) := promote (Sparse.get 0 acc.1.wide key) (Sparse.get 0 acc.1.run key)
    let inside := decide (key / 32 % 32 < m) && decide (key % 32 < n)
    ({ acc.1 with wide := Sparse.set 0 acc.1.wide key w, run := Sparse.set 0 acc.1.run key 0 },
      acc.2 ||| (if inside then f else 0))) (c, 0)
  ({ c1 with count := Sparse.set 0 c1.count t 0 }, f)

/-- One part of an accumulator converted for storing. -/
def storePart (path t wide : Nat) : Nat × Flags :=
  if path = pathFloat ∨ path = pathCFloat then (storeFmt t).put .rne (fmtF40.decode wide)
  else if path = pathInt ∨ path = pathCInt then
    let (x, sat) := clampInt true (8 * storeBytes t) (readInt true 48 wide)
    (truncInt x (8 * storeBytes t), flagIf sat flagSAT)
  else (0, 0)

/-- The columns a shape writes: two for each complex column. -/
def storeCols (t n : Nat) : Nat := if 18 ≤ t then min (2 * n) 32 else n

/-- What ASTC writes, row by row as offset and bytes, with the promoted accumulators and the flags (R322). -/
def storeRows (cmd : AnvilCmd) (path : Nat) (c : Accs) : Accs × List (Nat × List Byte) × Flags :=
  let b := storeBytes cmd.ty
  let cols := storeCols cmd.ty cmd.n
  let (c1, f0) := if path = pathFloat ∨ path = pathCFloat then c.promoteAll cmd.acc cmd.m cols else (c, 0)
  let row (m : Nat) : List (Nat × Flags) :=
    (List.range cols).map fun n => storePart path cmd.ty (Sparse.get 0 c1.wide (accKey cmd.acc m n))
  let rows := (List.range cmd.m).map fun m => (cmd.off + 32 * b * m, (row m).flatMap fun p => leBytes b p.1)
  let f := (List.range cmd.m).foldl (fun f m => (row m).foldl (fun f p => f ||| p.2) f) f0
  (c1, rows, f)

/-! ### Loading slots (R318) -/

/-- The bytes of the side table of an MX operand. -/
def sideBytes (f : Nat) (sparse : Bool) : Nat :=
  32 * (formatPass f / 32 * (if sparse then 2 else 1)) * (if f = 6 then 2 else 1)

/-- The bytes ALDB reads of a tcw operand, or any operand's data. -/
def dataBytes (f tadv : Nat) : Nat := if f = 13 then 32 * segmentBytes tadv else 3072

/-- What a load puts into a slot, from the data and side bytes of the tile. -/
def slotImage (f tadv tlen : Nat) (data side : List Byte) : List Byte × List Byte :=
  if f = 13 then
    let seg (n : Nat) : List Byte := (data.drop (n * segmentBytes tadv)).take (segmentBytes tadv)
    ((List.range 32).flatMap fun n =>
        (List.range 96).map fun k => BitVec.ofInt 8 (weightValue tadv tlen (segStream tadv (seg n)) k),
      (List.range 32).flatMap fun n => leBytes 2 (segScale tadv (seg n)))
  else (data, side)

/-- A slot with its bytes replaced. -/
def Cluster.loadSlot (y : Cluster) (s : Nat) (data side : List Byte) : Cluster :=
  { y with data := pokeBytes (pokeBytes y.data (4096 * s) data) (4096 * s + 3072) side }

end Sys2Proof.Machine
end

