-- ==== Sys2Proof/Machine/Homes.lean ====
section
/-! DEFINITION. The home caches, and the requests of accesses that reach many lines (05 R15, R92, R93, R97; 07 R118). -/

namespace Sys2Proof.Machine

/-! ### Who serves an access (R81 to R83, R92, R96, R98, R105) -/

/-- The core that holds a byte of cluster-shared memory (R82). -/
def clusterCore (y o : Nat) : Nat :=
  let j := o / 2 ^ 12 % 8
  (2 * (y / 4) + j / 4) * 16 + 4 * (y % 4) + j % 4

/-- The edge stops of the host link and the twin link (R16). -/
def hostStop : Nat := edge 7
def twinStop : Nat := edge 40

/-- The mesh address of the performing point of an access (R105). -/
def servedAt (p : Place) : Nat :=
  if p.global then
    if p.cacheable then homeCore p.loc else if inHost p.loc then hostStop else edge (l2Slice p.loc)
  else if p.loc < clusterWindow then (p.loc - coreWindow) / 2 ^ 24
  else if p.loc < chipWindow then clusterCore ((p.loc - clusterWindow) / 2 ^ 24) ((p.loc - clusterWindow) % 2 ^ 24)
  else if p.loc < twinWindow then edge (p.loc / 2 ^ 12 % 64)
  else twinStop

/-! ### Home caches (R15, R92, R93, R97) -/

/-- The lines a home cache holds: 64 KiB of 32 bytes. -/
def homeLines : Nat := 2048

/-- The bits of a line's bytes that n bytes at a location cover. -/
def byteMask (line loc n : Nat) : Nat :=
  (List.range 32).foldl (fun v b => if loc ≤ line * 32 + b ∧ line * 32 + b < loc + n then v + 2 ^ b else v) 0

/-- A line's written bytes go back to its L2 slice, with their mask (R97). -/
def State.writeBack (s : State) (m : Nat) (l : HomeLine) : State :=
  if l.mask = 0 then s else s.ask m (edge (l2Slice (l.line * 32))) (l.line * 32) true none l.mask

/-- A full home cache gives up a line, which one being free (log 49). -/
def State.evictHome (s : State) (m : Nat) : State :=
  let lines := (s.coreAt m).home
  if lines.length < homeLines then s
  else
    match lines[Config.victim s.free % homeLines]? with
    | none => s
    | some l => ((s.onCore m fun c => { c with home := c.home.erase l }).freshen 1).writeBack m l

/-- An access to a line at its home core: a hit, which event 7 counts (R384), or on a miss a read of its L2 slice (R92); the bytes it writes are
marked. -/
def State.homeAccess (s : State) (m line mask : Nat) : State :=
  if (s.coreAt m).home.any fun l => l.line == line then
    (s.tally m (s.lastOn m) 7 1).onCore m fun c => { c with home := c.home.map fun l => if l.line == line then { l with mask := l.mask ||| mask } else l }
  else
    ((s.ask m (edge (l2Slice (line * 32))) (line * 32) false none).evictHome m).onCore m fun c =>
      { c with home := c.home ++ [{ line := line, mask := mask }] }

/-- A line that an uncorrectable error keeps from being written back: it is reported to the host, what memory holds there is undefined, and a later
access by an engine faults MEM (R400, log 22). -/
def State.loseLine (s : State) (line : Nat) : State :=
  let s1 := (s.perform (line * 32) (s.freeBytes 32)).freshen 32
  { s1 with dev := { s1.dev with
      badLines := s1.dev.badLines.filter (· != line), lostLines := s1.dev.lostLines ++ [line], lostReports := s1.dev.lostReports ++ [line] } }

/-- A line of a fenced core's home cache written back, or lost. -/
def State.flushLine (s : State) (m : Nat) (l : HomeLine) : State :=
  if l.mask != 0 && s.dev.badLines.contains l.line then s.loseLine l.line else s.writeBack m l

/-- Every written line of a home cache goes back, and the cache is empty (R400). -/
def State.flushHome (s : State) (m : Nat) : State :=
  ((s.coreAt m).home.foldl (fun s l => s.flushLine m l) s).onCore m fun c => { c with home := [] }

/-- The lines of 2^z bytes that n bytes at a location touch. -/
def linesIn (z : Nat) (p : Place × Nat) : List Nat :=
  if p.2 = 0 then [] else (List.range ((p.1.loc + p.2 - 1) / 2 ^ z - p.1.loc / 2 ^ z + 1)).map (p.1.loc / 2 ^ z + ·)

/-- The requests of a vector memory instruction, a haul transfer or an engine's request block: one for each 32-byte line of scalar-cacheable
pages, to its home (R93); one for each 256-byte line of streaming pages, to its slice; one to each other place outside the core, and a number that
the spec does not give of further ones there (log 20). A write to a slice carries the mask of its bytes. -/
def State.requestLines (s : State) (m : Nat) (k : Option Nat) (wr : Bool) (ps : List (Place × Nat)) : State :=
  let cached := ps.filter fun p => p.1.global && p.1.cacheable
  let rest := ps.filter fun p => !(p.1.global && p.1.cacheable) && !(decide (coreWindow + m * 2 ^ 24 ≤ p.1.loc) && decide (p.1.loc < coreWindow + (m + 1) * 2 ^ 24))
  let homes := (cached.flatMap (linesIn 5)).eraseDups
  let slices := rest.filter fun p => p.1.global && inLpddr p.1.loc
  let lines := (slices.flatMap (linesIn 8)).eraseDups
  let mask (l : Nat) : Nat := if wr then cached.foldl (fun v p => v ||| byteMask l p.1.loc p.2) 0 else 0
  let mask8 (l : Nat) : Nat :=
    (List.range 8).foldl (fun v i => v ||| slices.foldl (fun u p => u ||| byteMask (8 * l + i) p.1.loc p.2) 0 * 2 ^ (32 * i)) 0
  let away := rest.filter fun p => p.2 != 0 && !(p.1.global && inLpddr p.1.loc) && servedAt p.1 != m
  let s1 := homes.foldl (fun s l =>
    let h := homeCore (l * 32)
    (if h = m then s else s.ask m h (l * 32) wr k).homeAccess h l (mask l)) s
  let s2 := lines.foldl (fun s l => s.ask m (edge (l2Slice (l * 256))) (l * 256) wr k (if wr then mask8 l else 0)) s1
  let s3 := ((away.map fun p => servedAt p.1).eraseDups).foldl (fun s t =>
    s.ask m t ((away.find? fun p => servedAt p.1 == t).map (·.1.loc) |>.getD 0) wr k) s2
  if away.isEmpty ∨ 256 ≤ m then s3 else s3.onCore m fun c => { c with unseen := c.unseen + 1 }

end Sys2Proof.Machine
end

