-- ==== Sys2Proof/Machine/Tiles.lean ====
section
/-! DEFINITION. The tile table that the engines share, and the accesses engines make (20_haul R295 to R301; 01_device R24). -/

namespace Sys2Proof.Machine

/-- The entry of a tile id, if it is defined for a job (R295). -/
def State.tile? (s : State) (m id job : Nat) : Option Tile :=
  match Sparse.get none (s.coreAt m).tiles id with
  | none => none
  | some t => if t.job = job then some t else none

def State.setTile (s : State) (m id : Nat) (t : Option Tile) : State :=
  s.onCore m fun c => { c with tiles := match t with | none => Sparse.erase c.tiles id | some t => Sparse.put c.tiles id (some t) }

def State.onTile (s : State) (m id : Nat) (f : Tile → Tile) : State :=
  match Sparse.get none (s.coreAt m).tiles id with
  | none => s
  | some t => s.setTile m id (some (f t))

/-- The location of a tile's first byte. -/
def tileLoc (m : Nat) (t : Tile) : Nat := coreWindow + m * 2 ^ 24 + t.off

/-- A tile that is busy holds the instruction that names it (R24). -/
def Tile.busy (t : Tile) : Bool := t.state == .filling || t.state == .draining

/-- The tile given back READY with no owner. -/
def Tile.release (t : Tile) : Tile := { t with state := .ready, owner := 0 }

/-- The tile given up EMPTY with no owner. -/
def Tile.giveUp (t : Tile) : Tile := { t with state := .empty, owner := 0 }

/-- The tile taken by an owner for filling or draining. -/
def Tile.take (t : Tile) (st : TileState) (owner : Nat) : Tile := { t with state := st, owner := owner }

/-- ARR counts up to 2^20 - 1 and stays there (R295). -/
def arrAdd (a n : Nat) : Nat := min (a + n) (2 ^ 20 - 1)

/-! ### Accesses of engines (R86, R99, R102) -/

/-- Where an engine's access for a strand goes. -/
def State.engineResolve (s : State) (m : Nat) (root : W64) (va : Nat) (acc : Acc) : Except Cause (Place × State) :=
  if privateVa va then .error .prot
  else if va < 2 ^ 49 then s.translate m root false va acc
  else
    match s.localPlace m 0 false va with
    | .ok p => .ok (p, s)
    | .error c => .error c

/-- The bytes from an address to the end of its 4 KiB page, at most n. -/
def pageRun (va n : Nat) : Nat := min n (4096 - va % 4096)

/-- Checks and translates n bytes page by page: the locations and lengths in order. -/
def State.engineSpan (s : State) (m : Nat) (root : W64) (acc : Acc) :
    Nat → Nat → Nat → Except Cause (List (Nat × Nat) × State)
  | 0, _, _ => .ok ([], s)
  | fuel + 1, va, n =>
    if n = 0 then .ok ([], s)
    else
      match s.engineResolve m root (va % 2 ^ 50) acc with
      | .error c => .error c
      | .ok (p, s1) =>
        match s1.engineSpan m root acc fuel (va + pageRun va n) (n - pageRun va n) with
        | .error c => .error c
        | .ok (ps, s2) => .ok ((p.loc, pageRun va n) :: ps, s2)

/-- n bytes by page. -/
def enginePieces : Nat → Nat → Nat → List (Nat × Nat)
  | 0, _, _ => []
  | fuel + 1, va, n =>
    if n = 0 then [] else (va % 2 ^ 50, pageRun va n) :: enginePieces fuel (va + pageRun va n) (n - pageRun va n)

/-- The requests that an engine sends from a place on the mesh for an access, translated at a core (R93, R118). -/
def State.engineRequests (s : State) (m src : Nat) (root : W64) (wr : Bool) (pieces : List (Nat × Nat)) : State :=
  let places := pieces.filterMap fun p =>
    match s.engineResolve m root p.1 (if wr then .write else .read) with
    | .ok (q, _) => some (q, p.2)
    | .error _ => none
  s.requestLines src none wr places

/-- An engine's access that ends in a fault has walked for what came before it, and for the piece that faults (R103). -/
def State.walkFaulting (s : State) (m : Nat) (root : W64) (acc : Acc) : List (Nat × Nat) → State
  | [] => s
  | p :: ps =>
    let s1 := if p.1 < 2 ^ 49 ∧ !(privateVa p.1) then s.askWalk m (bitsOf root 18 30 * 2 ^ 18) p.1 else s
    match s.engineResolve m root p.1 acc with
    | .ok _ => s1.walkFaulting m root acc ps
    | .error _ => s1

/-- How many pages n bytes can touch. -/
def spanFuel (n : Nat) : Nat := n / 4096 + 2

/-- The bytes of some runs. -/
def State.readRuns (s : State) (runs : List (Nat × Nat)) : List Byte := runs.flatMap fun r => s.readBytes r.1 r.2

/-- Stores bytes over some runs, each run one write. -/
def State.writeRuns (s : State) : List (Nat × Nat) → List Byte → State
  | [], _ => s
  | (a, n) :: rs, bs => (s.perform a (bs.take n)).writeRuns rs (bs.drop n)

def State.engineRead (s : State) (m : Nat) (root : W64) (va n : Nat) : Except Cause (List Byte × State) :=
  match s.engineSpan m root .read (spanFuel n) va n with
  | .error c => .error c
  | .ok (rs, s1) => .ok (s1.readRuns rs, s1)

def State.engineWrite (s : State) (m : Nat) (root : W64) (va : Nat) (bs : List Byte) : Except Cause State :=
  match s.engineSpan m root .write (spanFuel bs.length) va bs.length with
  | .error c => .error c
  | .ok (rs, s1) => .ok (s1.writeRuns rs bs)

/-- Bytes from a location on, cut where the aligned 64-byte chunks of R114 end. -/
def chunks : Nat → Nat → List Byte → List (Nat × List Byte)
  | 0, _, _ => []
  | k + 1, a, bs => if bs.isEmpty then [] else (a, bs.take (64 - a % 64)) :: chunks k (a + (64 - a % 64)) (bs.drop (64 - a % 64))

def chunksAt (a : Nat) (bs : List Byte) : List (Nat × List Byte) := chunks (bs.length / 64 + 2) a bs

/-- Bytes over some runs, chunk by chunk. -/
def runChunks : List (Nat × Nat) → List Byte → List (Nat × List Byte)
  | [], _ => []
  | (a, n) :: rs, bs => chunksAt a (bs.take n) ++ runChunks rs (bs.drop n)

/-- The chunks of stored rows, in a tile at a location. -/
def rowChunks (loc : Nat) (rows : List (Nat × List Byte)) : List (Nat × List Byte) := rows.flatMap fun r => chunksAt (loc + r.1) r.2

/-- Chunks perform in order, each in one write that wakes (R114, R179). -/
def State.performChunks (s : State) (cs : List (Nat × List Byte)) : State := cs.foldl (fun s c => s.perform c.1 c.2) s

/-- Some of the chunks, which ones being free. -/
def State.mixOf (s : State) (cs : List (Nat × List Byte)) : List (Nat × List Byte) := cs.filter fun c => Config.choice (s.free + c.1 / 64)

/-- Some of the chunks perform, which ones being free: a cut engine leaves any mix of old and new chunks, and no chunk in part (R114,
R221). -/
def State.performMix (s : State) (cs : List (Nat × List Byte)) : State := (s.performChunks (s.mixOf cs)).freshen (2 ^ 44)

/-- The bytes of some chunks. -/
def chunkBytes (cs : List (Nat × List Byte)) : Nat := cs.foldl (fun n c => n + c.2.length) 0

/-- How many chunks end at or before byte i of what they write. -/
def chunksBefore : Nat → List (Nat × List Byte) → Nat
  | _, [] => 0
  | i, c :: cs => if c.2.length ≤ i then chunksBefore (i - c.2.length) cs + 1 else 0

/-! ### Uncorrectable errors (R301, R325, R337, R363, R400) -/

/-- Bytes that a struck engine writes: undefined ones; off keeps the pieces of one step apart. -/
def State.blur (s : State) (struck : Bool) (off : Nat) (bs : List Byte) : List Byte :=
  if struck then (List.range bs.length).map fun i => Config.freeByte (s.free + off + i) else bs

/-- A free number of n bytes. -/
def State.freeNumber (s : State) (off n : Nat) : Nat := leNat ((List.range n).map fun i => Config.freeByte (s.free + off + i))

/-- The first byte of some runs that lies in a line lost at a fence. -/
def State.lostIn (s : State) (runs : List (Nat × Nat)) : Option Nat :=
  if s.dev.lostLines.isEmpty then none
  else (runs.flatMap fun r => (List.range r.2).map fun i => r.1 + i).findIdx? fun a => s.dev.lostLines.contains (a / 32)

/-! ### Haul transfers (R297 to R301) -/

/-- The fault code of a cause (R301). -/
def faultCode (c : Cause) : Nat :=
  match c with
  | .page => 2
  | _ => 3

def State.onXfer (s : State) (m chan id : Nat) (f : Xfer → Xfer) : State :=
  s.onCore m fun c => { c with xfers := c.xfers.map fun x => if x.chan == chan && x.id == id then f x else x }

/-- The transfers of a tile in flight, in one direction. -/
def State.tileXfers (s : State) (m tile : Nat) (drain : Bool) : Nat :=
  ((s.coreAt m).xfers.filter fun x => x.state == .inFlight && x.holds && x.tile == tile && x.drain == drain).length

/-- The lines of memory that a transfer reads or writes: how many of its leading bytes come before a lost one. -/
def State.xferLost (s : State) (x : Xfer) : Option Nat := s.lostIn x.spans

/-- What a transfer reads of its memory side: all ones from a twin whose link went down meanwhile (R394). -/
def State.xferRead (s : State) (x : Xfer) : List Byte :=
  if x.severed then
    x.spans.flatMap fun r => (s.readBytes r.1 r.2).zipIdx.map fun b => if inTwin (r.1 + b.2) then 0xFF else b.1
  else s.readRuns x.spans

/-- The chunks of a transfer that perform: of those for a twin whose link went down meanwhile any, which ones being free (R394). -/
def State.xferKept (s : State) (x : Xfer) (cs : List (Nat × List Byte)) : List (Nat × List Byte) :=
  if x.severed then cs.filter fun c => !(inTwin c.1) || Config.choice (s.free + c.1 / 64) else cs

/-- The chunks a transfer writes: from the runs its start translated to its tile, or the other way (R299, R104). -/
def State.xferWrites (s : State) (m : Nat) (x : Xfer) : List (Nat × List Byte) :=
  match Sparse.get none (s.coreAt m).tiles x.tile with
  | none => []
  | some t =>
    let tile := [(tileLoc m t + x.toff, x.len)]
    if x.drain then s.xferKept x (runChunks x.spans (s.readRuns tile)) else runChunks tile (s.xferRead x)

/-- The tile of a transfer that ends without completing (R296): a fill leaves it EMPTY, a drain READY, once no other is in flight. -/
def State.xferAbandonTile (s : State) (m : Nat) (x : Xfer) : State :=
  if !x.holds then s
  else if x.drain then
    if s.tileXfers m x.tile true = 0 then s.onTile m x.tile fun t => if t.state == .draining && t.owner == 1 then t.release else t else s
  else
    if s.tileXfers m x.tile false = 0 then s.onTile m x.tile fun t => if t.state == .filling && t.owner == 1 then t.giveUp else t else s

def State.chanAt (s : State) (m ch : Nat) : HaulChan := Sparse.get {} (s.coreAt m).chans ch

def State.onChan (s : State) (m ch : Nat) (f : HaulChan → HaulChan) : State :=
  s.onCore m fun c => { c with chans := Sparse.put c.chans ch (f (Sparse.get {} c.chans ch)) }

/-- M[c]: the smallest id of a channel whose transfer has not completed (R300). -/
def State.milestone (s : State) (m ch : Nat) : Nat :=
  ((s.coreAt m).xfers.filter fun x => x.chan == ch && x.state != .finished).foldl (fun a x => min a x.id) (s.chanAt m ch).next

/-- The transfers a milestone has passed are forgotten. -/
def State.trimXfers (s : State) (m : Nat) : State :=
  s.onCore m fun c => { c with xfers := c.xfers.filter fun x => x.state != .finished }

/-- A fault recorded in its channel, or discarded when one is recorded already (R301). -/
def State.recordFault (s : State) (m : Nat) (x : Xfer) (code : Nat) : State :=
  if (s.chanAt m x.chan).fault then s.onXfer m x.chan x.id fun y => { y with state := .discarded }
  else
    (s.onXfer m x.chan x.id fun y => { y with state := .faulted }).onChan m x.chan
      fun c => { c with fault := true, code := code, fid := x.id }

/-- Writing 0 to F (R302): the faulted transfer, and those discarded meanwhile, count as completed. -/
def State.clearHaulFault (s : State) (m ch : Nat) : State :=
  if (s.chanAt m ch).fault then
    ((s.onCore m fun c => { c with xfers := c.xfers.map fun x =>
      if x.chan == ch && (x.state == .faulted || x.state == .discarded) then { x with state := .finished } else x }).onChan m ch
      fun c => { c with fault := false }).trimXfers m
  else s

/-- A transfer ends in a fault (R296, R301). -/
def State.endXfer (s : State) (m : Nat) (x : Xfer) (code : Nat) : State := (s.recordFault m x code).xferAbandonTile m x

/-- A transfer cut under R221: an in-flight one leaves any mix of old and new chunks, and the milestone does not pass its id. -/
def State.cutXfer (s : State) (m : Nat) (x : Xfer) : State :=
  let s1 :=
    if x.state = .inFlight ∧ x.holds ∧ x.code = 0 then
      (s.performMix (s.xferWrites m x)).tally m x.key 14 (chunkBytes (s.mixOf (s.xferWrites m x)))
    else s
  s1.endXfer m x 8

end Sys2Proof.Machine
end

