-- ==== Sys2Proof/Machine/Coders.lean ====
section
/-! DEFINITION. What the trellis encoders and the coding engines read and write (22_trellis R333 to R337; 25_coding R354 to R364). -/

namespace Sys2Proof.Machine

/-! ### The trellis encoder -/

/-- The target k of column n of a TENC, as the exact value of its f32 (R336). -/
def tencTarget (bf : Bool) (bs : List Byte) : FV :=
  if bf then fmtBf16.decode (leNat bs) else fmtF32.decode (leNat bs)

/-- The 96 targets of column n, read from the source tile (R336). -/
def State.tencTargets (s : State) (cmd : TencCmd) (t : Tile) (n : Nat) : List FV :=
  let w := if cmd.bf then 2 else 4
  (List.range 96).map fun k => tencTarget cmd.bf (s.readBytes (tileLoc cmd.core t + cmd.soff + 96 * w * n + w * k) w)

/-- One segment encoded, and whether its column has a value that is not finite (R333, R335); both are undefined where an uncorrectable
error strikes the segment's reads (R337). -/
def State.tencSegment (s : State) (cmd : TencCmd) (t : Tile) (struck : Bool) (n : Nat) : List Byte × Bool :=
  let (bs, nv) := encodeColumn cmd.tadv cmd.tlen cmd.scale (s.tencTargets cmd t n)
  (s.blur struck (4096 * n) bs, if struck then Config.choice (s.free + 4096 * n) else nv)

/-- The first n segments of a TENC written, and NV raised if one of their columns asks for it; bit i of struck: an error strikes the reads of
segment i. -/
def State.tencRun (s : State) (cmd : TencCmd) (struck : Nat) (n : Nat) : State :=
  match Sparse.get none (s.coreAt cmd.core).tiles cmd.src, Sparse.get none (s.coreAt cmd.core).tiles cmd.dst with
  | some a, some b =>
    let segs := (List.range n).map fun i => s.tencSegment cmd a (struck.testBit i) i
    (s.performChunks (chunksAt (tileLoc cmd.core b + cmd.doff) (segs.flatMap (·.1)))).onCore cmd.core fun c =>
      { c with tflags := if segs.any (·.2) then c.tflags ||| 1 else c.tflags }
  | _, _ => s

/-- %tmile: the smallest TENC id of a core that has not completed (R332). -/
def Core.tmile (c : Core) : Nat := c.tencOpen.foldl Nat.min c.tencNext

/-- The milestone passes a TENC's id. -/
def State.tencPass (s : State) (cmd : TencCmd) : State :=
  s.onCore cmd.core fun c => { c with tencOpen := c.tencOpen.filter (· != cmd.id) }

/-- A TENC cut (R339): a number of whole segments of one in progress is written; the destination turns EMPTY, the source READY, and M
passes the id. -/
def State.cutTenc (s : State) (y : Nat) (cmd : TencCmd) : State :=
  let n := if cmd.started then ((List.range cmd.nseg).filter fun i => Config.choice (s.free + i)).length else 0
  let s1 := (s.tencRun cmd 0 n).freshen cmd.nseg
  (((s1.onTile cmd.core cmd.src Tile.release).onTile cmd.core cmd.dst Tile.giveUp).tencPass cmd).onCluster y
    fun c => { c with tenc := c.tenc.filter fun d => !(d.core == cmd.core && d.id == cmd.id) }

/-! ### Coding requests -/

namespace CodeReq

def w (r : CodeReq) (i : Nat) : W64 := r.words.getD i 0
/-- OP: 0 LDPC decode, 1 LDPC encode, 2 polar decode, 3 polar encode (R355). -/
def op (r : CodeReq) : Nat := bitsOf (r.w 0) 60 4
def crc (r : CodeReq) : Nat := bitsOf (r.w 0) 56 4
def iter (r : CodeReq) : Nat := bitsOf (r.w 0) 50 6
def et (r : CodeReq) : Bool := (r.w 0).getLsbD 49
def hq (r : CodeReq) : Bool := (r.w 0).getLsbD 48
def qm (r : CodeReq) : Nat := bitsOf (r.w 0) 42 4
def zc (r : CodeReq) : Nat := bitsOf (r.w 0) 32 9
def e (r : CodeReq) : Nat := bitsOf (r.w 1) 44 20
def kp (r : CodeReq) : Nat := bitsOf (r.w 1) 24 20
def tin (r : CodeReq) : Nat := bitsOf (r.w 2) 0 6
def inOff (r : CodeReq) : Nat := bitsOf (r.w 2) 32 20
def tout (r : CodeReq) : Nat := bitsOf (r.w 3) 0 6
def outOff (r : CodeReq) : Nat := bitsOf (r.w 3) 32 20
def hbuf (r : CodeReq) : Nat := bitsOf (r.w 4) 0 50
def raddr (r : CodeReq) : Nat := bitsOf (r.w 5) 0 50

/-- L_CRC (R356). -/
def crcLen (r : CodeReq) : Nat :=
  match r.crc with
  | 1 => 24 | 2 => 24 | 3 => 24 | 4 => 16 | 5 => 11 | 6 => 6 | _ => 0

/-- Whether the request decodes. -/
def decodes (r : CodeReq) : Bool := r.op % 2 == 0

/-- BG: base graph 2. -/
def bg2 (r : CodeReq) : Bool := (r.w 0).getLsbD 41

/-- The length N and the K information bits of an LDPC code (TS 38.212 clauses 5.2.2 and 5.3.2, log 10). -/
def ldpcN (r : CodeReq) : Nat := (if r.bg2 then 50 else 66) * r.zc
def ldpcK (r : CodeReq) : Nat := (if r.bg2 then 10 else 22) * r.zc

/-- N_cb: NCB, or the full circular buffer (R355). -/
def ncb (r : CodeReq) : Nat := if bitsOf (r.w 1) 0 24 ≠ 0 then bitsOf (r.w 1) 0 24 else r.ldpcN

/-- The output in bits, and the bytes of input and output (R356). -/
def outBits (r : CodeReq) : Nat := if r.decodes then r.kp - r.crcLen else r.e
def inBytes (r : CodeReq) : Nat := if r.decodes then r.e else ceilDiv (r.kp - r.crcLen) 8
def outBytes (r : CodeReq) : Nat := ceilDiv r.outBits 8

end CodeReq

/-- The bits that some bytes hold, in stream order (R55). -/
def unpackBits (bs : List Byte) : List Bool := bs.flatMap fun b => (List.range 8).map b.getLsbD

/-- n bytes of a stream of bits, with 0 past its end (R55, R356). -/
def packBits : Nat → List Bool → List Byte
  | 0, _ => []
  | n + 1, l => BitVec.ofNat 8 ((l.take 8).foldr (fun b v => b.toNat + 2 * v) 0) :: packBits n (l.drop 8)

/-- Exactly n bits of a stream. -/
def exactBits (n : Nat) (l : List Bool) : List Bool := (l ++ List.replicate n false).take n

/-- The generator polynomial of a CRC, without its leading term (R354; TS 38.212 clause 5.1, log 10). -/
def crcPoly (crc : Nat) : Nat :=
  match crc with
  | 1 => 0x864CFB | 2 => 0x800063 | 3 => 0xB2B117 | 4 => 0x1021 | 5 => 0x621 | 6 => 0x21 | _ => 0

/-- The remainder of one more bit. -/
def crcStep (n poly rem : Nat) (b : Bool) : Nat :=
  if rem.testBit (n - 1) != b then rem * 2 % 2 ^ n ^^^ poly else rem * 2 % 2 ^ n

/-- The CRC of some bits, first parity bit first. -/
def CodeReq.crcBits (r : CodeReq) (bits : List Bool) : List Bool :=
  let rem := bits.foldl (crcStep r.crcLen (crcPoly r.crc)) 0
  (List.range r.crcLen).map fun i => rem.testBit (r.crcLen - 1 - i)

/-! ### Rate matching (R354, R357; TS 38.212 clauses 5.4.1 and 5.4.2, log 10) -/

/-- A list repeated up to n elements. -/
def cycled (n : Nat) (l : List Nat) : List Nat := if l.isEmpty then [] else (List.replicate (n / l.length + 1) l).flatten.take n

/-- The elements of a list at some places. -/
def pickAll [Inhabited α] (l : List α) (ps : List Nat) : List α :=
  let a := l.toArray
  ps.map fun i => a.getD i default

/-- Received values added to the places they are for, each addition saturating in i8: what de-rate-matching gives n positions (R357, log 10). -/
def gathered (n : Nat) (ps : List Nat) (xs : List Int) : List Int :=
  ((ps.zip xs).foldl (fun (a : Array Int) p => a.modify p.1 fun v => (clampInt true 8 (v + p.2)).1) (Array.replicate n 0)).toList

namespace CodeReq

/-- Where the bit selection of an LDPC code begins in the circular buffer, by RV (clause 5.4.2.1). -/
def k0 (r : CodeReq) : Nat :=
  let q := match bitsOf (r.w 0) 46 2 with
    | 0 => 0
    | 1 => if r.bg2 then 13 else 17
    | 2 => if r.bg2 then 25 else 33
    | _ => if r.bg2 then 43 else 56
  q * r.ncb / r.ldpcN * r.zc

/-- Whether a position of the circular buffer is a filler bit. -/
def filler (r : CodeReq) (i : Nat) : Bool := decide (r.kp - 2 * r.zc ≤ i) && decide (i < r.ldpcK - 2 * r.zc)

/-- The positions of an LDPC code word in the order their bits are sent: selected from k0 on without the fillers, then interleaved by Q_m (clauses
5.4.2.1 and 5.4.2.2). -/
def ldpcOrder (r : CodeReq) : List Nat :=
  let ring := ((List.range r.ncb).map fun j => (r.k0 + j) % r.ncb).filter fun i => !(r.filler i)
  pickAll (cycled r.e ring) ((List.range r.e).map fun t => t % r.qm * (r.e / r.qm) + t / r.qm)

end CodeReq

/-- The base-2 logarithm of a number, rounded up. -/
def log2Up (n : Nat) : Nat := if 2 ^ Nat.log2 n < n then Nat.log2 n + 1 else Nat.log2 n

/-- The sub-block interleaver's pattern (clause 5.4.1.1). -/
def subBlocks : List Nat :=
  [0, 1, 2, 4, 3, 5, 6, 7, 8, 16, 9, 17, 10, 18, 11, 19, 12, 20, 13, 21, 14, 22, 15, 23, 24, 25, 26, 28, 27, 29, 30, 31]

/-- The sums that a polar code word has of its inputs: the kernel of clause 5.3.1.2, n levels deep. -/
def polarTransform : Nat → List Bool → List Bool
  | 0, u => u
  | n + 1, u =>
    polarTransform n (List.zipWith (· != ·) (u.take (2 ^ n)) (u.drop (2 ^ n))) ++ polarTransform n (u.drop (2 ^ n))

namespace CodeReq

/-- The logarithm of a polar code's length (clause 5.3.1). -/
def polarLog (r : CodeReq) : Nat :=
  let l := log2Up r.e
  let n1 := if 8 * r.e ≤ 9 * 2 ^ (l - 1) ∧ 16 * r.kp < 9 * r.e then l - 1 else l
  max 5 (min (min n1 (log2Up (8 * r.kp))) (bitsOf (r.w 0) 34 4))

def polarN (r : CodeReq) : Nat := 2 ^ r.polarLog

/-- The code word's position at place n behind the sub-block interleaver. -/
def subBlock (r : CodeReq) (n : Nat) : Nat := subBlocks.getD (32 * n / r.polarN) 0 * (r.polarN / 32) + n % (r.polarN / 32)

/-- Whether the bits of a polar code that are not sent are its last ones, which are then 0: shortening (clause 5.4.1.2). -/
def shortened (r : CodeReq) : Bool := decide (r.e < r.polarN) && decide (7 * r.e < 16 * r.kp)

/-- Bits selected by repetition, puncturing or shortening (clause 5.4.1.2). -/
def polarSelected (r : CodeReq) : List Nat :=
  (List.range r.e).map fun k =>
    r.subBlock (if r.polarN ≤ r.e then k % r.polarN else if r.shortened then k else k + r.polarN - r.e)

/-- The side of the triangle of the channel interleaver (clause 5.4.1.3). -/
def side (r : CodeReq) : Nat := ((List.range (r.e + 1)).find? fun t => decide (r.e ≤ t * (t + 1) / 2)).getD 0

/-- The positions of a polar code word in the order their bits are sent, through the triangle with I_BIL (clause 5.4.1.3). -/
def polarOrder (r : CodeReq) : List Nat :=
  if (r.w 0).getLsbD 40 then
    pickAll r.polarSelected ((List.range r.side).flatMap fun j =>
      ((List.range (r.side - j)).map fun i => i * r.side - i * (i - 1) / 2 + j).filter fun k => decide (k < r.e))
  else r.polarSelected

/-- Whether a request is for LDPC. -/
def ldpc (r : CodeReq) : Bool := decide (r.op ≤ 1)

/-- The positions of a code word in the order their bits are sent, and how many it has. -/
def order (r : CodeReq) : List Nat := if r.ldpc then r.ldpcOrder else r.polarOrder
def positions (r : CodeReq) : Nat := if r.ldpc then r.ncb else r.polarN

/-- The code word of K' bits: of an LDPC code the bits behind the first two of its K, with fillers of 0, and its parity bits. -/
def codeWord (r : CodeReq) (bits : List Bool) : List Bool :=
  if r.ldpc then
    let c := exactBits r.ldpcK bits
    exactBits r.ldpcN (c.drop (2 * r.zc) ++ Config.ldpcParity r.words c)
  else polarTransform r.polarLog (exactBits r.polarN (Config.polarInput r.words bits))

/-- The positions whose bit is known to be 0: fillers (R356), and those that shortening leaves out. -/
def certain (r : CodeReq) (i : Nat) : Bool :=
  if r.ldpc then r.filler i else r.shortened && ((List.range (r.polarN - r.e)).any fun k => r.subBlock (r.e + k) == i)

/-- What a decoder is given: a positive LLR favours 0, and certain positions are 0 (R356). -/
def favoured (r : CodeReq) (soft : List Int) : List (Bool × Option Nat) :=
  soft.zipIdx.map fun x => if r.certain x.2 then (false, none) else (decide (x.1 < 0), some x.1.natAbs)

/-- The soft values of a decode: the input de-rate-matched, and with HQ added to the stored values by sat_i8 (R357). -/
def soft (r : CodeReq) (llrs stored : List Int) : List Int :=
  let new := gathered r.positions r.order llrs
  if r.hq then List.zipWith (fun a b => (clampInt true 8 (a + b)).1) new stored else new

end CodeReq

/-- An LLR of -128 reads as -127 (R356). -/
def readLlr (b : Byte) : Byte := if b = 0x80 then 0x81 else b

/-- What a request reads: its input, and the soft buffer when it combines (R356, R357). -/
def State.codeInput (s : State) (r : CodeReq) : List Byte :=
  match Sparse.get none (s.coreAt r.core).tiles r.tin with
  | none => []
  | some t =>
    let bs := s.readBytes (tileLoc r.core t + r.inOff) r.inBytes
    if r.decodes then bs.map readLlr else bs

/-- What a request computes: output, soft buffer, EARLY, CRCOK, ITERS and STATUS (R361). -/
structure Coded where
  out : List Byte
  buffer : List Byte
  early : Bool
  crcok : Bool
  iters : Nat
  status : Nat

/-- An encode: the CRC is attached and the code word rate-matched (R356). -/
def CodeReq.encode (r : CodeReq) (inp : List Byte) : Coded :=
  let info := exactBits (r.kp - r.crcLen) (unpackBits inp)
  { out := packBits r.outBytes (exactBits r.outBits (pickAll (r.codeWord (info ++ r.crcBits info)) r.order))
    buffer := [], early := false, crcok := r.crc == 0 || Config.codingCrcok r.words, iters := 0, status := 1 }

/-- A decode: the CRC is checked, and with ET the decoder stops once that and every parity check hold (R355 to R357, R361). -/
def CodeReq.decode (r : CodeReq) (inp buf : List Byte) : Coded :=
  let llrs := inp.map (·.toInt)
  let soft := r.soft llrs (buf.map (·.toInt))
  let bits := exactBits r.kp (Config.codingDecode r.words (r.favoured soft))
  let info := bits.take (r.kp - r.crcLen)
  let crcok := r.crc == 0 || r.crcBits info == bits.drop (r.kp - r.crcLen)
  let parity := r.op != 0 || Config.codingParity r.words (r.favoured soft)
  let iters := if r.op ≠ 0 then 0 else if r.et && crcok && parity then min (1 + Config.codingIters r.words (r.favoured soft)) r.iter else r.iter
  { out := packBits r.outBytes info
    buffer := soft.map (BitVec.ofInt 8)
    early := r.op == 0 && decide (iters < r.iter), crcok := crcok, iters := iters, status := if crcok && parity then 1 else 2 }

/-- The results of a request from what it reads (R354, R361, log 10). -/
def CodeReq.run (r : CodeReq) (inp buf : List Byte) : Coded := if r.decodes then r.decode inp buf else r.encode inp

/-- The runs of the soft buffer, in LPDDR-6 of global memory or a PROT fault (R357). -/
def State.codeBuffer (s : State) (r : CodeReq) : Except Cause (List (Nat × Nat) × State) :=
  if r.hbuf = 0 then .ok ([], s)
  else if 2 ^ 49 < r.hbuf + r.ncb then .error .prot
  else
    match s.engineSpan r.core r.root .write (spanFuel r.ncb) r.hbuf r.ncb with
    | .error c => .error c
    | .ok (rs, s1) => if rs.all fun x => inLpddr x.1 then .ok (rs, s1) else .error .prot

/-- Where the result double-word goes, if the block names a place: in global memory (R24, R361), else PROT (log 10). -/
def State.codeResultPlace (s : State) (r : CodeReq) : Except Cause (Option Nat × State) :=
  if r.raddr = 0 then .ok (none, s)
  else if 2 ^ 49 ≤ r.raddr then .error .prot
  else
    match s.engineResolve r.core r.root r.raddr .write with
    | .error c => .error c
    | .ok (p, s1) => .ok (some p.loc, s1)

/-- The code of the fault a request meets, if it meets one (R359, R363): a translation, or a line lost at a fence. -/
def State.codeFault (s : State) (r : CodeReq) : Option Nat :=
  match s.codeBuffer r with
  | .error c => some (faultCode c)
  | .ok (rs, s1) =>
    if (s.lostIn rs).isSome then some 7
    else
      match s1.codeResultPlace r with
      | .error c => some (faultCode c)
      | .ok (some loc, _) => if (s.lostIn [(loc, 8)]).isSome then some 7 else none
      | .ok (none, _) => none

/-- %cmile: the smallest id of a core's coding requests that has not completed (R359). -/
def Core.cmile (c : Core) : Nat := c.codeOpen.foldl Nat.min c.codeNext

/-- The milestone passes a request's id, and the request leaves its engine. -/
def State.codePass (s : State) (r : CodeReq) : State :=
  s.onCore r.core fun c => { c with codeOpen := c.codeOpen.filter (· != r.id) }

def State.codeLeave (s : State) (y : Nat) (r : CodeReq) : State :=
  { s with coding := Sparse.put s.coding y ((Sparse.get [] s.coding y).filter fun q => !(q.core == r.core && q.id == r.id)) }

/-- The result double-word (R361). -/
def codeResult (r : CodeReq) (early crcok : Bool) (iters status : Nat) : Nat :=
  r.id % 2 ^ 32 * 2 ^ 32 + (if early then 2 ^ 15 else 0) + (if crcok then 2 ^ 14 else 0) + iters * 256 + status

/-- A tile's bytes as a place. -/
def State.tilePlace (s : State) (m tile off n : Nat) : List (Place × Nat) :=
  match Sparse.get none (s.coreAt m).tiles tile with
  | none => []
  | some t => [({ loc := tileLoc m t + off }, n)]

/-- The requests that an engine sends from its stop for a request's input, its soft buffer and its output (R118). -/
def State.codeRequests (s : State) (y : Nat) (r : CodeReq) : State :=
  let buf := if r.hbuf = 0 then [] else enginePieces (spanFuel r.ncb) r.hbuf r.ncb
  let s1 := s.requestLines (codingStop y) none false (s.tilePlace r.core r.tin r.inOff r.inBytes)
  let s2 := if r.hq then s1.engineRequests r.core (codingStop y) r.root false buf else s1
  (s2.engineRequests r.core (codingStop y) r.root true buf).requestLines (codingStop y) none true
    (s.tilePlace r.core r.tout r.outOff r.outBytes)

/-- The chunks of its output and its soft buffer that a request has issued when it stops: which ones is free (R363, R364). -/
def State.codeChunks (s0 : State) (y : Nat) (r : CodeReq) : State :=
  let s := s0.codeRequests y r
  let inp := s.codeInput r
  match s.codeBuffer r with
  | .error _ => s
  | .ok (rs, sb) =>
    let c := r.run inp (if r.hq then sb.readRuns rs else [])
    let sc := if r.hbuf = 0 then sb else sb.performMix (runChunks rs c.buffer)
    match Sparse.get none (sc.coreAt r.core).tiles r.tout with
    | none => sc
    | some t => sc.performMix (chunksAt (tileLoc r.core t + r.outOff) c.out)

/-- A request cut (R364): the chunks already issued of its output and its soft buffer perform, the output turns EMPTY, the input READY,
the result word is written with CUT, and M passes the id. -/
def State.cutCode (s : State) (y : Nat) (r : CodeReq) : State :=
  let s1 := if r.started then s.codeChunks y r else s
  let s2 := (s1.onTile r.core r.tin Tile.release).onTile r.core r.tout Tile.giveUp
  let s3 :=
    match s2.codeResultPlace r with
    | .ok (some loc, s3) =>
      -- how many iterations a cut decode had run is free
      let iters := if r.op = 0 ∧ r.started then s3.freeByte.toNat % (r.iter + 1) else 0
      (s3.performNat loc 8 (codeResult r false (r.crc == 0) iters 3)).freshen 1
    | _ => s2
  (s3.codePass r).codeLeave y r

end Sys2Proof.Machine
end

