-- ==== Sys2Proof/Machine/Ports.lean ====
section
/-! DEFINITION. Arm and send records, and the frames that a send puts out (24_fronthaul R345, R346, R349). -/

namespace Sys2Proof.Machine

/-! ### Records (R345) -/

/-- The fields of the first two words of a record, or of a section's headers. -/
structure FhFields where
  eaxc : Nat
  frame : Nat
  subf : Nat
  slot : Nat
  sym0 : Nat
  nsym : Nat
  mode : Nat
  width : Nat
  port : Nat
  half : Nat
  prb0 : Nat
  nprb : Nat
  off : Nat
deriving DecidableEq

def fhFields (w0 w1 : W64) : FhFields where
  eaxc := bitsOf w0 48 16
  frame := bitsOf w0 40 8
  subf := bitsOf w0 36 4
  slot := bitsOf w0 30 6
  sym0 := bitsOf w0 26 4
  nsym := bitsOf w0 21 5
  mode := bitsOf w0 18 3
  width := bitsOf w0 14 4
  port := bitsOf w0 11 3
  half := bitsOf w0 10 1
  prb0 := bitsOf w1 48 16
  nprb := bitsOf w1 32 16
  off := bitsOf w1 12 20

def FhItem.w (f : FhItem) (i : Nat) : W64 := f.words.getD i 0
def FhItem.fields (f : FhItem) : FhFields := fhFields (f.w 0) (f.w 1)
/-- START of a window, LAUNCH of a send. -/
def FhItem.start (f : FhItem) : Nat := (f.w 2).toNat
def FhItem.stop (f : FhItem) : Nat := (f.w 3).toNat

/-- Z: the bytes of a slot (R346). -/
def FhFields.z (f : FhFields) : Nat := if f.mode = 1 then 64 else 48

/-- R of a window, or the bytes of a built send. -/
def FhFields.bytes (f : FhFields) (isSend : Bool) : Nat := f.nsym * f.nprb * (if isSend then 48 else f.z)

/-! ### Raw frames (R349) -/

/-- The raw frames of a send in its tile: whether they lie within the tile, and the frames up to the first bad length. -/
def State.rawFrames (s : State) (loc len : Nat) : Nat → Nat → Bool × List (List Byte)
  | 0, _ => (true, [])
  | n + 1, pos =>
    if len < pos + 2 then (false, [])
    else
      let size := s.readNat (loc + pos) 2
      if size < 64 ∨ 9216 < size then (true, [])
      else if len < pos + 2 + size then (false, [])
      else
        let (ok, fs) := s.rawFrames loc len n ((pos + 2 + size + 63) / 64 * 64)
        (ok, s.readBytes (loc + pos + 2) size :: fs)

/-- One item of a core changed. -/
def State.onFh (s : State) (m handle : Nat) (g : FhItem → FhItem) : State :=
  s.onCore m fun c => { c with fh := c.fh.map fun f => if f.handle == handle then g f else f }

/-! ### Sends (R349) -/

/-- x / 2^e rounded half-even. -/
def halfEven (x : Int) (e : Nat) : Int :=
  let d : Int := 2 ^ e
  let q := x / d
  let r := x - q * d
  if 2 * r < d then q else if d < 2 * r then q + 1 else if q % 2 = 0 then q else q + 1

/-- Whether a value fits a signed width. -/
def fitsSigned (w : Nat) (x : Int) : Bool := decide (-(2 ^ (w - 1) : Int) ≤ x) && decide (x < (2 ^ (w - 1) : Int))

/-- The exponent of a PRB: the smallest for which every part fits. -/
def prbExponent (width : Nat) (xs : List Int) : Nat :=
  ((List.range 16).find? fun e => xs.all fun x => fitsSigned width (halfEven x e)).getD 15

/-- The bytes of a number, big-endian. -/
def beBytes (n v : Nat) : List Byte := (leBytes n v).reverse

/-- A PRB as it is sent. -/
def buildPrb (width : Nat) (xs : List Int) : List Byte :=
  if width = 0 then xs.flatMap fun x => beBytes 2 (truncInt x 16)
  else
    let e := prbExponent width xs
    let body := xs.foldl (fun n x => n * 2 ^ width + truncInt (halfEven x e) width) 0
    BitVec.ofNat 8 e :: beBytes (3 * width) body

/-- The 24 parts of a PRB in a tile. -/
def State.prbParts (s : State) (loc : Nat) : List Int := (List.range 24).map fun i => readInt true 16 (s.readNat (loc + 2 * i) 2)

/-- Pieces of n of a list. -/
def piecesOf (n : Nat) : Nat → List α → List (List α)
  | 0, _ => []
  | k + 1, l => if l.isEmpty then [] else l.take n :: piecesOf n k (l.drop n)

/-- The bytes of a PRB as it is sent. -/
def FhFields.prbBytes (f : FhFields) : Nat := if f.width = 0 then 48 else 1 + 3 * f.width

/-- How many PRBs a message of at most 9,216 bytes carries; what its headers take is not in the spec (log 29). -/
def FhFields.perMessage (f : FhFields) : Nat := max 1 ((9216 - Config.uplaneHeader) / f.prbBytes)

/-- The counter of ecpriSeqId that a send's messages take: one for each port and eAxC id (log 29). -/
def FhFields.seqKey (f : FhFields) : Nat := f.port * 65536 + f.eaxc

/-- The section of a message: n PRBs from the i-th one of a send's symbol on. -/
def FhFields.sectionOf (f : FhFields) (symbol i n : Nat) : SentSection where
  eaxc := f.eaxc
  frame := f.frame
  subf := f.subf
  slot := f.slot
  sym := f.sym0 + symbol
  prb0 := f.prb0 + i
  nprb := n
  width := f.width

/-- What a send sends: its raw frames, or the messages of each symbol, whole PRBs in order (R349). -/
def State.sendData (s : State) (f : FhItem) : List TxFrame :=
  match Sparse.get none (s.coreAt f.core).tiles f.tile with
  | none => []
  | some t =>
    let g := f.fields
    let loc := tileLoc f.core t
    let out (bs : List Byte) (m : Option SentSection) : TxFrame := { port := g.port, half := g.half, message := m, bytes := bs }
    if g.mode = 1 then (s.rawFrames loc t.len g.nprb g.off).2.map fun bs => out bs none
    else
      let symbol (i : Nat) : List (List Byte) :=
        (List.range g.nprb).map fun n => buildPrb g.width (s.prbParts (loc + g.off + (i * g.nprb + n) * 48))
      let messages := (List.range g.nsym).flatMap fun i =>
        ((piecesOf g.perMessage g.nprb (symbol i)).zipIdx).map fun x => (g.sectionOf i (x.2 * g.perMessage) x.1.length, x.1)
      messages.zipIdx.map fun x =>
        out (x.1.2.flatMap id) (some { x.1.1 with seq := (Sparse.get 0 s.dev.fhSeq g.seqKey + x.2) % 2 ^ 16 })

/-- The bytes that a frame counts: a message's headers are counted with its PRBs (log 29). -/
def TxFrame.size (x : TxFrame) : Nat := x.bytes.length + if x.message.isSome then Config.uplaneHeader else 0

/-- Frames that leave one after another between two times, each with the timestamp of its start, to the nanosecond (R342): when exactly each one
leaves the spec does not say, and it is free (log 29). -/
def State.stamped (s : State) (hi : Nat) : Nat → Nat → List TxFrame → List TxFrame
  | _, _, [] => []
  | i, lo, x :: xs =>
    let t := lo + s.freeNumber (8 * i) 8 % (hi - lo + 1)
    { x with stamp := t } :: s.stamped hi (i + 1) t xs

/-- Frames of a send leave its port. -/
def State.putOut (s0 : State) (f : FhItem) (data : List TxFrame) : State :=
  let fs := s0.stamped s0.dev.time.toNat 0 f.launchedAt data
  let s := s0.freshen (8 * data.length)
  let n := Sparse.get 0 s.dev.fhSeq f.fields.seqKey + (fs.filter fun x => x.message.isSome).length
  let s1 := s.onFh f.core f.handle fun g => { g with sent := g.sent + fs.foldl (fun n x => n + x.size) 0 }
  { s1 with dev := { s1.dev with sent := s1.dev.sent ++ fs, fhSeq := Sparse.set 0 s1.dev.fhSeq f.fields.seqKey n } }

end Sys2Proof.Machine
end

