-- ==== Sys2Proof/Machine/Tracts.lean ====
section
/-! DEFINITION. The tract map, records and halos of wayfarers (27_wayfarers R365 to R374). -/

namespace Sys2Proof.Machine

/-- Boundaries of the map. -/
def TractMap.x (m : TractMap) (i : Nat) : Nat := m.xb.getD i 0
def TractMap.y (m : TractMap) (c i : Nat) : Nat := m.yb.getD (17 * c + i) 0

/-- The index i < 16 with bound i ≤ v < bound (i + 1). -/
def findSpan (bound : Nat → Nat) (v : Nat) : Option Nat :=
  (List.range 16).find? fun i => decide (bound i ≤ v) && decide (v < bound (i + 1))

/-- The core whose tract holds a pair, if the pair is hostable (R365). -/
def TractMap.host (m : TractMap) (x y : Nat) : Option Nat :=
  match findSpan m.x x with
  | none => none
  | some c =>
    match findSpan (m.y c) y with
    | none => none
    | some r => some (r * 16 + c)

/-- The distance from a coordinate to a span, none to an empty one (R373). -/
def spanDistance (lo hi v : Nat) : Option Nat :=
  if lo = hi then none
  else if lo ≤ v ∧ v < hi then some 0
  else if v < lo then some (lo - v)
  else some (v - (hi - 1))

/-- The Chebyshev distance from a pair to a core's tract (R373). -/
def TractMap.distance (m : TractMap) (core x y : Nat) : Option Nat :=
  let c := core % 16
  let r := core / 16
  match spanDistance (m.x c) (m.x (c + 1)) x, spanDistance (m.y c r) (m.y c (r + 1)) y with
  | some ex, some ey => some (max ex ey)
  | _, _ => none

/-- The up to eight cores around a core. -/
def around (core : Nat) : List Nat :=
  (List.range 256).filter fun m =>
    m != core && decide (m % 16 ≤ core % 16 + 1) && decide (core % 16 ≤ m % 16 + 1)
      && decide (m / 16 ≤ core / 16 + 1) && decide (core / 16 ≤ m / 16 + 1)

/-- The cores whose halo a record of a host enters, under the host's copy of the map (R373). -/
def haloCores (m : TractMap) (dist host : Nat) (r : WayRecord) : List Nat :=
  (around host).filter fun k =>
    match m.distance k r.x r.y with
    | some d => decide (d ≤ dist)
    | none => false

/-- %halo.DIST. -/
def State.haloDist (s : State) : Nat := bitsOf (s.dev.crGet 0x3C3) 0 16

/-- The words of a record (R368). -/
def WayRecord.words (r : WayRecord) : List W64 :=
  [BitVec.ofNat 64 (r.x * 2 ^ 48 + r.y * 2 ^ 32 + r.key % 4096), r.u1, r.u2, r.u3]

/-- The record's 32 bytes. -/
def WayRecord.bytes (r : WayRecord) : List Byte := r.words.flatMap fun w => leBytes 8 w.toNat

/-- A change sent to one halo, as a MSG message (R373). -/
def State.sendHalo (s : State) (h : HaloMsg) : State :=
  let s1 := s.sendMsg .halo (some h.record.key) h.src h.dst h.record.words
  { s1 with way := { s1.way with halo := s1.way.halo ++ [h] } }

/-- A host sends copies of a record to some cores, and its removal to others. -/
def State.tell (s : State) (host : Nat) (r : WayRecord) (new gone : List Nat) : State :=
  let bare : WayRecord := { r with copies := [] }
  gone.foldl (fun s k => s.sendHalo { src := host, dst := k, record := bare, remove := true })
    (new.foldl (fun s k => s.sendHalo { src := host, dst := k, record := bare }) s)

/-- A strand and its job: a pre-empted wayfarer keeps its record and its place while other work runs in its slot (R204). -/
def State.who (s : State) (k : Nat) : Nat × Nat := (k, (s.ctxAt k).job)

/-- Whether a record is a wayfarer's. -/
def WayRecord.isOf (r : WayRecord) (w : Nat × Nat) : Bool := r.key == w.1 && r.job == w.2

/-- The record of a wayfarer on a core. -/
def State.wayRecord (s : State) (m : Nat) (w : Nat × Nat) : Option WayRecord := (s.coreAt m).records.find? (·.isOf w)

/-- The record of a strand on a core. -/
def State.record? (s : State) (m k : Nat) : Option WayRecord := s.wayRecord m (s.who k)

/-- A wayfarer's record taken off a core. -/
def State.takeRecord (s : State) (m : Nat) (w : Nat × Nat) : State :=
  s.onCore m fun c => { c with records := c.records.filter fun r => !(r.isOf w) }

/-- A record put on its host in place of the wayfarer's old one, with the cores its copies are to stand in. -/
def State.setRecord (s : State) (m : Nat) (r : WayRecord) (copies : List Nat) : State :=
  (s.takeRecord m (r.key, r.job)).onCore m fun c => { c with records := c.records ++ [{ r with copies := copies }] }

/-- Elements of one list that another lacks. -/
def without (xs ys : List Nat) : List Nat := xs.filter fun k => !(ys.contains k)

/-- A record that has changed: the change goes to the halos it enters or keeps, its removal to those where a copy stands that it leaves (R373). -/
def State.putRecord (s : State) (m : Nat) (r : WayRecord) : State :=
  let old := match s.wayRecord m (r.key, r.job) with | some o => o.copies | none => []
  let new := haloCores (s.coreAt m).map s.haloDist m r
  (s.setRecord m r new).tell m r new (without old new)

/-- A record that has not changed under a map or a halo width that has: copies to the halos it enters, removals to those it leaves (R382). -/
def State.reviseRecord (s : State) (m : Nat) (r : WayRecord) : State :=
  let new := haloCores (s.coreAt m).map s.haloDist m r
  (s.setRecord m r new).tell m r (without new r.copies) (without r.copies new)

/-- Every record that a core hosts looked at again. -/
def State.reviseCore (s : State) (m : Nat) : State := (s.coreAt m).records.foldl (fun s r => s.reviseRecord m r) s

/-- Every record of the device looked at again: %halo.DIST has changed, DEDUCED that the copies follow it (log 59). -/
def State.reviseAll (s : State) : State := (s.core.map (·.1)).foldl (fun s m => s.reviseCore m) s

/-- A record goes from its core, and from every halo where a copy stands. -/
def State.eraseRecord (s : State) (m : Nat) (o : WayRecord) : State := (s.takeRecord m (o.key, o.job)).tell m o [] o.copies

/-- Takes a strand's record off a core. -/
def State.dropRecord (s : State) (m k : Nat) : State :=
  match s.record? m k with
  | none => s
  | some o => s.eraseRecord m o

/-- The wayfarers that count in a core's tract (R371). -/
def State.tractCount (s : State) (m : Nat) : Nat := (s.way.counts.filter fun p => p.1 == m).length

/-- The tract a wayfarer counts in. -/
def State.countsIn (s : State) (w : Nat × Nat) : Option Nat := (s.way.counts.find? fun p => p.2 == w).map (·.1)

/-- The tracts a wayfarer leaves when it no longer counts where it did: requests that wait for room are tried again (R371). -/
def WayUnit.leaves (u : WayUnit) (w : Nat × Nat) : List Nat := (u.counts.filter fun p => p.2 == w).map (·.1)

/-- A wayfarer counted in a tract and in no other. -/
def State.countIn (s : State) (m : Nat) (w : Nat × Nat) : State :=
  { s with way := { s.way with
      counts := (s.way.counts.filter fun p => p.2 != w) ++ [(m, w)]
      left := s.way.left ++ (s.way.leaves w).filter (· != m) } }

/-- A wayfarer counted nowhere, its reservation given up. -/
def State.uncount (s : State) (w : Nat × Nat) : State :=
  { s with way := { s.way with
      counts := s.way.counts.filter fun p => p.2 != w
      left := s.way.left ++ s.way.leaves w
      slots := s.way.slots.filter fun p => p.2 != w } }

/-- A strand's request at the tract map unit withdrawn, and its answer (R371). -/
def State.withdraw (s : State) (k : Nat) : State :=
  { s with way := { s.way with
      asking := s.way.asking.filter fun r => r.key != k
      requests := s.way.requests.filter fun r => r.key != k
      waiting := s.way.waiting.filter fun r => r.key != k
      answers := s.way.answers.filter (· != k) } }

/-- %wcoord (R367). -/
def Ctx.wayfarer (c : Ctx) : Bool := (c.crGet 0x3C0).getLsbD 63
def Ctx.xreg (c : Ctx) : Nat := bitsOf (c.crGet 0x3C0) 5 5
def Ctx.yreg (c : Ctx) : Nat := bitsOf (c.crGet 0x3C0) 0 5

/-- Whether a hand-over of a strand may begin: its core's copy of the map has changed (R381). -/
def State.handed (s : State) (k : Nat) : Bool :=
  match (s.ctxAt k).handover with | some v => decide (v ≤ (s.coreAt (s.coreOf k)).mapVersion) | none => false

/-- Leaving the tract (R376 WLEAVE): the record goes from the tract and from every halo, and %wcoord is cleared. -/
def State.leaveTract (s : State) (k : Nat) : State :=
  let s0 := if (s.ctxAt k).wayfarer then (s.dropRecord (s.coreOf k) k).onCtx k fun c => c.crSet 0x3C0 0 else s
  ((s0.uncount (s.who k)).withdraw k).onCtx k fun c => { c with coordWrite := none, handover := none }

end Sys2Proof.Machine
end

