-- ==== Sys2Proof/Machine/Cutting.lean ====
section
/-! DEFINITION. What ends with a strand or a job: leases, slots, commands in progress, and the fencing of a core (08 R140; 10 R188; 14
R221, R224; 20 R301; 21 R325; 22 R339; 24 R353; 25 R364; 30 R400). -/

namespace Sys2Proof.Machine

/-! ### The anvil (R311, R313, R325) -/

/-- A strand's lease and standing request given up. -/
def State.dropLease (s : State) (k : Nat) : State :=
  s.onCluster (clusterOf (s.coreOf k)) fun y =>
    if y.holder = some k then
      { y with holder := none, used := 0, passing := false, last := indexInCluster (s.coreOf k), requests := y.requests.filter (· != k) }
    else { y with requests := y.requests.filter (· != k) }

/-- The operand slots of a strand of a job freed. -/
def State.dropSlots (s : State) (k job : Nat) : State :=
  s.onCluster (clusterOf (k / 16)) fun y =>
    { y with slots := y.slots.filter fun p => match p.2 with | some o => o.owner != k || o.job != job | none => true }

/-- The tag of an operand slot set. -/
def State.setTag (s : State) (y i : Nat) (tag : Option (Nat × Bool × Bool)) : State :=
  s.onCluster y fun c =>
    match Sparse.get none c.slots i with
    | none => c
    | some o => { c with slots := Sparse.put c.slots i (some { o with tag := tag }) }

/-- One anvil command cut (R325): a load leaves its slot untagged and its tile READY, a store leaves its tile EMPTY with the chunks
already issued, and a multiply stops after the whole passes that it has done. -/
def State.cutAnvil (s : State) (m passes : Nat) (cmd : AnvilCmd) : State :=
  match cmd.op with
  | .lda => (s.setTag (clusterOf m) cmd.sa none).onTile m cmd.tile Tile.release
  | .ldb => (s.setTag (clusterOf m) cmd.sb none).onTile m cmd.tile Tile.release
  | .stc =>
    let s1 :=
      if cmd.started then
        match Sparse.get none (s.coreAt m).tiles cmd.tile with
        | none => s
        | some t =>
          let (_, rows, _) := storeRows cmd cmd.fa (s.coreAt m).acc
          s.performMix (rowChunks (tileLoc m t) rows)
      else s
    s1.onTile m cmd.tile Tile.giveUp
  | .zero => s
  | _ =>
    s.onCore m fun c => { c with acc := (multiplyFirst passes (s.clusterAt (clusterOf m)) cmd c.acc).1 }

/-- The passes of a multiply that has started. -/
def AnvilCmd.running (c : AnvilCmd) : Nat := if c.started && c.multiplies then c.passes else 0

/-- Commands cut in order, the started multiplies having done n passes together: those chained to one follow its last pass (R324). -/
def State.cutList (s : State) (m : Nat) : Nat → List AnvilCmd → State
  | _, [] => s
  | n, c :: cs => (s.cutAnvil m (min n c.running) c).cutList m (n - c.running) cs

/-- The commands of a strand cut; how many passes its multiplies have done is not stated, and free. -/
def State.cutCommands (s : State) (k : Nat) : State :=
  let m := s.coreOf k
  let own := (s.coreAt m).anvil.filter fun c => c.key == k
  let n := leNat (s.freeBytes 2) % (own.foldl (fun n c => n + c.running) 0 + 1)
  let s1 := (s.cutList m n own).freshen 2
  s1.onCore m fun c => { c with anvil := c.anvil.filter fun a => a.key != k }

/-! ### Fronthaul (R353) -/

/-- A window closed, LATE unless all of it had arrived, or a send ended after the frame in transit, which one being free, by a cut (R348, R353). -/
def State.cutFh (s : State) (m : Nat) (f : FhItem) : State :=
  match f.state with
  | .closed => s
  | .sent => s
  | _ =>
    let data := if f.state = .sending then s.sendData f else []
    let s0 := (s.putOut f (data.take (1 + leNat (s.freeBytes 2) % max 1 data.length))).freshen 2
    let s1 := s0.onTile m f.tile (if f.isSend then Tile.release else Tile.giveUp)
    s1.onFh m f.handle fun g =>
      if f.isSend then { g with state := .sent }
      else { g with state := .closed, closedAt := s.dev.time.toNat, late := decide (g.slots.length * g.fields.z < g.fields.bytes false) }

/-! ### Everything a job has outstanding (R21, R221) -/

/-- Whether a transfer still runs for a job. -/
def Xfer.runs (x : Xfer) (j : Nat) : Bool := x.job == j && (x.state == .waiting || x.state == .inFlight)

/-- Whether a window or a send still runs for a job. -/
def FhItem.runs (f : FhItem) (j : Nat) : Bool := f.job == j && f.state != .closed && f.state != .sent

/-- The keys that a sparse listing names. -/
def keysOf (m : Sparse α) : List Nat := m.map (·.1)

/-- Whether a job has a command outstanding on any engine (R21). -/
def State.outstanding (s : State) (j : Nat) : Bool :=
  (s.core.any fun p => (p.2.xfers.any (·.runs j)) || (p.2.fh.any (·.runs j))
      || p.2.anvil.any fun c => (s.ctxAt c.key).job == j)
    || (s.cluster.any fun p => p.2.tenc.any fun c => c.job == j)
    || s.coding.any fun p => p.2.any fun r => r.job == j

/-- Every outstanding command of a job cut. -/
def State.cutEngines (s : State) (j : Nat) : State :=
  let s1 := (keysOf s.core).foldl (fun s m =>
    let s1 := ((s.coreAt m).xfers.filter (·.runs j)).foldl (fun s x => s.cutXfer m x) s
    ((s1.coreAt m).fh.filter (·.runs j)).foldl (fun s f => s.cutFh m f) s1) s
  let s2 := (keysOf s1.cluster).foldl (fun s y =>
    ((s.clusterAt y).tenc.filter fun c => c.job == j).foldl (fun s c => s.cutTenc y c) s) s1
  (keysOf s2.coding).foldl (fun s y =>
    ((Sparse.get [] s.coding y).filter fun r => r.job == j).foldl (fun s r => s.cutCode y r) s) s2

/-! ### Strands (R140, R188) -/

/-- Whether a job has a strand on a core, as origin or otherwise, or keeps a slot of it (R388). -/
def State.jobOnCore (s : State) (j m : Nat) : Bool :=
  (s.strands.any fun k => (s.ctxAt k).job == j && ((s.ctxAt k).here / 16 == m || k / 16 == m))
    || match s.job? j with
       | none => false
       | some x => x.saved.any fun v => v.key / 16 == m || v.ctx.here / 16 == m

/-- The stall entries of jobs that no longer hold a slot of a core are cleared (R388). -/
def State.tidyStalls (s : State) (m : Nat) : State :=
  s.onCore m fun c => { c with stalls := c.stalls.map fun e =>
    match e with
    | some x => if s.jobOnCore x.job m then some x else none
    | none => none }

/-- A strand's place, its waits and its holdings given up: END's steps 2 to 6 (R188), and what a cut frees (R221). -/
def State.endStrand (s : State) (k : Nat) : State :=
  let c := s.ctxAt k
  let s1 := ((s.leaveTract k).dropSlots k c.job).dropLease k
  let s2 := s1.onJob c.job fun j => { j with live := j.live.filter (· != k), arrived := j.arrived.filter (· != k) }
  let s3 : State := { s2 with
    parks := s2.parks.filter fun p => p.key != k
    notices := s2.notices.filter fun p => p.1 != k
    sched := { s2.sched with
      held := s2.sched.held.filter fun h => h.key != k
      queues := s2.sched.queues.map fun q => (q.1, { q.2 with held := q.2.held.filter fun h => h.key != k }) } }
  let s4 := s3.onCore (c.here / 16) fun d => { d with traps := d.traps.filter fun t => t.key != k }
  let s5 := s4.onCore (k / 16) fun d => { d with slotJob := Sparse.put d.slotJob (k % 16) c.job }
  let s6 := if c.vec then s5.onCore (c.here / 16) fun d => { d with reserved := [] } else s5
  ((s6.dropCtx k).tidyStalls (c.here / 16)).tidyStalls (k / 16)

/-- The slots that a vector strand has reserved or asked for in the inboxes of its peers freed (R293). -/
def State.freeReserved (s : State) (k : Nat) : State :=
  let peer (m : Nat) : Bool := (s.vectorStrand m).any fun t => (s.ctxAt t).job == (s.ctxAt k).job
  ((keysOf s.core).filter peer).foldl (fun s m => s.onCore m fun c => { c with reserved := c.reserved.filter (· != s.coreOf k) }) s

/-- A strand of a job being cut stops (R221): its queued convoys, its inbox reservations and its commands go with
it. -/
def State.cutStrand (s : State) (k : Nat) : State :=
  let s1 := s.freeReserved k
  ((if (s.ctxAt k).vec then s1 else s).cutCommands k).endStrand k

/-- What a strand of a pre-empted job still holds given up: its operand slots, the requests for its inbox, and a wayfarer's record and place in its tract. Other work may run
under its key meanwhile, and is not touched. -/
def State.endSaved (s : State) (job : Nat) (v : Saved) : State :=
  let m := v.ctx.here / 16
  let s0 := s.dropSlots v.key job
  let s1 := if v.ctx.vec ∧ v.lanes = none then s0.onCore m fun c => { c with reserved := [] } else s0
  if !v.ctx.wayfarer then s1
  else
    let s2 := match s1.wayRecord m (v.key, job) with
      | some o => s1.eraseRecord m o
      | none => s1
    s2.uncount (v.key, job)

/-- The strands of a pre-empted job ended by a cut. -/
def State.endKept (s : State) (j : Nat) : State :=
  match s.job? j with
  | none => s
  | some x => (x.saved.foldl (fun s v => s.endSaved j v) s).onJob j fun x => { x with saved := [] }

/-- A job cut with a status (R221). -/
def State.cutJob (s : State) (j : Nat) (st : Status) : State :=
  let s1 : State := match s.job? j with
    | some x => if x.state = JobState.preempted then s.endKept j else s
    | none => s
  let s2 := s1.cutEngines j
  let live := match s2.job? j with | some x => x.live | none => []
  let s3 := live.foldl (fun s k => s.cutStrand k) s2
  s3.onJob j fun x =>
    { x with state := .cutting, status := st, channel := none, arrived := [], preempt := false, live := []
             cutAt := some s.dev.time.toNat }

/-! ### Fencing (R400, R224, R198) -/

/-- The jobs with a strand on a core, running or kept. -/
def State.jobsOn (s : State) (m : Nat) : List Nat := (s.sched.jobs.map (·.id)).filter fun j => s.jobOnCore j m

/-- A core fenced: every job with a strand on it is cut with KILLED, its home cache is written back, its slots, tile table, stall table and
accumulators are cleared, its steward stops, and its bit in FENCED is set and reported. -/
def State.fenceCore (s : State) (m : Nat) : State :=
  let s1 := (s.jobsOn m).foldl (fun s j =>
    match s.job? j with
    | some x => if x.state = .running ∨ x.state = .preempted then s.cutJob j .killed else s
    | none => s) s
  let s2 := (s1.flushHome m).onCore m fun c =>
    { c with fenced := true, tiles := [], acc := {}, stalls := List.replicate 16 none, stallOrder := [], servicing := false, traps := [] }
  let s3 := s2.onCtx (4096 + m) fun c => { c with hold := .asleep }
  { s3 with dev := { s3.dev with reported := s3.dev.reported.filter (· != m) ++ [m] } }

end Sys2Proof.Machine
end

