-- ==== Sys2Proof/Machine/Ops.lean ====
section
/-! DEFINITION. The operations that every instruction shares: advancing through loop levels, waiting, taking an exception and returning
from one, and writing a result (08 R128 to R137; 09 R158, R163; 11 R192 to R198; 27 R369, R370). -/

namespace Sys2Proof.Machine

/-! ### Passes of loop levels (R133 to R137, R163) -/

/-- The passes a level runs (R137, R161). -/
def Level.passes (l : Level) : Nat :=
  match l.kind with
  | .counted => l.n.toNat
  | .masked => 0
  | .staged => if l.n = 0 then 0 else l.n.toNat + l.stages - 1

/-- The tag of a body position (R160). -/
def LoopSettings.tag (t : LoopSettings) (q : Nat) : Nat := if q < 16 then t.tags.toNat / 2 ^ (3 * q) % 8 else 0

/-- Whether the instruction at body position q issues in the pass at hand (R136, R137). -/
def Level.issues (l : Level) (q : Nat) : Bool :=
  (!(l.set.first.getLsbD q) || l.p == 0)
    && (!(l.set.last.getLsbD q) || l.p.toNat + 1 == l.passes)
    && (l.kind != .staged || (decide (l.set.tag q ≤ l.p.toNat) && decide (l.p.toNat - l.set.tag q < l.n.toNat)))

/-- The body position of an address. -/
def Level.position (l : Level) (a : VA) : Nat := (a.toNat - l.start.toNat) / 4

/-- Whether an address lies in a level's body. -/
def Level.holds (l : Level) (a : VA) : Bool := decide (l.start.toNat ≤ a.toNat) && decide (a.toNat < l.stop.toNat)

/-- Whether the word at pc is a body position that does not issue in this pass. -/
def Ctx.skips (c : Ctx) : Bool :=
  match c.levels with
  | [] => false
  | l :: _ => l.holds c.pc && !(l.issues (l.position c.pc))

/-- Every bound target receives its stride (R134). -/
def Ctx.bump (c : Ctx) (l : Level) : Ctx := l.set.binds.foldl (fun c b => c.wr b.1.toNat (c.rd b.1.toNat + b.2)) c

/-- A pass of the innermost level ended, with the level popped or begun again (R134); the convoy closes (R44). -/
def Ctx.passEnd (c : Ctx) (l : Level) (ls : List Level) : Ctx :=
  let c1 := c.bump l
  let c2 := if l.kind = .staged ∧ c.vec then { c1 with rb := c1.rb + 1 } else c1
  if l.kind = .masked ∨ l.p.toNat + 1 < l.passes then
    { c2 with pc := l.start, levels := { l with p := l.p + 1, checked := l.kind != .masked } :: ls, atPoint := true, open_ := false }
  else { c2 with levels := ls, atPoint := true, open_ := false }

/-- Passes end while control stands at the end of the innermost level, at most once for each of six levels (R163). -/
def Ctx.endPasses : Nat → Ctx → Ctx
  | 0, c => c
  | k + 1, c =>
    match c.levels with
    | [] => c
    | l :: ls => if c.pc = l.stop then Ctx.endPasses k (c.passEnd l ls) else c

/-- Control goes to an address. -/
def Ctx.jump (c : Ctx) (t : VA) : Ctx :=
  Ctx.endPasses 6 { c with pc := t, atPoint := false, again := false, waited := false, pastBreak := false, reopen := false, crossPhase := none, expired := false }

/-- Control goes to the next word. -/
def Ctx.advance (c : Ctx) : Ctx := c.jump (c.pc + 4)

def State.jump (s : State) (t : VA) : State := s.onMe fun c => c.jump t

def State.advance (s : State) : State := s.onMe Ctx.advance

/-! ### Waiting (R128) -/

/-- The stall entry of a pair charged some lost cycles, with a lag in element groups, and one hold when the hold begins (R387, R388). -/
def chargeEntry (e : StallEntry) (begins : Bool) (lost lag : Nat) : StallEntry :=
  { e with
    lost := min (e.lost + lost) (2 ^ 32 - 1), maxlag := max e.maxlag (min lag (2 ^ 16 - 1))
    count := if begins then min (e.count + 1) (2 ^ 32 - 1) else e.count }

/-- Whether an entry is that of a pair. -/
def StallEntry.isOf (e : StallEntry) (ppc cpc : Nat) : Bool := e.ppc == ppc && e.cpc == cpc

/-- The place of a pair in the stall table: its own entry, the lowest empty one, or the least recently updated one. -/
def Core.stallSlot (c : Core) (ppc cpc : Nat) : Nat :=
  match c.stalls.findIdx? fun e => match e with | some x => x.isOf ppc cpc | none => false with
  | some i => i
  | none =>
    match c.stalls.findIdx? (· == none) with
    | some i => i
    | none => c.stallOrder.headD 0

def Core.charge (c : Core) (ppc cpc job : Nat) (begins : Bool) (lost lag : Nat) : Core :=
  let i := c.stallSlot ppc cpc
  let e : StallEntry :=
    match c.stalls.getD i none with
    | some x => if x.isOf ppc cpc then x else { ppc := ppc, cpc := cpc, job := job }
    | none => { ppc := ppc, cpc := cpc, job := job }
  { c with stalls := c.stalls.set i (some (chargeEntry e begins lost lag)), stallOrder := c.stallOrder.filter (· != i) ++ [i] }

/-- The instruction is held and executes again from its first step (R128). -/
def State.wait (s : State) : Res := .next (s.onMe fun c => { c with again := true, stall := none })

/-- The instruction is held at a pre-emption point (R203). -/
def State.waitPoint (s : State) : Res := .next (s.onMe fun c => { c with again := true, atPoint := true, stall := none })

/-- A hold that waits on a producer, which R387 charges: one that goes on with the same producer has been counted if it had been. -/
def Ctx.stallOn (c : Ctx) (ppc : Nat) : Option (Nat × Bool) :=
  if c.again then (match c.stall with | some (p, n) => some (ppc, p == ppc && n) | none => some (ppc, false)) else some (ppc, false)

/-- The instruction is held for a reason that R387 charges. -/
def State.waitOn (s : State) (ppc : Nat) : Res := .next (s.onMe fun c => { c with again := true, stall := c.stallOn ppc })

/-- The instruction is held on a tile that is FILLING or DRAINING (R24), a pre-emption point. -/
def State.waitTile (s : State) (t : Tile) : Res :=
  .next (s.onMe fun c => { c with again := true, atPoint := true, stall := c.stallOn t.by_ })

/-- A strand's held instruction is given up, to execute again from its first step when it next issues (R181, R185, R203). -/
def State.unhold (s : State) (k : Nat) : State :=
  match (s.ctxAt k).hold with
  | .waita =>
    { s with parks := s.parks.filter fun p => p.key != k, notices := s.notices.filter fun p => p.1 != k }
  | .coord => s.withdraw k
  | .queue | .channel | .jdone =>
    { s with sched := { s.sched with
        held := s.sched.held.filter fun h => h.key != k
        queues := s.sched.queues.map fun q => (q.1, { q.2 with held := q.2.held.filter fun h => h.key != k }) } }
  | _ => s

/-! ### Taking an exception (R192 to R197) -/

/-- The cause codes of R192. -/
def Cause.number : Cause → Nat
  | .service => 0x00 | .illegal => 0x01 | .priv => 0x02 | .brk => 0x03 | .tileEmpty => 0x04 | .misalign => 0x05 | .page => 0x06
  | .prot => 0x07 | .watch => 0x08 | .numeric => 0x09 | .slot => 0x0A | .queue => 0x0B | .coord => 0x0C | .tractFull => 0x0D
  | .haul => 0x0E | .code => 0x0F | .deadline => 0x10 | .watchdog => 0x11

/-- Whether a cause is an asynchronous notice. -/
def Cause.async (c : Cause) : Bool := decide (0x10 ≤ c.number)

/-- The priority order of R194, first to last. -/
def Cause.rank : Cause → Nat
  | .brk => 0 | .illegal => 1 | .priv => 2 | .tileEmpty => 3 | .misalign => 4 | .page => 5 | .prot => 6 | .watch => 7 | .numeric => 9
  | _ => 8

/-- Of two faults, the one that R194 ranks first; the first of equals. -/
def worseOf (f g : Cause × Nat) : Cause × Nat := if g.1.rank < f.1.rank then g else f

/-- The highest-ranked of a fault and those that what follows it meets (R102, R194). -/
def worstWith (f : Cause × Nat) : Except (Cause × Nat) α → Cause × Nat
  | .error g => worseOf f g
  | .ok _ => f

/-- The queue entries of a captured queue, in order: a handed level's are its body words, which of a pass at hand are that pass's (R132, R139). -/
def flatItems : Bool → List QItem → List Entry
  | _, [] => []
  | b, .entry e :: q => e :: flatItems (b || e.lvl) q
  | b, .level l :: q => (if b then [] else l.body.map (·.1)) ++ flatItems false q

def PendingTrap.entries (t : PendingTrap) : List Entry := flatItems false t.queue

/-- %tcause of a trap (R195). -/
def PendingTrap.causeWord (t : PendingTrap) : W64 :=
  BitVec.ofNat 64 ((if t.cause.async then 2 ^ 63 else 0) + (if t.fetch then 2 ^ 62 else 0) + (if t.vec then 2 ^ 61 else 0)
    + (if t.vec then (t.entries.length - 1) % 16 * 256 else 0) + t.cause.number)

/-- The trap queue registers of R197: entry k at 0x820 + 3k, the others 0. -/
def Core.setQueueRegs (c : Core) (es : List Entry) : Core :=
  (List.range 16).foldl (fun c k =>
    match es[k]? with
    | some e => ((c.crSet (0x820 + 3 * k) (e.word.setWidth 64)).crSet (0x821 + 3 * k) e.g1).crSet (0x822 + 3 * k) e.g2
    | none => ((c.crSet (0x820 + 3 * k) 0).crSet (0x821 + 3 * k) 0).crSet (0x822 + 3 * k) 0) c

/-- The trap state registers written for a trap of a slot (R195, R197): %tcause, %tepc, %tval, %tslot, %sepc, and for a vector trap %tvpc
and the queue registers. -/
def Core.trapState (c : Core) (t : PendingTrap) (slot : Nat) (stewardPc : VA) : Core :=
  let c1 := ((((c.crSet 0x802 t.causeWord).crSet 0x803 (t.tepc.setWidth 64)).crSet 0x804 t.tval).crSet 0x805
    (BitVec.ofNat 64 slot)).crSet 0x809 (stewardPc.setWidth 64)
  if t.vec then (c1.crSet 0x806 (t.tvpc.setWidth 64)).setQueueRegs t.entries else c1

/-- %tvec.BASE + 64 × CODE: where the steward goes. -/
def handlerPc (tvec : W64) (c : Cause) : VA := BitVec.ofNat 50 (bitsOf tvec 12 38 * 2 ^ 12 + 64 * c.number)

/-- The oldest pending trap of a core is delivered, unless its steward services another (R196). -/
def State.deliver (s : State) (m : Nat) : State :=
  match (s.coreAt m).traps with
  | [] => s
  | t :: ts =>
    if (s.coreAt m).servicing then s
    else
      let st := s.ctxAt (4096 + m)
      let s1 := ((s.unhold (4096 + m)).onCore m fun c =>
        ({ c with servicing := true, traps := ts } : Core).trapState t ((s.ctxAt t.key).here % 16) st.pc).tally m t.key 12 1
      s1.setCtx (4096 + m) { st with pc := handlerPc (s1.coreAt m |>.crGet 0x800) t.cause, hold := .ready, again := false }

/-- VL and type after a queue item, from those before it: a VSET sets both (R249, R276). -/
def QItem.strip (x : Nat × Nat) : QItem → Nat × Nat
  | .entry e => match e.m.op with | .vset code => (min e.g1.toNat (vlMax code), code) | _ => x
  | .level _ => x

/-- VL and type at the place of the next word to issue: those in force, with the queued VSETs. -/
def Ctx.strip (c : Ctx) : Nat × Nat := c.queue.foldl QItem.strip (bitsOf (c.crGet 0x100) 0 14, bitsOf (c.crGet 0x101) 0 5)

/-- The settings of R146 as the strand's control registers give them now. -/
def Ctx.settings (c : Ctx) : VSettings where
  round := bitsOf (c.crGet 0x106) 0 2
  fen := (c.crGet 0x105).setWidth 8
  vfill := c.crGet 0x103
  sngthr := (c.crGet 0x107).setWidth 32
  sngreg := (c.crGet 0x108).setWidth 32
  vqfmt := bitsOf (c.crGet 0x10C) 0 5
  tlen := bitsOf (c.crGet 0x280) 0 5
  tadv := bitsOf (c.crGet 0x281) 0 2
  vl := c.strip.1
  ty := c.strip.2

/-- The walk that a PAGE or PROT ends has read its entries too (R103). -/
def State.faultWalk (s : State) (t : PendingTrap) : State :=
  if (t.cause = .page ∨ t.cause = .prot) ∧ t.tval.toNat < 2 ^ 49 then s.askWalk (s.coreOf t.key) (s.tableOf t.key) t.tval.toNat else s

/-- Taking an exception (R196): the strand stops and is held, its open convoy closes, a crossing's time-out count pauses (R185), and the trap
waits its turn at the steward. A
steward that meets one has its core fenced (R198). -/
def State.raise (s : State) (t : PendingTrap) : State :=
  if isSteward t.key then s.fenceCore (t.key - 4096)
  else
    let m := s.coreOf t.key
    let s1 := ((s.faultWalk t).unhold t.key).onCtx t.key fun c =>
      { c with
        hold := .trapped, open_ := false, again := false, waited := false, captured := t.queue, trapSet := c.settings
        since := if c.crossPhase = none then c.since else s.now - c.since }
    (s1.onCore m fun c => { c with traps := c.traps ++ [t] }).deliver m

/-- The issuing context traps at its own word. -/
def State.trap (s : State) (c : Cause) (tval : W64) : Res :=
  .next (s.raise { key := s.cur, cause := c, tval := tval, tepc := s.me.pc })

/-- The issuing context traps with a restart at another word. -/
def State.trapTo (s : State) (c : Cause) (tval : W64) (tepc : VA) : Res :=
  .next (s.raise { key := s.cur, cause := c, tval := tval, tepc := tepc })

/-- ILLEGAL and PRIV report the word (R195). -/
def State.illegal (s : State) : Res := s.trap .illegal (s.ir.setWidth 64)
def State.priv (s : State) : Res := s.trap .priv (s.ir.setWidth 64)

/-- PAGE, PROT, WATCH and MISALIGN report the address. -/
def State.trapAt (s : State) (c : Cause) (va : Nat) : Res := s.trap c (BitVec.ofNat 64 va)

/-! ### Returning from an exception (R198) -/

/-- A setting that the steward changed during the service counts; any other keeps the value of the instruction's place (log 24). -/
def mergeSetting [DecidableEq α] (now atTrap captured : α) : α := if now = atTrap then captured else now

def mergeSettings (now atTrap e : VSettings) : VSettings where
  round := mergeSetting now.round atTrap.round e.round
  fen := mergeSetting now.fen atTrap.fen e.fen
  vfill := mergeSetting now.vfill atTrap.vfill e.vfill
  sngthr := mergeSetting now.sngthr atTrap.sngthr e.sngthr
  sngreg := mergeSetting now.sngreg atTrap.sngreg e.sngreg
  vqfmt := mergeSetting now.vqfmt atTrap.vqfmt e.vqfmt
  tlen := mergeSetting now.tlen atTrap.tlen e.tlen
  tadv := mergeSetting now.tadv atTrap.tadv e.tadv
  vl := e.vl
  ty := e.ty

end Sys2Proof.Machine
end

