-- ==== Sys2Proof/Machine/Operands.lean ====
section
/-! DEFINITION. Operands and results: the destination of an instruction, with the rules for a wayfarer's coordinate registers, and the
addresses that memory instructions and engine commands compute (09 R142; 27 R369, R370; 05 R78, R86; 10 R168). -/

namespace Sys2Proof.Machine

/-! ### Destinations (R36, R369, R370) -/

/-- Whether a register is a coordinate register of the issuing wayfarer. -/
def Ctx.isCoord (c : Ctx) (d : Nat) : Bool := c.wayfarer && (c.xreg == d || c.yreg == d)

def State.coordDest (s : State) (d : BitVec 5) : Bool := s.me.isCoord d.toNat

/-- A new admission or record for a standing admission that no longer fits: the wayfarer counts in its host core's tract again (R371). -/
def State.giveUpAdmission (s : State) (k : Nat) : State :=
  match (s.ctxAt k).coordWrite with
  | none => s
  | some w =>
    let s1 := ((s.uncount (s.who k)).withdraw k).onCtx k fun c => { c with coordWrite := none }
    if w.join then s1 else s1.countIn (s.coreOf k) (s.who k)

/-- The coordinates a wayfarer's record holds. -/
def State.recordPair (s : State) (k : Nat) : Nat × Nat :=
  match s.record? (s.coreOf k) k with
  | some r => (r.x, r.y)
  | none => (0, 0)

/-- The record takes a new pair (R370), and the change goes to the halos (R373). -/
def State.moveRecord (s : State) (k x y : Nat) : State :=
  match s.record? (s.coreOf k) k with
  | some r => if r.x = x ∧ r.y = y then s else s.putRecord (s.coreOf k) { r with x := x, y := y }
  | none => s

/-- Whether every haul transfer, TENC and coding request of a strand has completed (R304, R339, R364). -/
def State.enginesClear (s : State) (k : Nat) : Bool :=
  let j := (s.ctxAt k).job
  !(s.core.any fun p => (p.2.xfers.any fun x => x.key == k && x.job == j && x.state != .finished) || p.2.codeStuck.contains (k, j))
    && !(s.cluster.any fun p => p.2.tenc.any fun t => t.key == k && t.job == j)
    && !(s.coding.any fun p => p.2.any fun r => r.key == k && r.job == j)

/-- A request that leaves its core now, with the cycle in which it reaches the unit (R381). -/
def State.leaving (s : State) (r : TractReq) : TractReq := { r with at_ := s.now + 12 + 4 * hops (s.coreOf r.key) 7 }

/-- The requests whose strands' engines are clear sent to the tract map unit (R371, steps 1 and 2). -/
def State.sendTract (s : State) : State :=
  if s.way.asking.isEmpty then s
  else
    { s with way := { s.way with
        asking := s.way.asking.filter fun r => !(s.enginesClear r.key)
        requests := s.way.requests ++ (s.way.asking.filter fun r => s.enginesClear r.key).map s.leaving } }

/-- A request for the tract map unit: it is sent once the strand's engines are clear (R371). -/
def State.askTract (s : State) (k x y : Nat) : State :=
  let r : TractReq := { key := k, x := x, y := y }
  ({ s with way := { s.way with asking := s.way.asking ++ [r] } } : State).sendTract

/-- The issuing strand held with a coordinate write or a WJOIN that waits for the unit. -/
def State.holdCoord (s : State) (w : CoordWrite) : State :=
  s.onMe fun c => { c with hold := .coord, again := true, atPoint := true, coordWrite := some w }

/-- Whether an earlier admission of the issuing strand to the same pair stands (R371). -/
def State.admissionStands (s : State) (x y : Nat) : Bool :=
  match s.me.coordWrite with
  | some o => o.admitted && o.x == x && o.y == y
  | none => false

/-- The unit's standing admission of the issuing strand acts again, with no new request (R371). -/
def State.answerAgain (s : State) : State :=
  { s with way := { s.way with answers := (s.way.answers.filter (· != s.cur)) ++ [s.cur] } }

/-- A result for a coordinate register (R370): COORD, the plain write with the record updated, or a hold while the strand migrates. -/
def State.coordResult (s : State) (d : BitVec 5) (v : W64) : Res :=
  let c := s.me
  let k := s.cur
  let x := (if d.toNat = c.xreg then v else c.rd c.xreg).toNat
  let y := (if d.toNat = c.yreg then v else c.rd c.yreg).toNat
  if (x, y) = s.recordPair k then .next ((s.giveUpAdmission k).wr d v).advance
  else
    match (if x < 2 ^ 16 ∧ y < 2 ^ 16 then (s.coreAt s.myCore).map.host x y else none) with
    | none => (s.giveUpAdmission k).trap .coord (BitVec.ofNat 64 (x % 2 ^ 32 * 2 ^ 32 + y % 2 ^ 32))
    | some m =>
      if m = s.myCore then .next ((((s.giveUpAdmission k).moveRecord k x y).wr d v).advance)
      else
        let w : CoordWrite := { d := d.toNat, v := v, xreg := c.xreg, yreg := c.yreg, x := x, y := y }
        if s.admissionStands x y then .next (s.answerAgain.holdCoord { w with admitted := true })
        else .next (((s.giveUpAdmission k).askTract k x y).holdCoord w)

/-- The result of an instruction that may write a coordinate register (R369). -/
def State.result (s : State) (d : BitVec 5) (v : W64) : Res :=
  if s.coordDest d then s.coordResult d v else .next ((s.wr d v).advance)

/-- The result of any other instruction; that d is no coordinate register is checked when the instruction reaches issue. -/
def State.done (s : State) (d : BitVec 5) (v : W64) : Res := .next ((s.wr d v).advance)

/-- The status words of R231. -/
def status (code : Nat) : W64 := BitVec.ofNat 64 (2 ^ 63 + code)

/-! ### Immediates (R35 to R37) -/

/-- sext(imm, 64). -/
def sx (i : BitVec n) : W64 := i.signExtend 64

/-- The target of a branch or jump: pc + 4 × off (R34). -/
def Ctx.target (c : Ctx) (off : BitVec n) : VA := c.pc + (off.signExtend 50 <<< 2)

/-- An effective address: trunc(base + offset, 50) (R78). -/
def ea (v : W64) : Nat := v.toNat % 2 ^ 50

/-- The effective address of a load or store of 2^z bytes (R168). -/
def memEa (base : W64) (imm : BitVec 9) (z : Nat) : Nat := ea (base + (sx imm) * BitVec.ofNat 64 (2 ^ z))

/-! ### Checked accesses of the issuing strand -/

/-- A checked access of n bytes, aligned to al: the place, or the trap (R168, R194). -/
def State.access (s : State) (va al n : Nat) (acc : Acc) : Except Cause (Place × State) :=
  if va % al ≠ 0 then .error .misalign else s.checked s.cur va n acc

/-- The same for a request that an engine or the scheduler reads or writes for the strand: the private window traps PROT (R86). -/
def State.request (s : State) (va al n : Nat) (acc : Acc) : Except Cause (Place × State) :=
  if va % al ≠ 0 then .error .misalign else if privateVa va then .error .prot else s.checked s.cur va n acc

/-! ### Vector accesses that a scalar one must follow (R131) -/

/-- Whether a queued member reads or writes memory (R131). -/
def VOp.touches : VOp → Bool
  | .load _ => true
  | .store _ => true
  | _ => false

/-- Whether it makes any access that a release or class 15 orders: the VMOV push family has accesses of no class (R109). -/
def VOp.accesses : VOp → Bool
  | .mov .push => true
  | .mov .take => true
  | .mov .poll => true
  | o => o.touches

/-- Whether it is an acquire: it takes an image, or opens on a READY tile (R111). -/
def VOp.acquires : VOp → Bool
  | .load .tile => true
  | .store .tile => true
  | .mov .take => true
  | _ => false

/-- A body word's g value in the pass at hand: a bound target has moved on by its stride once a pass (R134, R139). -/
def SeqLevel.value (l : SeqLevel) (r : Nat) (v : W64) : W64 :=
  match l.lvl.set.binds.find? fun b => b.1.toNat == r with
  | some b => v + b.2 * l.lvl.p
  | none => v

/-- The members of a handed level that issue in the pass at hand, under the register names of its body. -/
def SeqLevel.members (l : SeqLevel) : List Entry :=
  (l.body.zipIdx.filter fun x => l.lvl.issues x.2).map fun x =>
    { x.1.1 with g1 := l.value x.1.2.1 x.1.1.g1, g2 := l.value x.1.2.2 x.1.1.g2, lvl := true }

def SeqLevel.nextPass (l : SeqLevel) : SeqLevel := { l with lvl := { l.lvl with p := l.lvl.p + 1 } }

/-- The first member with a property in the next n passes. -/
def SeqLevel.findIn (f : Entry → Bool) : Nat → SeqLevel → Option Entry
  | 0, _ => none
  | n + 1, l => (l.members.find? f).or (l.nextPass.findIn f n)

/-- A member that may touch any address. -/
def VOp.anywhere : VOp → VOp
  | .load .tile => .load .tile
  | .load .lane => .load .lane
  | .load _ => .load .indexed
  | .store .tile => .store .tile
  | .store .lane => .store .lane
  | .store _ => .store .indexed
  | o => o

/-- A LOOPM level runs an unknown number of passes: a member whose base or stride is bound may come to touch any address. -/
def SeqLevel.unbounded (l : SeqLevel) : SeqLevel :=
  let bound (r : Nat) : Bool := l.lvl.set.binds.any fun b => b.1.toNat == r
  { l with body := l.body.map fun x =>
      if bound x.2.1 || bound x.2.2 then ({ x.1 with m := { x.1.m with op := x.1.m.op.anywhere } }, x.2) else x }

/-- The first member with a property that a queue item still has to run (R131, R139). A LOOPM's passes after the second are like it. -/
def QItem.find (f : Entry → Bool) : QItem → Option Entry
  | .entry e => if f e then some e else none
  | .level l => if l.lvl.kind = .masked then l.unbounded.findIn f 2 else l.findIn f (l.passes - l.lvl.p.toNat)

def Ctx.findMember (c : Ctx) (f : Entry → Bool) : Option Entry := c.queue.findSome? (QItem.find f)

/-- The entries that stand in a queue, those of a level's body among them. -/
def QItem.entries : QItem → List Entry
  | .entry e => [e]
  | .level l => l.body.map (·.1)

def Ctx.entries (c : Ctx) : List Entry := c.queue.flatMap QItem.entries

/-- Bytes of a segment of a format of R282: X and elements with their scale, padded as R281 gives. -/
def segStride (fmt : Nat) : Nat :=
  match fmt with
  | 17 => 18 | 15 => 25 | 16 => 25 | _ => 33

/-- The virtual bytes a queued memory member may touch: lowest address and count, or none for every address (R131). A tile is no matter
of addresses here, since its access is an acquire, and the lane-private slices overlap nothing. -/
def Entry.span (e : Entry) : Option (Nat × Nat) :=
  let vl := e.set.vl
  let w := typeWidth e.set.ty
  match e.m.op with
  | .load m | .store m =>
    match m with
    | .unit => some (ea e.g1, (vl * w + 7) / 8)
    | .segment => some (ea e.g1, vl / 32 * segStride e.set.vqfmt)
    | .strided =>
      if vl = 0 then some (ea e.g1, 0)
      else
        let st := e.g2.toInt * ((vl : Int) - 1)
        let lo := if st < 0 then (ea e.g1 : Int) + st else (ea e.g1 : Int)
        some ((lo % 2 ^ 50).toNat, min (st.natAbs + w / 8) (2 ^ 50))
    | .lane => some (0, 0)
    | .tile => some (0, 0)
    | _ => none
  | _ => some (0, 0)

/-- Whether two ranges of bytes meet. -/
def rangesMeet (a n b k : Nat) : Bool := n != 0 && k != 0 && decide (a < b + k) && decide (b < a + n)

/-- Where a virtual address lies for the issuing strand, if it translates. -/
def State.placeLoc (s : State) (va : Nat) : Option Nat :=
  match s.resolve s.cur va .read with
  | .ok (p, _) => some p.loc
  | .error _ => none

/-- Whether k virtual bytes from va on hold a byte of n at a location, a page at a time: bytes are the same through every mapping. -/
def State.spanMeets (s : State) (loc n : Nat) : Nat → Nat → Nat → Bool
  | 0, _, _ => false
  | f + 1, va, k =>
    k != 0 && ((match s.placeLoc va with | some q => rangesMeet q (pageRun va k) loc n | none => false)
      || s.spanMeets loc n f ((va + pageRun va k) % 2 ^ 50) (k - pageRun va k))

/-- Whether a queued member and an access of n bytes at a location may touch the same bytes. -/
def State.mayOverlap (s : State) (e : Entry) (loc n : Nat) : Bool :=
  match e.span with
  | none => true
  | some (lo, k) => s.spanMeets loc n (k / 4096 + 2) lo k

/-- The queued member that a scalar access of a class waits for: an acquire, a vector access of its class or of class 15, any access when it is
of class 15 itself, and a vector access of the same bytes (R107, R110, R131). -/
def State.orderedAfter (s : State) (cls loc n : Nat) : Option Entry :=
  s.me.findMember fun e =>
    e.m.op.acquires || (cls == 15 && e.m.op.accesses)
      || (e.m.op.touches && (e.m.cls == cls || e.m.cls == 15 || s.mayOverlap e loc n))

/-- Any queued access: what an engine command or a release waits for (R131, R110). -/
def State.anyVectorMemory (s : State) : Option Entry := s.me.findMember fun e => e.m.op.accesses

/-- The first word of the oldest convoy in the queue, to which a hold is charged (R387). -/
def Ctx.oldest (c : Ctx) : Nat := match c.entries with | [] => 0 | e :: _ => e.pc.toNat

/-- Whether every convoy has drained (R48). -/
def Ctx.drained (c : Ctx) : Bool := c.queue.isEmpty

end Sys2Proof.Machine
end

