-- ==== Sys2Proof/Machine/Flags.lean ====
section
/-! DEFINITION. The sticky flags of a strand and how results set them (04_numbers R61, R62, R72, R77). -/

namespace Sys2Proof.Machine

/-- %flags of a strand (R61). -/
def Ctx.flags (c : Ctx) : Flags := (c.crGet 0x104).setWidth 8

/-- Flags set: they stay set until software clears them. -/
def Ctx.orFlags (c : Ctx) (f : Flags) : Ctx := c.crSet 0x104 ((c.flags ||| f).setWidth 64)

/-- %ocount increased: it stops at 0xFFFF_FFFF (R72). -/
def Ctx.addOcount (c : Ctx) (n : Nat) : Ctx :=
  c.crSet 0x109 (BitVec.ofNat 64 (min ((c.crGet 0x109).toNat + n) 0xFFFFFFFF))

/-- Whether a flag that is set would trap (R62). -/
def traps (fen f : Flags) : Bool := f &&& fen != 0

/-- The bit of an exception mask: any flag but NX (R255). -/
def excBit (f : Flags) : Bool := f &&& ~~~flagNX != 0

end Sys2Proof.Machine
end

