-- ==== Sys2Proof/Machine/Memory.lean ====
section
/-! DEFINITION. Scalar loads, stores, atomics and fences (10 R167 to R176; 05 R81 to R96, R140; 06 R107 to R111). -/

namespace Sys2Proof.Machine

/-! ### The messages of an access (R120) -/

/-- The messages of an access of n bytes of a context (R120), the remote word that event 8 counts (R384), and the line at its home (R92). -/
def State.reach (s : State) (k : Nat) (p : Place) (wr : Bool) (n : Nat := 8) : State :=
  let m := s.coreOf k
  let t := servedAt p
  let s1 := if t = m then s else if t < 256 then s.remoteAccess m t k p.loc wr else s.ask m t p.loc wr (some k) (if wr then 2 ^ n - 1 else 0)
  if p.global && p.cacheable then s1.homeAccess t (p.loc / 32) (if wr then byteMask (p.loc / 32) p.loc n else 0) else s1

/-! ### Migration for data (R94, R140) -/

/-- Whether a strand may migrate for data (R94, R304, R339, R364). -/
def State.mayMigrate (s : State) (k : Nat) : Bool :=
  let c := s.ctxAt k
  !(isSteward k) && !c.vec && !c.wayfarer && s.enginesClear k

/-- Whether a strand is on its way to a slot. -/
def State.headed (s : State) (place : Nat) : Bool :=
  s.strands.any fun k => match (s.ctxAt k).hold with | .migrate p => p == place | _ => false

/-- Whether a pre-empted job keeps a slot (R204). -/
def State.kept (s : State) (place : Nat) : Bool :=
  s.sched.jobs.any fun j => j.saved.any fun v => v.key == place || v.ctx.here == place

/-- The slots of a core that hold no strand, and are not held as an origin slot, promised or kept (R140, R371). -/
def State.bareSlots (s : State) (m : Nat) : List Nat :=
  if (s.coreAt m).fenced then []
  else
    let free := (List.range 16).filter fun i =>
      s.slotFree (m * 16 + i) && !(s.headed (m * 16 + i)) && !(s.kept (m * 16 + i))
    free.filter fun i => s.way.slots.all fun p => p.1 != m * 16 + i

/-- The next slots of a core that are promised to wayfarers, which one each being open (R371). -/
def State.slotsOwed (s : State) (m : Nat) : Nat := (s.way.slots.filter fun p => p.1 == 4096 + m).length

/-- The slots of a core that a migrant may take. -/
def State.openSlots (s : State) (m : Nat) : List Nat := (s.bareSlots m).drop (s.slotsOwed m)

/-- The place a strand takes on a core: its origin slot there, or an open slot; which one is not stated (R140, log 9). -/
def State.placeFor (s : State) (k m : Nat) : Option Nat :=
  if k / 16 = m then some k
  else
    match s.openSlots m with
    | [] => none
    | i :: is =>
      let pref (i : Nat) : Nat := Config.placement s.free m i
      some (m * 16 + is.foldl (fun b i => if pref b < pref i then i else b) i)

/-- The predictor's step for an access, and where the strand migrates to, if it does (R94). -/
def State.predict (s : State) (p : Place) : State × Option Nat :=
  let k := s.cur
  let c := s.me
  let home := homeCore p.loc
  if !(p.global && p.cacheable) then (s, none)
  else if home = s.myCore then (s.onMe fun c => { c with predN := 0 }, none)
  else
    let n := if home = c.predHome then c.predN + 1 else 1
    let th := bitsOf (c.crGet 0x030) 0 8
    if th ≠ 0 ∧ th ≤ n ∧ s.mayMigrate k then
      ((s.onMe fun c => { c with predN := 0, predHome := home }).freshen 1, s.placeFor k home)
    else (s.onMe fun c => { c with predN := n, predHome := home }, none)

/-- A strand leaves for a place on another core as one message of its state, counted as event 9; the instruction at pc is held (R120, R140). -/
def State.depart (s : State) (k place : Nat) : State :=
  (((s.onCtx k fun c => { c with hold := .migrate place, again := true }).sendMsg .state (some k) (s.coreOf k) (place / 16)
    ((Config.stateWords s.free).take (maxLen / 8))).freshen 1).tally (s.coreOf k) k 9 1

/-- The access is held while its strand migrates to a place. -/
def State.holdMigrate (s : State) (place : Nat) : Res := .next (s.depart s.cur place)

/-! ### Loads and stores (R167 to R170) -/

/-- A checked access of 2^z bytes that no vector access holds back, performed where its strand is (R168, R131, R94); a strand leaves its core only
once what it accessed from there has been acknowledged (R120). -/
def State.scalarAccess (s : State) (va n cls : Nat) (acc : Acc) (go : Place → State → Res) : Res :=
  match s.access va n n acc with
  | .error c => s.trapAt c va
  | .ok (p, s1) =>
    match s1.orderedAfter cls p.loc n with
    | some e => s1.waitOn e.pc.toNat
    | none =>
      match s1.predict p with
      | (s2, some place) => if s1.unacknowledged s1.cur then s1.wait else s2.holdMigrate place
      | (s2, none) => go p (s2.reach s2.cur p (acc == .write) n)

/-- sext of the number n bytes hold (R168). -/
def loadSigned (v n : Nat) : W64 :=
  if v < 2 ^ (8 * n - 1) then BitVec.ofNat 64 v else BitVec.ofNat 64 (v + 2 ^ 64 - 2 ^ (8 * n))

/-- LD (R168). -/
def execLd (d b : BitVec 5) (c : BitVec 4) (z : BitVec 2) (i : BitVec 9) (s : State) : Res :=
  s.scalarAccess (memEa (s.rd b) i z.toNat) (2 ^ z.toNat) c.toNat .read fun p s =>
    s.result d (loadSigned (s.readNat p.loc (2 ^ z.toNat)) (2 ^ z.toNat))

/-- LDN (R168): LDN of a double-word is no instruction (R37). -/
def execLdn (d b : BitVec 5) (c : BitVec 4) (z : BitVec 2) (i : BitVec 9) (s : State) : Res :=
  if z = 3 then s.illegal
  else
    s.scalarAccess (memEa (s.rd b) i z.toNat) (2 ^ z.toNat) c.toNat .read fun p s =>
      s.result d (BitVec.ofNat 64 (s.readNat p.loc (2 ^ z.toNat)))

/-- ST (R168). -/
def execSt (r b : BitVec 5) (c : BitVec 4) (z : BitVec 2) (i : BitVec 9) (s : State) : Res :=
  s.scalarAccess (memEa (s.rd b) i z.toNat) (2 ^ z.toNat) c.toNat .write fun p s =>
    .next (s.performNat p.loc (2 ^ z.toNat) (s.rd r).toNat).advance

/-! ### Atomics (R171 to R175) -/

/-- The place of an atomic access, translated for a write: MISALIGN, PAGE, PROT, WATCH; PROT where the host or the twin would not carry the
operation (R172, R175, R395). -/
def State.amoPlace (s : State) (va : Nat) (carried : Bool) : Except Cause (Place × State) :=
  if va % 8 ≠ 0 then .error .misalign
  else
    match s.resolve s.cur va .write with
    | .error c => .error c
    | .ok (p, s1) =>
      if inHost p.loc && !(carried && s.dev.feaen.getLsbD 2) then .error .prot
      else if inTwin p.loc && !carried then .error .prot
      else if s.watched s.cur va 8 .read || s.watched s.cur va 8 .write then .error .watch
      else .ok (p, s1)

/-- An atomic operation: f gives the new value, or none when nothing is written (R172). -/
def State.amo (s : State) (f : W64 → W64 → W64 → Option W64) (carried : Bool) (d a b : BitVec 5) (cls : BitVec 4) (o : BitVec 2) : Res :=
  if s.coordDest d then s.illegal
  else
    let va := ea (s.rd a)
    match s.amoPlace va carried with
    | .error c => s.trapAt c va
    | .ok (p, s1) =>
      match (if o.getLsbD 1 then s1.anyVectorMemory else s1.orderedAfter cls.toNat p.loc 8) with
      | some e => s1.waitOn e.pc.toNat
      | none =>
        let s2 := s1.reach s1.cur p true
        let old := s2.read64 p.loc
        match f old (s2.rd d) (s2.rd b) with
        | some new => (s2.performNat p.loc 8 new.toNat).done d old
        | none => s2.done d old

def execAmoadd (d a b : BitVec 5) (c : BitVec 4) (o : BitVec 2) (s : State) : Res :=
  s.amo (fun old _ opd => some (old + opd)) true d a b c o
def execAmoand (d a b : BitVec 5) (c : BitVec 4) (o : BitVec 2) (s : State) : Res :=
  s.amo (fun old _ opd => some (old &&& opd)) false d a b c o
def execAmoor (d a b : BitVec 5) (c : BitVec 4) (o : BitVec 2) (s : State) : Res :=
  s.amo (fun old _ opd => some (old ||| opd)) false d a b c o
def execAmoxor (d a b : BitVec 5) (c : BitVec 4) (o : BitVec 2) (s : State) : Res :=
  s.amo (fun old _ opd => some (old ^^^ opd)) false d a b c o
def execAmomin (d a b : BitVec 5) (c : BitVec 4) (o : BitVec 2) (s : State) : Res :=
  s.amo (fun old _ opd => some (if opd.slt old then opd else old)) false d a b c o
def execAmomax (d a b : BitVec 5) (c : BitVec 4) (o : BitVec 2) (s : State) : Res :=
  s.amo (fun old _ opd => some (if old.slt opd then opd else old)) false d a b c o
def execAmominn (d a b : BitVec 5) (c : BitVec 4) (o : BitVec 2) (s : State) : Res :=
  s.amo (fun old _ opd => some (if opd.ult old then opd else old)) false d a b c o
def execAmomaxn (d a b : BitVec 5) (c : BitVec 4) (o : BitVec 2) (s : State) : Res :=
  s.amo (fun old _ opd => some (if old.ult opd then opd else old)) false d a b c o
def execAmoswp (d a b : BitVec 5) (c : BitVec 4) (o : BitVec 2) (s : State) : Res :=
  s.amo (fun _ _ opd => some opd) true d a b c o
def execAmocas (d a b : BitVec 5) (c : BitVec 4) (o : BitVec 2) (s : State) : Res :=
  s.amo (fun old cmp opd => if old = cmp then some opd else none) true d a b c o

/-- The word an arrival leaves (R173). -/
def arriveWord (old t : W64) : W64 :=
  let c := (old.toNat % 2 ^ 32 + 1) % 2 ^ 32
  if t.toNat % 2 ^ 32 ≤ c then BitVec.ofNat 64 ((old.toNat / 2 ^ 32 + 1) % 2 ^ 32 * 2 ^ 32)
  else BitVec.ofNat 64 (old.toNat / 2 ^ 32 * 2 ^ 32 + c)

def execArrive (d a b : BitVec 5) (c : BitVec 4) (o : BitVec 2) (s : State) : Res :=
  s.amo (fun old _ opd => some (arriveWord old opd)) false d a b c o

/-! ### FENCE (R176, R109) -/

/-- Whether a queued member counts as an access of one of the masked classes: memory members by their class, and the VMOV push family as
every class (R109). -/
def Member.fenced (m : Member) (mask : BitVec 16) : Bool :=
  match m.op with
  | .mov .push => true
  | .mov .take => true
  | .mov .poll => true
  | o => o.touches && mask.getLsbD m.cls

/-- FENCE (R176): earlier accesses have performed at their issue (log 3) but for the queued vector ones, a wait that R387 does not charge. Scopes 5 to 7 and an empty mask are
no instruction (R38). -/
def execFence (sc : BitVec 3) (mask : BitVec 16) (s : State) : Res :=
  if 5 ≤ sc.toNat ∨ mask = 0 then s.illegal
  else
    match s.me.findMember fun e => e.m.fenced mask with
    | some _ => s.wait
    | none => .next s.advance

end Sys2Proof.Machine
end

