-- ==== Sys2Proof/Machine/Code.lean ====
section
/-! DEFINITION. The coding engines' instructions and their queues (25_coding R354 to R364). -/

namespace Sys2Proof.Machine

/-! ### The request block (R354, R355, R357) -/

/-- The lifting sizes of TS 38.212: a · 2^j up to 384 (R354, log 10). -/
def liftingSize (z : Nat) : Bool :=
  decide (2 ≤ z) && decide (z ≤ 384)
    && [2, 3, 5, 7, 9, 11, 13, 15].any fun a => (List.range 8).any fun j => a * 2 ^ j == z

/-- The reserved bits of the words w2 to w7, and the alignments (R355). -/
def CodeReq.places (r : CodeReq) : Bool :=
  bitsOf (r.w 2) 52 12 == 0 && bitsOf (r.w 2) 6 26 == 0 && bitsOf (r.w 3) 52 12 == 0 && bitsOf (r.w 3) 6 26 == 0
    && r.inOff % 64 == 0 && r.outOff % 64 == 0 && bitsOf (r.w 4) 50 14 == 0 && r.hbuf % 64 == 0
    && bitsOf (r.w 5) 50 14 == 0 && r.raddr % 8 == 0 && r.w 6 == 0 && r.w 7 == 0

/-- The fields of w0 and w1 for LDPC: those that only a decode uses are 0 in an encode. DEDUCED: the bits must be those of a code of TS 38.212: at most K
of them, N_cb at most N with a bit to select in it, and E in whole symbols of Q_m bits (R354, log 10). -/
def CodeReq.ldpcFields (r : CodeReq) : Bool :=
  (if r.op = 0 then decide (1 ≤ r.iter) && decide (r.iter ≤ 32) else r.iter == 0 && !r.et && !r.hq)
    && (r.qm == 1 || r.qm == 2 || r.qm == 4 || r.qm == 6 || r.qm == 8 || r.qm == 10)
    && liftingSize r.zc && decide (r.kp ≤ if r.bg2 then 3840 else 8448)
    && decide (r.kp ≤ r.ldpcK) && decide (r.ncb ≤ r.ldpcN) && ((List.range r.ncb).any fun i => !(r.filler i)) && r.e % r.qm == 0

/-- The fields of w0 and w1 for polar codes: ITER, ET, HQ, RV, QM and NCB are not used. -/
def CodeReq.polarFields (r : CodeReq) : Bool :=
  bitsOf (r.w 0) 42 14 == 0 && bitsOf (r.w 1) 0 24 == 0 && bitsOf (r.w 0) 32 2 == 0
    && (bitsOf (r.w 0) 38 2 == 0 || bitsOf (r.w 0) 38 2 == 3) && (bitsOf (r.w 0) 34 4 == 9 || bitsOf (r.w 0) 34 4 == 10)
    && decide (12 ≤ r.kp) && decide (r.kp ≤ 1013) && decide (r.kp < r.e) && decide (r.e ≤ 8192)

/-- Whether a block is as R354 to R357 allow. -/
def CodeReq.valid (r : CodeReq) : Bool :=
  decide (r.op ≤ 3) && decide (r.crc ≤ 6) && bitsOf (r.w 0) 0 32 == 0 && decide (1 ≤ r.e) && decide (r.e ≤ 262144)
    && decide (r.crcLen < r.kp) && r.places && (if r.ldpc then r.ldpcFields else r.polarFields)
    && (!r.hq || r.hbuf != 0) && (r.hbuf == 0 || r.op == 0)

/-- The request of the issuing strand's block. -/
def State.codeReq (s : State) (p : Place) : CodeReq where
  key := s.cur
  core := s.myCore
  job := s.me.job
  root := s.rootOf s.cur
  id := (s.coreAt s.myCore).codeNext
  words := (List.range 8).map fun i => s.read64 (p.loc + 8 * i)

/-! ### The instructions -/

/-- CSUB's request enters an engine's queue, with both tiles taken (R361). -/
def State.enterCode (s : State) (d : BitVec 5) (y : Nat) (r : CodeReq) : Res :=
  let pc := s.me.pc.toNat
  let s1 := s.onTile r.core r.tin fun t => { t.take .draining 4 with by_ := pc }
  let s2 := s1.onTile r.core r.tout fun t => { t.take .filling 4 with by_ := pc }
  let s3 := s2.onCore r.core fun c => { c with codeNext := c.codeNext + 1, codeOpen := c.codeOpen ++ [r.id] }
  let s4 : State := { s3 with coding := Sparse.put s3.coding y (Sparse.get [] s3.coding y ++ [r]) }
  (s4.command r.core (codingStop y)).done d (BitVec.ofNat 64 r.id)

/-- CSUB (R361). -/
def execCsub (d a b : BitVec 5) (s : State) : Res :=
  let va := ea (s.rd a)
  if s.coordDest d then s.illegal
  else
    match s.request va 64 64 .read with
    | .error c => s.trapAt c va
    | .ok (p, s1) =>
      match s1.anyVectorMemory with
      | some e => s1.waitOn e.pc.toNat
      | none =>
        let r := s1.codeReq p
        let s1 := s1.requestLines r.core (some s1.cur) false [(p, 64)]
        let y := (s1.rd b).toNat % 16
        match s1.tile? r.core r.tin r.job, s1.tile? r.core r.tout r.job with
        | some ti, some tout =>
          if ti.state = .empty then s1.trap .tileEmpty 0
          else if ti.busy then s1.waitTile ti
          else if tout.busy then s1.waitTile tout
          else if !r.valid ∨ r.tin = r.tout ∨ ti.len < r.inOff + r.inBytes ∨ tout.len < r.outOff + r.outBytes then s1.done d (status 6)
          else if 64 ≤ (Sparse.get [] s1.coding y).length then s1.waitPoint
          else s1.enterCode d y r
        | _, _ => s1.trap .tileEmpty 0

/-- CMILE (R362). -/
def execCmile (d : BitVec 5) (s : State) : Res :=
  if s.coordDest d then s.illegal
  else
    let c := s.coreAt s.myCore
    s.done d (BitVec.ofNat 64 ((if c.codeFault then 2 ^ 63 else 0) + c.cmile % 2 ^ 63))

/-- CWAIT (R362). -/
def execCwait (a : BitVec 5) (s : State) : Res :=
  let i := (s.rd a).toNat
  let c := s.coreAt s.myCore
  if c.codeNext ≤ i then s.trap .code (s.rd a)
  else if c.codeFault && decide (c.codeFid ≤ i) then s.trap .code (BitVec.ofNat 64 c.codeFid)
  else if i < c.cmile then .next s.advance
  else s.waitPoint

/-! ### Engines at work (R358, R361, R363) -/

/-- CODING_REQUEST_START: the request at the head of an engine's queue starts. -/
def State.startCode (s : State) (y : Nat) : State :=
  match Sparse.get [] s.coding y with
  | [] => s
  | r :: rs => { s with coding := Sparse.put s.coding y ({ r with started := true } :: rs) }

/-- CODING_REQUEST_COMPLETE: the output and the soft buffer are written, the tiles turn READY, and the result word is stored. -/
def State.completeCode (s : State) (y : Nat) : State :=
  match Sparse.get [] s.coding y with
  | [] => s
  | r :: _ =>
    if !r.started ∨ (s.codeFault r).isSome then s
    else
      let inp := s.codeInput r
      match s.codeBuffer r with
      | .error _ => s
      | .ok (rs, s1) =>
        match s1.codeResultPlace r with
        | .error _ => s
        | .ok (place, s2) =>
          let c := r.run inp (if r.hq then s2.readRuns rs else [])
          let s2 := s2.codeRequests y r
          let s3 := if r.hbuf = 0 then s2 else s2.performChunks (runChunks rs c.buffer)
          let s4 := match Sparse.get none (s3.coreAt r.core).tiles r.tout with
            | none => s3
            | some t => s3.performChunks (chunksAt (tileLoc r.core t + r.outOff) c.out)
          let s5 := (s4.onTile r.core r.tin Tile.release).onTile r.core r.tout Tile.release
          let s6 := match place with
            | none => s5
            | some loc => (s5.engineRequests r.core (codingStop y) r.root true [(r.raddr, 8)]).performNat loc 8 (codeResult r c.early c.crcok c.iters c.status)
          (s6.codePass r).codeLeave y r

/-- The walks of a request whose buffer or result does not translate (R103). -/
def State.codeWalks (s : State) (r : CodeReq) : State :=
  (s.walkFaulting r.core r.root .write (if r.hbuf = 0 then [] else enginePieces (spanFuel r.ncb) r.hbuf r.ncb)).walkFaulting r.core r.root .write
    (if r.raddr = 0 then [] else [(r.raddr, 8)])

/-- CODING_FAULT: the request at the head of an engine's queue stops on a translation fault or an uncorrectable error (R363); the chunks
that it has written stay. -/
def State.failCode (s : State) (y : Nat) : State :=
  match Sparse.get [] s.coding y with
  | [] => s
  | r :: _ =>
    match (if !r.started then none else if s.input.struck then some 7 else s.codeFault r) with
    | none => s
    | some code =>
      let s0 := s.codeWalks r
      let s1 := ((s0.codeChunks y r).onTile r.core r.tin Tile.release).onTile r.core r.tout Tile.giveUp
      (s1.onCore r.core fun c =>
        let stuck := c.codeStuck ++ [(r.key, r.job)]
        if c.codeFault then { c with codeDiscard := c.codeDiscard ++ [r.id], codeStuck := stuck }
        else { c with codeFault := true, codeCode := code, codeFid := r.id, codeJob := r.job, codeStuck := stuck }).codeLeave y r

end Sys2Proof.Machine
end

