-- ==== Sys2Proof/Machine/VecOps.lean ====
section
/-! DEFINITION. What the vector instructions compute for one element, as functions of bit patterns (18_vector_arith R258 to R275;
19_vector_struct R285 to R289; 04_numbers R58 to R72). -/

namespace Sys2Proof.Machine

/-! ### Types (R54, R56, R58, R247): 0 i2, 1 i4, 2 i8, 3 n8, 4 i16, 5 n16, 6 i32, 7 n32, 8 i64, 9 n64, 10 f16, 11 bf16, 12 f32, 13 e4m3,
14 e5m2, 15 e3m2, 16 e2m3, 17 e2m1x, 18 ci8, 19 ci16, 20 cf16, 21 cbf16, 22 cf32 -/

def tyInt (t : Nat) : Bool := decide (t ≤ 9)
def tySigned (t : Nat) : Bool := t == 0 || t == 1 || t == 2 || t == 4 || t == 6 || t == 8
def tyFloat (t : Nat) : Bool := t == 10 || t == 11 || t == 12
def tyComplex (t : Nat) : Bool := decide (18 ≤ t) && decide (t ≤ 22)
def tyCplxFloat (t : Nat) : Bool := t == 20 || t == 21 || t == 22

/-- The type of each part of an element (R58); a real element is its own part. -/
def partTy (t : Nat) : Nat :=
  match t with
  | 18 => 2 | 19 => 4 | 20 => 10 | 21 => 11 | 22 => 12 | t => t

/-- How many parts an element has, and how wide they are. -/
def partCount (t : Nat) : Nat := if tyComplex t then 2 else 1
def partWidth (t : Nat) : Nat := typeWidth t / partCount t

/-- The float format of a type code. -/
def fmtOf (t : Nat) : Fmt :=
  match t with
  | 10 => fmtF16 | 11 => fmtBf16 | 12 => fmtF32 | 13 => fmtE4m3 | 14 => fmtE5m2 | 15 => fmtE3m2 | 16 => fmtE2m3
  | _ => fmtE2m1

/-- The parts of an element, the real part first. -/
def partsOf (n pw v : Nat) : List Nat := (List.range n).map fun p => v / 2 ^ (pw * p) % 2 ^ pw

/-- An element put together from its parts. -/
def joinParts (pw : Nat) : List Nat → Nat
  | [] => 0
  | p :: ps => p + 2 ^ pw * joinParts pw ps

/-- A result: bits, and the flags raised. -/
abbrev Rslt := Nat × Flags

/-- An exact value with the flags of its operations, rounded once. -/
def putOnce (f : Fmt) (mode : Mode) (r : FV × Flags) : Rslt := ((f.put mode r.1).1, r.2 ||| (f.put mode r.1).2)

/-- An operation on each part of two or three operands. -/
def onParts (n pw : Nat) (op : Nat → Nat → Nat → Rslt) (a b d : Nat) : Rslt :=
  let rs := (List.range n).map fun p =>
    op (a / 2 ^ (pw * p) % 2 ^ pw) (b / 2 ^ (pw * p) % 2 ^ pw) (d / 2 ^ (pw * p) % 2 ^ pw)
  (joinParts pw (rs.map (·.1)), rs.foldl (fun f r => f ||| r.2) 0)

/-! ### Integers (R262 to R264) -/

/-- A value clamped into a width; SAT if it was clamped. -/
def clampTo (sgn : Bool) (w : Nat) (x : Int) : Rslt := (truncInt (clampInt sgn w x).1 w, flagIf (clampInt sgn w x).2 flagSAT)

/-- The width of va, vb and vd of a VINT instruction on elements of width w. -/
def intWidths (o : IntOp) (w : Nat) : Nat × Nat × Nat :=
  match o with
  | .wadd => (w, w, 2 * w)
  | .wmul => (w, w, 2 * w)
  | .wmac => (w, w, 2 * w)
  | .nshr => (2 * w, w, w)
  | .dot4 => (4 * w, 4 * w, 4 * w)
  | _ => (w, w, w)

/-- Whether a VINT instruction writes a mask register. -/
def IntOp.compares (o : IntOp) : Bool :=
  match o with
  | .cmpeq => true
  | .cmplt => true
  | .cmpltn => true
  | _ => false

/-- VDOT4's sum of products of packed sub-elements. -/
def dot4 (w a b : Nat) : Int :=
  (List.range 4).foldl (fun s j => s + readInt true w (a / 2 ^ (w * j)) * readInt true w (b / 2 ^ (w * j))) 0

/-- The element result of a VINT instruction. -/
def intOp (o : IntOp) (w a b d : Nat) : Rslt :=
  let sa := readInt true w a
  let sb := readInt true w b
  match o with
  | .add => (truncInt ((a : Int) + b) w, 0)
  | .sub => (truncInt ((a : Int) - b) w, 0)
  | .mul => (truncInt ((a : Int) * b) w, 0)
  | .mulh => (truncInt (sa * sb / 2 ^ w) w, 0)
  | .mulhn => (a * b / 2 ^ w, 0)
  | .min => (if sb < sa then b else a, 0)
  | .max => (if sa < sb then b else a, 0)
  | .minn => (min a b, 0)
  | .maxn => (max a b, 0)
  | .and => (a &&& b, 0)
  | .or => (a ||| b, 0)
  | .xor => (a ^^^ b, 0)
  | .shl => (a * 2 ^ (b % w) % 2 ^ w, 0)
  | .shr => (a / 2 ^ (b % w), 0)
  | .sra => (truncInt (sa / 2 ^ (b % w)) w, 0)
  | .sadd => clampTo true w (sa + sb)
  | .saddn => clampTo false w ((a : Int) + b)
  | .ssub => clampTo true w (sa - sb)
  | .ssubn => clampTo false w ((a : Int) - b)
  | .wadd => (truncInt (sa + sb) (2 * w), 0)
  | .wmul => (truncInt (sa * sb) (2 * w), 0)
  | .wmac => (truncInt ((d : Int) + sa * sb) (2 * w), 0)
  | .nshr =>
    let x := readInt true (2 * w) a
    clampTo true w (roundToInt .rne (decide (x < 0)) x.natAbs (-((b % (2 * w) : Nat) : Int))).1
  | .dot4 => (truncInt ((d : Int) + dot4 w a b) (4 * w), 0)
  | .cmpeq => (if a = b then 1 else 0, 0)
  | .cmplt => (if sa < sb then 1 else 0, 0)
  | .cmpltn => (if a < b then 1 else 0, 0)

/-! ### Floats (R265, R266, R67) -/

/-- Whether a VFP instruction writes a mask register. -/
def FpOp.compares (o : FpOp) : Bool :=
  match o with
  | .cmpeq => true
  | .cmplt => true
  | .cmple => true
  | _ => false

/-- VFMIN, VFMAX and, with prop, VFMINP and VFMAXP (R67). -/
def fpPick (f : Fmt) (least prop : Bool) (a b : Nat) : Rslt :=
  let x := f.decode a
  let y := f.decode b
  let nv := flagIf (x.isSnan || y.isSnan) flagNV
  if x.isNan || y.isNan then
    if prop || (x.isNan && y.isNan) then (f.nan, nv) else (if x.isNan then b else a, nv)
  else if least then (if fvLess y x then b else a, nv)
  else (if fvLess x y then b else a, nv)

/-- VFCLASS (R266): one bit of ten. -/
def fpClass (f : Fmt) (a : Nat) : Nat :=
  match f.decode a with
  | .nan s => if s then 2 ^ 8 else 2 ^ 9
  | .inf n => if n then 1 else 2 ^ 7
  | .fin n m _ =>
    if m = 0 then (if n then 2 ^ 3 else 2 ^ 4)
    else if a / 2 ^ f.fw % 2 ^ f.ew = 0 then (if n then 2 ^ 2 else 2 ^ 5)
    else if n then 2 else 2 ^ 6

/-- The element result of a VFP instruction on codes of a format; a compare gives a bit. -/
def fpOp (o : FpOp) (f : Fmt) (mode : Mode) (a b d : Nat) : Rslt :=
  let x := f.decode a
  let y := f.decode b
  match o with
  | .add => putOnce f mode (fvSum mode [x, y])
  | .sub => putOnce f mode (fvSum mode [x, y.neg])
  | .mul => putOnce f mode (fvMul x y)
  | .ma =>
    let s := fvSum mode [(fvMul x y).1, f.decode d]
    putOnce f mode (s.1, (fvMul x y).2 ||| s.2)
  | .nma =>
    let s := fvSum mode [f.decode d, (fvMul x y).1.neg]
    putOnce f mode (s.1, (fvMul x y).2 ||| s.2)
  | .div => putOnce f mode (fvDiv x y)
  | .sqrt => putOnce f mode (fvSqrt x)
  | .rcp => putOnce f mode (fvDiv (.fin false 1 0) x)
  | .rsq => putOnce f mode (fvRsq x)
  | .min => fpPick f true false a b
  | .max => fpPick f false false a b
  | .minp => fpPick f true true a b
  | .maxp => fpPick f false true a b
  | .abs => (if x.isNan then f.nan else a % 2 ^ (f.ew + f.fw), 0)
  | .neg => (if x.isNan then f.nan else a ^^^ 2 ^ (f.ew + f.fw), 0)
  | .cmpeq => (if fvEq x y then 1 else 0, flagIf (x.isSnan || y.isSnan) flagNV)
  | .cmplt => (if fvLt x y then 1 else 0, flagIf (x.isNan || y.isNan) flagNV)
  | .cmple => (if fvLt x y || fvEq x y then 1 else 0, flagIf (x.isNan || y.isNan) flagNV)
  | .cls => (fpClass f a, 0)

/-! ### Complex (R267 to R270) -/

/-- A complex value. -/
structure Cx where
  re : FV
  im : FV
deriving DecidableEq, Repr, Inhabited

def cxDecode (f : Fmt) (pw v : Nat) : Cx := ⟨f.decode (v % 2 ^ pw), f.decode (v / 2 ^ pw % 2 ^ pw)⟩

/-- The exact sum of some terms, with the flags of the products among them. -/
def sumTerms (mode : Mode) (ts : List (FV × Flags)) : FV × Flags :=
  let s := fvSum mode (ts.map (·.1))
  (s.1, ts.foldl (fun f t => f ||| t.2) s.2)

/-- A term by itself, a product, and a product subtracted. -/
def term (x : FV) : FV × Flags := (x, 0)
def prod (x y : FV) : FV × Flags := fvMul x y
def lessProd (x y : FV) : FV × Flags := ((fvMul x y).1.neg, (fvMul x y).2)

/-- The terms of the two parts of a VCPLX result (R267); n is VCROT's power of j. -/
def cxTerms (o : CxOp) (n : Nat) (a b d : Cx) : List (FV × Flags) × List (FV × Flags) :=
  match o with
  | .mul => ([prod a.re b.re, lessProd a.im b.im], [prod a.re b.im, prod a.im b.re])
  | .mac => ([term d.re, prod a.re b.re, lessProd a.im b.im], [term d.im, prod a.re b.im, prod a.im b.re])
  | .macj => ([term d.re, prod a.re b.re, prod a.im b.im], [term d.im, prod a.re b.im, lessProd a.im b.re])
  | .conj => ([term a.re], [term a.im.neg])
  | .abs2 => ([prod a.re a.re, prod a.im a.im], [term fvZero])
  | .rot =>
    match n with
    | 0 => ([term a.re], [term a.im])
    | 1 => ([term a.im.neg], [term a.re])
    | 2 => ([term a.re.neg], [term a.im.neg])
    | _ => ([term a.im], [term a.re.neg])
  | .scl => ([prod a.re b.re], [prod a.im b.re])
  | .inv2 => ([], [])
  | .gjp => ([], [])

/-- Two parts, each rounded once, as an element. -/
def cxPut (f : Fmt) (mode : Mode) (pw : Nat) (re im : FV × Flags) : Rslt :=
  (joinParts pw [(putOnce f mode re).1, (putOnce f mode im).1], (putOnce f mode re).2 ||| (putOnce f mode im).2)

/-- The element result of a VCPLX instruction other than VCINV2 and VGJP. -/
def cxOp (o : CxOp) (f : Fmt) (mode : Mode) (pw n a b d : Nat) : Rslt :=
  let t := cxTerms o n (cxDecode f pw a) (cxDecode f pw b) (cxDecode f pw d)
  cxPut f mode pw (sumTerms mode t.1) (sumTerms mode t.2)

/-- An exact number m × 2^e. -/
abbrev Dy := Int × Int

def dyOf (x : FV) : Dy := match x with | .fin n m e => (signed n m, e) | _ => (0, 0)
def dyMul (a b : Dy) : Dy := (a.1 * b.1, a.2 + b.2)
def dyNeg (a : Dy) : Dy := (-a.1, a.2)

/-- An exact complex number. -/
abbrev CDy := Dy × Dy

def cdyOf (x : Cx) : CDy := (dyOf x.re, dyOf x.im)
def cdyNeg (x : CDy) : CDy := (dyNeg x.1, dyNeg x.2)
def cdyMul (x y : CDy) : CDy :=
  (dyAdd (dyMul x.1 y.1) (dyNeg (dyMul x.2 y.2)), dyAdd (dyMul x.1 y.2) (dyMul x.2 y.1))
def cdyConj (x : CDy) : CDy := (x.1, dyNeg x.2)

/-- The squared magnitude. -/
def cdyMag (x : CDy) : Dy := dyAdd (dyMul x.1 x.1) (dyMul x.2 x.2)

/-- a·d − b·c. -/
def det2 (a b c d : CDy) : CDy :=
  (dyAdd (cdyMul a d).1 (dyNeg (cdyMul b c).1), dyAdd (cdyMul a d).2 (dyNeg (cdyMul b c).2))

def cdyZero (x : CDy) : Bool := x.1.1 == 0 && x.2.1 == 0

/-- Whether a squared magnitude lies below %sngthr: a NaN or a threshold of at most +0 never triggers (R268). -/
def belowThr (thr : FV) (mag : Dy) : Bool :=
  match thr with
  | .nan _ => false
  | .inf n => !n
  | .fin n m e => !n && m != 0 && dyLt mag ((m : Int), e)

/-- An exact quotient of a signed number by a positive one; 0 gives a zero of the given sign. -/
def dyQuot (zeroNeg : Bool) (n d : Dy) : FV :=
  if n.1 = 0 then .fin zeroNeg 0 0 else quotient (decide (n.1 < 0)) n.1.natAbs d.1.natAbs (n.2 - d.2)

/-- The canonical NaN in both parts. -/
def cxNan (f : Fmt) (pw : Nat) : Nat := joinParts pw [f.nan, f.nan]

def Cx.finite (x : Cx) : Bool := !(notFinite x.re) && !(notFinite x.im)
def Cx.anyNan (x : Cx) : Bool := x.re.isNan || x.im.isNan
def Cx.anySnan (x : Cx) : Bool := x.re.isSnan || x.im.isSnan
def Cx.anyInf (x : Cx) : Bool := x.re.isInf || x.im.isInf

/-- x / det with det ≠ 0, each part rounded once; an exact zero part is +0 (R269). -/
def cdyDivPut (f : Fmt) (mode : Mode) (pw : Nat) (x det : CDy) : Rslt :=
  let n := cdyMul x (cdyConj det)
  cxPut f mode pw (term (dyQuot false n.1 (cdyMag det))) (term (dyQuot false n.2 (cdyMag det)))

/-- The numbers of a VCINV2 matrix after the regularisation, and whether it took place; none where %sngreg is no number (R269, log 26). -/
def regularise (thr reg : FV) (a b c d : CDy) : Option (CDy × CDy × Bool) :=
  if belowThr thr (cdyMag (det2 a b c d)) then
    if notFinite reg then none
    else some ((dyAdd a.1 (dyOf reg), a.2), (dyAdd d.1 (dyOf reg), d.2), true)
  else some (a, d, false)

/-- VCINV2 of one matrix (R269): the four results, each with its flags; free bits stand where the spec states no result. -/
def cxInv2 (f : Fmt) (mode : Mode) (pw : Nat) (thr reg : FV) (free : Nat → Nat) (a b c d : Cx) : List Rslt :=
  let all := [a, b, c, d]
  if all.any fun x => !x.finite then
    List.replicate 4 (cxNan f pw, flagIf (all.any fun x => x.anySnan || x.anyInf) flagNV)
  else
    match regularise thr reg (cdyOf a) (cdyOf b) (cdyOf c) (cdyOf d) with
    | none => (List.range 4).map fun i => (free i, flagSNG)
    | some (a1, d1, hit) =>
      let det := det2 a1 (cdyOf b) (cdyOf c) d1
      let sng := flagIf hit flagSNG
      if cdyZero det then List.replicate 4 (cxNan f pw, sng ||| flagDZ)
      else
        [d1, cdyNeg (cdyOf b), cdyNeg (cdyOf c), a1].map fun x =>
          ((cdyDivPut f mode pw x det).1, (cdyDivPut f mode pw x det).2 ||| sng)

/-- The pivot of VGJP after the regularisation, and whether it took place; none where %sngreg is no number (R270, log 26). -/
def regularisePivot (thr reg : FV) (p : Cx) : Option (Cx × Bool) :=
  if belowThr thr (cdyMag (cdyOf p)) then
    if notFinite reg then none
    else
      let r := dyAdd (dyOf p.re) (dyOf reg)
      some (⟨.fin (decide (r.1 < 0)) r.1.natAbs r.2, p.im⟩, true)
  else some (p, false)

/-- One part of v · conj(p) / |p|², as an exact value; the sign of an exact zero is R267's. -/
def gjpPart (mode : Mode) (mag : Dy) (ts : List (FV × Flags)) : FV × Flags :=
  match (sumTerms mode ts).1 with
  | .fin n m e => if m = 0 then (.fin n 0 0, 0) else (dyQuot n (signed n m, e) mag, 0)
  | v => (v, 0)

/-- VGJP of one element (R270): p the pivot, v the row element. -/
def cxGjp (f : Fmt) (mode : Mode) (pw : Nat) (thr reg : FV) (free : Nat) (p v : Cx) : Rslt :=
  if p.anyNan || v.anyNan then (cxNan f pw, flagIf (p.anySnan || v.anySnan) flagNV)
  else if v.anyInf then (cxNan f pw, flagNV)
  else if p.anyInf then (0, 0)
  else
    match regularisePivot thr reg p with
    | none => (free, flagSNG)
    | some (q, hit) =>
      let sng := flagIf hit flagSNG
      let mag := cdyMag (cdyOf q)
      if mag.1 = 0 then (cxNan f pw, sng ||| (if cdyZero (cdyOf v) then flagNV else flagDZ))
      else
        let r := cxPut f mode pw (gjpPart mode mag [prod v.re q.re, prod v.im q.im])
          (gjpPart mode mag [prod v.im q.re, lessProd v.re q.im])
        (r.1, r.2 ||| sng)

/-! ### Conversions (R60, R65, R271) -/

/-- A value into an integer format of width w. -/
def toInteger (sat : Bool) (mode : Mode) (sgn : Bool) (w : Nat) (x : FV) : Rslt :=
  let bad := if sat then flagSAT ||| flagNX else flagNV
  match x with
  | .nan _ => (0, flagNV)
  | .inf n => (truncInt (if n then intMin sgn w else intMax sgn w) w, bad)
  | .fin n m e =>
    let r := roundToInt mode n m e
    let c := clampInt sgn w r.1
    (truncInt c.1 w, if c.2 then bad else flagIf r.2 flagNX)

/-- A value into a float format; sat is VCVTSAT (R65). An infinity stays one in a format that has infinities, without a flag, under VCVTSAT too:
DESIGN CHOICE, R65's table has no such row (log 52). -/
def toFloat (sat : Bool) (f : Fmt) (mode : Mode) (x : FV) : Rslt :=
  match x with
  | .nan s =>
    match f.specials with
    | .none => (f.largest false, flagNV)
    | _ => (f.nan, flagIf s flagNV)
  | .inf n =>
    match f.specials with
    | .ieee => (f.inf n, 0)
    | .nanOnly => if sat then (f.largest n, flagSAT ||| flagNX) else (f.nan, flagOF)
    | .none => (f.largest n, if sat then flagNV ||| flagSAT ||| flagNX else flagNV)
  | .fin n m e => f.round mode (if sat then .saturate else .table) n m e

/-- An integer clamped by VCVTSAT: SAT and NX if it was clamped (R65). -/
def clampConvert (sgn : Bool) (w : Nat) (x : Int) : Rslt :=
  ((clampTo sgn w x).1, flagIf (clampInt sgn w x).2 (flagSAT ||| flagNX))

/-- One part converted from a type to a type: VCVT, VCVTSAT or VCVTZ. -/
def convertPart (o : CvtOp) (mode : Mode) (st dt v : Nat) : Rslt :=
  let sat := o == .sat
  if tyInt dt then
    if tyInt st then
      let x := readInt (tySigned st) (typeWidth st) v
      if sat then clampConvert (tySigned dt) (typeWidth dt) x else (truncInt x (typeWidth dt), 0)
    else toInteger sat (if o = .trunc then .rz else mode) (tySigned dt) (typeWidth dt) ((fmtOf st).decode v)
  else
    let x := if tyInt st then fvOfInt (readInt (tySigned st) (typeWidth st) v) else (fmtOf st).decode v
    toFloat sat (fmtOf dt) (if tyFloat dt then mode else .rne) x

/-- A conversion of an element. -/
def convertOp (o : CvtOp) (mode : Mode) (st dt v : Nat) : Rslt :=
  let rs := (partsOf (partCount st) (partWidth st) v).map (convertPart o mode (partTy st) (partTy dt))
  (joinParts (partWidth dt) (rs.map (·.1)), rs.foldl (fun f r => f ||| r.2) 0)

/-! ### Blocks (R68 to R72, R273, R274) -/

/-- The anvil's number of an MX element format of type code 13 to 17 (R315). -/
def mxFormat (t : Nat) : Nat :=
  match t with
  | 13 => 2 | 14 => 3 | 15 => 4 | 16 => 5 | _ => 6

/-- The value of an MX code under its block's scale and X, and NV from a NaN scale or X (R69, R70). -/
def mxValue (t code scale x : Nat) : FV × Flags :=
  if scale = 255 then (.nan false, flagNV)
  else
    let v := codeValue (mxFormat t) (if t = 17 then code % 16 else code) x
    (scaleBy scale v, flagIf (t == 17 && code % 16 == 8 && v.isNan) flagNV)

/-- An MX code decoded into a float type, RNE (R274, R281). -/
def mxDecode (t code scale x : Nat) (f : Fmt) : Rslt := putOnce f .rne (mxValue t code scale x)

/-- emax of R273. -/
def mxEmax (t : Nat) : Int :=
  match t with
  | 13 => 8 | 14 => 15 | 15 => 4 | _ => 2

/-- floor(log2 of the largest magnitude) − k, clamped to [−127, 127]; −127 when there is no non-zero magnitude. -/
def blockExp (k : Int) (xs : List FV) : Int :=
  let lg (x : FV) : Option Int := match x with | .fin _ m e => if m = 0 then none else some ((Nat.log2 m : Int) + e) | _ => none
  match (xs.filterMap lg) with
  | [] => -127
  | l :: ls => max (-127) (min 127 ((l :: ls).foldl max l - k))

/-- |x| / 2^e. -/
def scaleDown (e : Int) (x : FV) : FV := match x with | .fin n m q => .fin n m (q - e) | v => v

/-- Whether a magnitude exceeds 6. -/
def aboveSix (x : FV) : Bool := match x with | .fin _ m e => dyLt (6, 0) ((m : Int), e) | _ => false

/-- What VQUANT makes of one block: the scale byte, X, and the code and flags of each element. -/
structure Quantised where
  scale : Nat := 0
  x : Nat := 0
  codes : List Rslt := []
deriving DecidableEq, Repr, Inhabited

/-- The index of the largest magnitude, the lowest among ties (R71). -/
def largestIndex (xs : List FV) : Nat :=
  (List.range xs.length).foldl (fun b i => if fvLt (xs.getD b fvZero).abs (xs.getD i fvZero).abs then i else b) 0

/-- The code of an element that is not the outlier (R71 step 4, R72). -/
def e2m1Code (v : FV) : Rslt :=
  if aboveSix v then (if v.negative then 15 else 7, flagOVFO ||| flagNX)
  else
    let r := fmtE2m1.put .rne v
    (if r.1 % 8 = 0 then 0 else r.1, r.2)

/-- X of an outlier, with the flags of its element: saturated, it counts as an excess (R71 step 3, R72), and sets no OF beside OVFO and NX:
DESIGN CHOICE (log 51). -/
def outlierX (v : FV) : Rslt :=
  match v with
  | .fin n m e =>
    let r := fmtE4m3.round .rne .saturate n m e
    (r.1, if r.2 &&& flagSAT != 0 then flagOVFO ||| flagNX else r.2)
  | _ => (0, 0)

/-- VQUANT of the active elements of one block (R71, R273). -/
def quantBlock (t : Nat) (xs : List FV) : Quantised :=
  if xs.any notFinite then { scale := 255, codes := xs.map fun x => (0, flagIf (notFinite x) flagNV) }
  else if t = 17 then
    let j := largestIndex xs
    let e := blockExp 2 (xs.eraseIdx j)
    let top := scaleDown e (xs.getD j fvZero)
    let out := aboveSix top
    { scale := (e + 127).toNat
      x := if out then (outlierX top).1 else 0
      codes := (List.range xs.length).map fun i =>
        if out && i == j then (8, (outlierX top).2) else e2m1Code (scaleDown e (xs.getD i fvZero)) }
  else
    let e := blockExp (mxEmax t) xs
    { scale := (e + 127).toNat
      codes := xs.map fun x =>
        match scaleDown e x with
        | .fin n m q => (fmtOf t).round .rne .saturate n m q
        | _ => (0, 0) }

/-! ### Reductions (R288, R289) -/

/-- The smallest or largest of some elements; for none, the other end of the width's range (R288). -/
def intReduce (o : RedOp) (w : Nat) (xs : List Nat) : Nat :=
  let sgn := o == .min || o == .max
  let least := o == .min || o == .minn
  let ys := xs.map (readInt sgn w)
  truncInt (if least then ys.foldl min (intMax sgn w) else ys.foldl max (intMin sgn w)) w

/-- The exact sum of elements under the signedness of their type. -/
def intSum (t : Nat) (xs : List Nat) : Int := xs.foldl (fun s x => s + readInt true (typeWidth t) x) 0

/-- VFREDMIN and VFREDMAX (R67): the canonical NaN for none, or when every element is a NaN. -/
def fpReduce (f : Fmt) (least : Bool) (xs : List Nat) : Rslt :=
  match xs with
  | [] => (f.nan, 0)
  | x :: rest =>
    let first : Rslt := if (f.decode x).isNan then (f.nan, flagIf (f.decode x).isSnan flagNV) else (x, 0)
    rest.foldl (fun acc y => ((fpPick f least false acc.1 y).1, acc.2 ||| (fpPick f least false acc.1 y).2)) first

/-- The exact sum of some codes, rounded once; +0 for none. -/
def fpSum (f : Fmt) (mode : Mode) (xs : List Nat) : Rslt :=
  if xs.isEmpty then (0, 0) else putOnce f mode (fvSum mode (xs.map f.decode))

/-- What a reduction of the active elements gives: the element's bits, or for VREDSUM 64 bits. -/
def reduceOp (o : RedOp) (t : Nat) (mode : Mode) (xs : List Nat) : Rslt :=
  let f := fmtOf (partTy t)
  let pw := partWidth t
  match o with
  | .sum => (truncInt (intSum t xs) 64, 0)
  | .fsum => fpSum f mode xs
  | .fmin => fpReduce f true xs
  | .fmax => fpReduce f false xs
  | .csum =>
    let re := fpSum f mode (xs.map (· % 2 ^ pw))
    let im := fpSum f mode (xs.map (· / 2 ^ pw % 2 ^ pw))
    (joinParts pw [re.1, im.1], re.2 ||| im.2)
  | .min => (intReduce .min (typeWidth t) xs, 0)
  | .max => (intReduce .max (typeWidth t) xs, 0)
  | .minn => (intReduce .minn (typeWidth t) xs, 0)
  | .maxn => (intReduce .maxn (typeWidth t) xs, 0)

/-- The g result of a reduction: sign-extended under an i type (R288). -/
def reduceToG (o : RedOp) (t v : Nat) : W64 :=
  match o with
  | .sum => BitVec.ofNat 64 v
  | _ => if tySigned t && tyInt t then BitVec.ofInt 64 (readInt true (typeWidth t) v) else BitVec.ofNat 64 v

/-! ### Exchanges and butterflies (R286) -/

/-- Both outputs of a pair: va[l], va[u], vb[l], and the sign bits of VPLAN. -/
def distOp (o : DistOp) (t : Nat) (mode : Mode) (a u w : Nat) (sl su : Bool) : Rslt × Rslt :=
  let f := fmtOf (partTy t)
  let pw := partWidth t
  let real (x : Nat) : FV := f.decode (x % 2 ^ pw)
  let flip (n : Bool) (x : FV) : FV := if n then x.neg else x
  match o with
  | .xch => ((u, 0), (a, 0))
  | .plan =>
    let x := flip sl (real a)
    let y := flip su (real u)
    (putOnce f mode (fvSum mode [x, y]), putOnce f mode (fvSum mode [y, x.neg]))
  | .bfly =>
    if tyComplex t then
      let x := cxDecode f pw a
      let y := cxDecode f pw u
      let z := cxDecode f pw w
      (cxPut f mode pw (sumTerms mode [term x.re, prod y.re z.re, lessProd y.im z.im])
          (sumTerms mode [term x.im, prod y.re z.im, prod y.im z.re]),
       cxPut f mode pw (sumTerms mode [term x.re, lessProd y.re z.re, prod y.im z.im])
          (sumTerms mode [term x.im, lessProd y.re z.im, lessProd y.im z.re]))
    else
      (putOnce f mode (sumTerms mode [term (real a), prod (real u) (real w)]),
       putOnce f mode (sumTerms mode [term (real a), lessProd (real u) (real w)]))
  | .ibfly =>
    if tyComplex t then
      let x := cxDecode f pw a
      let y := cxDecode f pw u
      let z := cxDecode f pw w
      let dr := sumTerms mode [term x.re, term y.re.neg]
      let di := sumTerms mode [term x.im, term y.im.neg]
      let re := sumTerms mode [prod dr.1 z.re, lessProd di.1 z.im]
      let im := sumTerms mode [prod dr.1 z.im, prod di.1 z.re]
      let fl := dr.2 ||| di.2
      (cxPut f mode pw (sumTerms mode [term x.re, term y.re]) (sumTerms mode [term x.im, term y.im]),
       cxPut f mode pw (re.1, re.2 ||| fl) (im.1, im.2 ||| fl))
    else
      let dd := fvSum mode [real a, (real u).neg]
      let pr := fvMul dd.1 (real w)
      (putOnce f mode (fvSum mode [real a, real u]), putOnce f mode (pr.1, dd.2 ||| pr.2))

end Sys2Proof.Machine
end

