-- ==== Sys2Proof/Machine/Members.lean ====
section
/-! DEFINITION. The members of convoys: what each reads, writes and permits, and what it makes of its elements (03 R45, R46; 17_vector_model
R245 to R256; 18 R259 to R275; 19 R277 to R292). -/

namespace Sys2Proof.Machine

/-! ### Vector and mask registers (R245, R246, R251) -/

/-- The stored bits of element i of v(r) at a width. -/
def Ctx.vraw (c : Ctx) (r w i : Nat) : Nat :=
  let a := 2048 * r + i * w / 8
  if w < 8 then (Sparse.get 0 c.vreg a).toNat / 2 ^ (i * w % 8) % 2 ^ w
  else leNat ((List.range (w / 8)).map fun j => Sparse.get 0 c.vreg (a + j))

def Ctx.vbyte (c : Ctx) (r b : Nat) : Byte := Sparse.get 0 c.vreg (2048 * r + b)

def Ctx.setVbyte (c : Ctx) (r b : Nat) (v : Byte) : Ctx := { c with vreg := Sparse.set 0 c.vreg (2048 * r + b) v }

/-- A byte with w of its bits, from bit lo, replaced. -/
def withBits (old : Byte) (lo w v : Nat) : Byte :=
  BitVec.ofNat 8 (old.toNat - old.toNat / 2 ^ lo % 2 ^ w * 2 ^ lo + v % 2 ^ w * 2 ^ lo)

/-- Element i of v(r) written at a width. -/
def Ctx.vput (c : Ctx) (r w i v : Nat) : Ctx :=
  let b := i * w / 8
  if w < 8 then c.setVbyte r b (withBits (c.vbyte r b) (i * w % 8) w v)
  else { c with vreg := pokeBytes c.vreg (2048 * r + b) (leBytes (w / 8) v) }

def Ctx.lenOf (c : Ctx) (r : Nat) : Nat := Sparse.get 0 c.len r

/-- Bit r of %vdirty set (R251). -/
def Ctx.setDirty (c : Ctx) (r : Nat) : Ctx := c.crSet 0x10A (c.crGet 0x10A ||| BitVec.ofNat 64 (2 ^ r))

/-- Bit i of m(r). -/
def Ctx.mbit (c : Ctx) (r i : Nat) : Bool := (Sparse.get 0 c.mreg (1024 * r + i / 8)).getLsbD (i % 8)

def Ctx.setMbit (c : Ctx) (r i : Nat) (b : Bool) : Ctx :=
  let a := 1024 * r + i / 8
  { c with mreg := Sparse.set 0 c.mreg a (withBits (Sparse.get 0 c.mreg a) (i % 8) 1 (if b then 1 else 0)) }

/-- Bits n to 8,191 of m(r) cleared (R246). -/
def Ctx.clearMask (c : Ctx) (r n : Nat) : Ctx :=
  let c1 := (List.range ((8 - n % 8) % 8)).foldl (fun c j => c.setMbit r (n + j) false) c
  { c1 with mreg := Sparse.without c1.mreg (1024 * r + ceilDiv n 8) (1024 * r + 1024) }

/-- Whether every bit of m(r) is 0 (R138). -/
def Ctx.maskEmpty (c : Ctx) (r : Nat) : Bool := (Sparse.between c.mreg (1024 * r) (1024 * r + 1024)).all fun p => p.2 == 0

/-! ### Pipe classes (R45) -/

inductive Pipe where
  | valu | vx | plan | vls | vcv | vset
deriving DecidableEq, Repr, Inhabited

def VOp.pipe (o : VOp) : Pipe :=
  match o with
  | .vset _ => .vset
  | .refused => .vset
  | .load _ => .vls
  | .store _ => .vls
  | .int _ => .valu
  | .fp _ => .valu
  | .cx _ => .valu
  | .vx _ => .vx
  | .dist .plan => .plan
  | .dist _ => .vx
  | .mask _ => .valu
  | .red _ => .vx
  | .scan => .vx
  | .ltrip => .valu
  | .lstep => .valu
  | .cvt _ => .vcv
  | .mov .mv => .valu
  | .mov .id => .valu
  | .mov .mvs => .vx
  | .mov .ext => .vx
  | .mov .ins => .vx
  | .mov _ => .vls

/-- Whether a member is of the VX class, a planish chain included: on a fault it commits nothing (R199). -/
def VOp.whole (o : VOp) : Bool := o.pipe == .vx || o.pipe == .plan

/-- Whether a member synchronises and writes a g register (R48). -/
def Member.syncs (m : Member) : Bool :=
  match m.op with
  | .mask .first => true
  | .mask .pop => true
  | .mov .ext => true
  | .mov .poll => true
  | .red _ => m.b == 1
  | _ => false

/-- Whether a synchronising member stands in the queue: the scalar pipe waits for it (R132). -/
def Ctx.awaitsSync (c : Ctx) : Bool := c.queue.any fun q => match q with | .entry e => e.m.syncs | .level _ => false

/-! ### What a member reads and writes (R46, R261) -/

def FpOp.unary (o : FpOp) : Bool :=
  match o with
  | .sqrt => true
  | .rcp => true
  | .rsq => true
  | .abs => true
  | .neg => true
  | .cls => true
  | _ => false

def CxOp.unary (o : CxOp) : Bool :=
  match o with
  | .conj => true
  | .abs2 => true
  | .rot => true
  | .inv2 => true
  | _ => false

/-- The registers a member reads and those it writes: v(n) as n, m(n) as 32 + n. -/
structure Uses where
  rd : List Nat := []
  wr : List Nat := []

/-- The registers a member names apart from its mk field. -/
def Member.fields (m : Member) (ty : Nat) (set : VSettings) : Uses :=
  let d := m.d
  let a := m.a
  let b := m.b
  match m.op with
  | .vset _ => {}
  | .refused => {}
  | .load .indexed => ⟨[b], [d]⟩
  | .load .segment => if ty = set.vqfmt then ⟨[], [d, b]⟩ else ⟨[], [d]⟩
  | .load _ => ⟨[], [d]⟩
  | .store .indexed => ⟨[d, b], []⟩
  | .store .segment => ⟨[d, b], []⟩
  | .store _ => ⟨[d], []⟩
  | .int o =>
    if o.compares then ⟨[a, b], [32 + d]⟩
    else if o = .wmac ∨ o = .dot4 then ⟨[a, b, d], [d]⟩ else ⟨[a, b], [d]⟩
  | .fp o =>
    if o.compares then ⟨[a, b], [32 + d]⟩
    else if o.unary then ⟨[a], [d]⟩
    else if o = .ma ∨ o = .nma then ⟨[a, b, d], [d]⟩ else ⟨[a, b], [d]⟩
  | .cx o =>
    if o.unary then ⟨[a], [d]⟩
    else if o = .mac ∨ o = .macj then ⟨[a, b, d], [d]⟩ else ⟨[a, b], [d]⟩
  | .vx .perm => ⟨[a, b], [d]⟩
  | .vx .pack => ⟨[a, 32 + b], [d]⟩
  | .vx _ => ⟨[a], [d]⟩
  | .dist .bfly => ⟨[a, b], [d]⟩
  | .dist .ibfly => ⟨[a, b], [d]⟩
  | .dist .plan => ⟨if b = 0 then [a] else [a, 32 + b], [d]⟩
  | .dist .xch => ⟨[a], [d]⟩
  | .mask .mnot => ⟨[32 + a], [32 + d]⟩
  | .mask .upto => ⟨[32 + a], [32 + d]⟩
  | .mask .first => ⟨[32 + a], []⟩
  | .mask .pop => ⟨[32 + a], []⟩
  | .mask _ => ⟨[32 + a, 32 + b], [32 + d]⟩
  | .red _ => ⟨[a], if b = 0 then [d] else []⟩
  | .scan => ⟨[a], [d]⟩
  | .ltrip => ⟨[a], [d, 32 + b]⟩
  | .lstep => ⟨[d, 32 + b], [d, 32 + b]⟩
  | .cvt .quant => ⟨[a], [d, b]⟩
  | .cvt .deq => ⟨[a, b], [d]⟩
  | .cvt _ => ⟨[a], [d]⟩
  | .mov .mv => ⟨[a], [d]⟩
  | .mov .mvs => ⟨[], [d]⟩
  | .mov .ext => ⟨[a], []⟩
  | .mov .ins => ⟨[], [d]⟩
  | .mov .id => ⟨[], [d]⟩
  | .mov .push => ⟨[a], []⟩
  | .mov .take => ⟨[], [d]⟩
  | .mov .poll => {}

/-- The registers a member reads and writes; an exception mask is a write (R46). -/
def Member.uses (m : Member) (ty : Nat) (set : VSettings) : Uses :=
  let u := m.fields ty set
  if m.emask = 0 then u
  else if m.x then { u with wr := u.wr ++ [32 + m.emask] } else { u with rd := u.rd ++ [32 + m.emask] }

/-- The registers that decide which elements of a member access memory, and where: its execution mask and a vector of offsets. -/
def Member.places (m : Member) : List Nat :=
  (match m.op with | .load .indexed => [m.b] | .store .indexed => [m.b] | _ => []) ++ if m.emask != 0 && !m.x then [32 + m.emask] else []

/-- Which of d, a and b name vector registers, for the rotation of names (R137). -/
def VOp.names (o : VOp) : Bool × Bool × Bool :=
  match o with
  | .vset _ => (false, false, false)
  | .refused => (false, false, false)
  | .load m => (true, false, m == .indexed || m == .segment)
  | .store m => (true, false, m == .indexed || m == .segment)
  | .int o => (!o.compares, true, true)
  | .fp o => (!o.compares, true, true)
  | .cx o => (true, true, o != .rot)
  | .vx o => (true, true, o == .perm)
  | .dist o => (true, true, o == .bfly || o == .ibfly)
  | .mask _ => (false, false, false)
  | .red _ => (true, true, false)
  | .scan => (true, true, false)
  | .ltrip => (true, true, false)
  | .lstep => (true, false, false)
  | .cvt o => (true, true, o == .quant || o == .deq)
  | .mov .mv => (true, true, false)
  | .mov .mvs => (true, false, false)
  | .mov .ext => (false, true, false)
  | .mov .ins => (true, false, false)
  | .mov .id => (true, false, false)
  | .mov .push => (false, true, false)
  | .mov .take => (true, false, false)
  | .mov .poll => (false, false, false)

/-- v(16 + j) names v(16 + ((j − rb) mod 16)) (R137). -/
def rotated (rb r : Nat) : Nat := if r < 16 then r else 16 + (r + 16 - rb % 16) % 16

def Member.rotate (m : Member) (rb : Nat) : Member :=
  let n := m.op.names
  let g := match m.op with | .red _ => m.b == 1 | _ => false
  { m with
    d := if n.1 && !g then rotated rb m.d else m.d
    a := if n.2.1 then rotated rb m.a else m.a
    b := if n.2.2 then rotated rb m.b else m.b }

/-! ### Limits (R260 to R291) -/

/-- The widest element a member reads or writes (R261). -/
def Member.width (m : Member) (ty : Nat) : Nat :=
  let w := typeWidth ty
  match m.op with
  | .load .indexed => max w 16
  | .store .indexed => max w 16
  | .vx .perm => max w 16
  | .int o => max (max (intWidths o w).1 (intWidths o w).2.1) (intWidths o w).2.2
  | .cvt .cvt => max w (typeWidth m.b)
  | .cvt .sat => max w (typeWidth m.b)
  | .cvt .trunc => max w (typeWidth m.b)
  | _ => w

/-- Limits of a word of 19_vector_struct that do not depend on VL, type or settings: such a word is no instruction (R42). -/
def Member.malformed (m : Member) : Bool :=
  let xbad := m.x && m.emask == 0
  match m.op with
  | .vx .pack => decide (7 < m.b)
  | .dist .plan => xbad || decide (7 < m.b)
  | .dist _ => xbad
  | .mask .first => decide (7 < m.a)
  | .mask .pop => decide (7 < m.a)
  | .mask .mnot => decide (7 < m.a) || decide (7 < m.d)
  | .mask .upto => decide (7 < m.a) || decide (7 < m.d)
  | .mask _ => decide (7 < m.a) || decide (7 < m.b) || decide (7 < m.d)
  | .red _ => xbad || decide (1 < m.b) || (m.x && m.b == 1)
  | .scan => xbad
  | .ltrip => m.x || decide (7 < m.b)
  | .lstep => m.x || decide (7 < m.b)
  | _ => false

/-- Whether a conversion's types are a legal pair (R271). -/
def convertLegal (o : CvtOp) (st dt : Nat) : Bool :=
  decide (st ≤ 22) && decide (dt ≤ 22) && st != 17 && dt != 17 && tyComplex st == tyComplex dt
    && (o != .trunc || tyInt (partTy dt))

/-- Whether the x field and a mask destination go together (R260). -/
def Member.xLegal (m : Member) (maskDest : Bool) : Bool := !m.x || (m.emask != 0 && !(maskDest && m.emask == m.d))

/-- Whether a VINT member keeps its limits (R260, R262 to R264). -/
def intLegal (m : Member) (o : IntOp) (ty vl : Nat) : Bool :=
  let w := typeWidth ty
  tyInt ty && m.xLegal o.compares &&
    match o with
    | .wadd => w != 64 && decide (vl ≤ 16384 / (2 * w)) && m.d != m.a && m.d != m.b
    | .wmul => w != 64 && decide (vl ≤ 16384 / (2 * w)) && m.d != m.a && m.d != m.b
    | .wmac => w != 64 && decide (vl ≤ 16384 / (2 * w)) && m.d != m.a && m.d != m.b
    | .nshr => w != 64 && decide (vl ≤ 16384 / (2 * w)) && m.d != m.a
    | .dot4 => decide (w ≤ 16) && decide (vl ≤ 16384 / (4 * w))
    | o => !o.compares || decide (m.d ≤ 7)

/-- Whether a member keeps the limits that hang on VL, the type and the settings of its place (R260). -/
def Member.legal (m : Member) (ty vl : Nat) (set : VSettings) : Bool :=
  let w := typeWidth ty
  match m.op with
  | .vset _ => true
  | .refused => false
  | .int o => intLegal m o ty vl
  | .fp o =>
    m.xLegal o.compares && (tyFloat ty || (tyCplxFloat ty && (o == .add || o == .sub || o == .neg)))
      && (!o.compares || decide (m.d ≤ 7))
  | .cx o => m.xLegal false && tyCplxFloat ty && (o != .rot || decide (m.b ≤ 3)) && (o != .inv2 || vl % 4 == 0)
  | .cvt .quant => m.xLegal false && tyFloat ty && vl % 32 == 0 && m.d != m.a && m.d != m.b && m.a != m.b
  | .cvt .deq => m.xLegal false && tyFloat ty && vl % 32 == 0 && m.d != m.a && m.d != m.b
  | .cvt .tdec => m.xLegal false && tyFloat ty && vl % 96 == 0 && m.d != m.a
  | .cvt o =>
    m.xLegal false && convertLegal o ty m.b && decide (vl ≤ vlMax m.b) && (typeWidth m.b == w || m.d != m.a)
  | .load .strided => decide (8 ≤ w)
  | .store .strided => decide (8 ≤ w)
  | .load .indexed => decide (8 ≤ w) && decide (vl ≤ 16384 / max w 16)
  | .store .indexed => decide (8 ≤ w) && decide (vl ≤ 16384 / max w 16)
  | .load .segment => vl % 32 == 0 && (ty == set.vqfmt || (tyFloat ty && m.b == 0))
  | .store .segment => vl % 32 == 0 && ty == set.vqfmt
  | .load _ => true
  | .store _ => true
  | .vx .perm => decide (vl ≤ 16384 / max w 16)
  | .vx .zip => vl % 2 == 0
  | .vx .unzip => vl % 2 == 0
  | .vx _ => true
  | .dist .xch => true
  | .dist .plan => tyFloat ty && decide (2 ^ m.ld ≤ vl / 2) && vl % (2 * 2 ^ m.ld) == 0
  | .dist _ => tyFloat ty || tyCplxFloat ty
  | .mask _ => true
  | .red .fsum => tyFloat ty
  | .red .fmin => tyFloat ty
  | .red .fmax => tyFloat ty
  | .red .csum => tyCplxFloat ty
  | .red _ => tyInt ty
  | .scan => tyInt ty || tyFloat ty
  | .ltrip => tyInt ty
  | .lstep => tyInt ty
  | .mov .id => tyInt ty
  | .mov _ => true

/-! ### What a member sees and makes -/

/-- What a member executes on: the strand's registers, VL and type, its first element, and where free values start. -/
structure View where
  c : Ctx := {}
  vl : Nat := 0
  ty : Nat := 0
  lo : Nat := 0
  free : Nat := 0

/-- A store that a member makes: bytes at a location, or bits of one byte (R105). -/
inductive Put where
  | bytes (loc : Nat) (bs : List Byte)
  | bits (loc lo w v : Nat)
deriving DecidableEq, Repr, Inhabited

/-- What one active element makes. -/
structure Elem where
  i : Nat := 0
  /-- bits for the vector destination -/
  val : Option Nat := none
  /-- bit for the mask destination -/
  bit : Option Bool := none
  flags : Flags := 0
  /-- a fault of its access, with its address -/
  fault : Option (Cause × Nat) := none
  puts : List Put := []
  /-- bytes for the side register, by byte -/
  side : List (Nat × Byte) := []
deriving DecidableEq, Repr, Inhabited

/-- What a member makes. -/
structure Made where
  elems : List Elem := []
  /-- the g result -/
  g : Option W64 := none
  /-- the image of a VPUSH, and its peer -/
  push : Option (Nat × List Byte) := none
  /-- the image a VTAKE takes, by place in the inbox -/
  take : Option (Nat × List Byte) := none
deriving DecidableEq, Repr, Inhabited

/-- Whether element i is selected by the execution mask (R250, R255). -/
def View.selected (v : View) (m : Member) (i : Nat) : Bool := m.x || m.emask == 0 || v.c.mbit m.emask i

/-- The active elements below hi, in order. -/
def View.active (v : View) (m : Member) (hi : Nat) : List Nat :=
  (List.range (min hi v.vl)).filter fun i => decide (v.lo ≤ i) && v.selected m i

/-- Every selected element below VL, %vstart left aside: what a reduction or a scan reads, as a VX member (R200). -/
def View.whole (v : View) (m : Member) : List Nat := (List.range v.vl).filter (v.selected m)

/-- The bits an element of a type holds in a register: of an e3m2 or e2m3 byte the low six (R247). -/
def codeBits (ty w v : Nat) : Nat := if (ty = 15 ∨ ty = 16) ∧ w = 8 then v % 64 else v

/-- Element i of v(r): the fill value at or beyond VL (R251). -/
def View.src (v : View) (e : Entry) (r w i : Nat) : Nat :=
  codeBits v.ty w (if v.vl ≤ i then e.set.vfill.toNat % 2 ^ w else v.c.vraw r w i)

/-- Free bits of a width, for element i. -/
def View.freeBits (v : View) (w i : Nat) : Nat :=
  leNat ((List.range (ceilDiv w 8)).map fun j => Config.freeByte (v.free + 8 * i + j)) % 2 ^ w

/-- The rounding mode of an entry. -/
def Entry.mode (e : Entry) : Mode := Mode.ofBits e.set.round

/-- The elements that a function of the index gives bits and flags for. -/
def mapElems (is : List Nat) (f : Nat → Rslt) : Made :=
  { elems := is.map fun i => { i := i, val := some (f i).1, flags := (f i).2 } }

/-- The same for a mask destination: a non-zero result is a 1. -/
def mapBits (is : List Nat) (f : Nat → Rslt) : Made :=
  { elems := is.map fun i => { i := i, bit := some ((f i).1 != 0), flags := (f i).2 } }

/-! ### VINT, VFP, VCPLX -/

def View.int (v : View) (e : Entry) (o : IntOp) (hi : Nat) : Made :=
  let w := typeWidth v.ty
  let (wa, wb, wd) := intWidths o w
  let f (i : Nat) : Rslt :=
    intOp o w (v.src e e.m.a wa i) (v.src e e.m.b wb i) (if o = .wmac ∨ o = .dot4 then v.src e e.m.d wd i else 0)
  if o.compares then mapBits (v.active e.m hi) f else mapElems (v.active e.m hi) f

def View.fp (v : View) (e : Entry) (o : FpOp) (hi : Nat) : Made :=
  let w := typeWidth v.ty
  let op := fpOp o (fmtOf (partTy v.ty)) e.mode
  let d (i : Nat) : Nat := if o = .ma ∨ o = .nma then v.src e e.m.d w i else 0
  let f (i : Nat) : Rslt :=
    onParts (partCount v.ty) (partWidth v.ty) op (v.src e e.m.a w i) (if o.unary then 0 else v.src e e.m.b w i) (d i)
  if o.compares then mapBits (v.active e.m hi) f else mapElems (v.active e.m hi) f

/-- VCINV2's matrices: matrix k is active when element 4k is (R269). -/
def View.inv2 (v : View) (e : Entry) (hi : Nat) : Made :=
  let w := typeWidth v.ty
  let f := fmtOf (partTy v.ty)
  let at_ (i : Nat) : Cx := cxDecode f (w / 2) (v.src e e.m.a w i)
  let heads := (v.active e.m hi).filter (· % 4 == 0)
  { elems := heads.flatMap fun i =>
      let rs := cxInv2 f e.mode (w / 2) (fmtF32.decode e.set.sngthr.toNat) (fmtF32.decode e.set.sngreg.toNat)
        (fun j => v.freeBits w (i + j)) (at_ i) (at_ (i + 1)) (at_ (i + 2)) (at_ (i + 3))
      rs.zipIdx.map fun r => { i := i + r.2, val := some r.1.1, flags := r.1.2 } }

def View.cx (v : View) (e : Entry) (o : CxOp) (hi : Nat) : Made :=
  let w := typeWidth v.ty
  let f := fmtOf (partTy v.ty)
  match o with
  | .inv2 => v.inv2 e hi
  | .gjp =>
    mapElems (v.active e.m hi) fun i =>
      cxGjp f e.mode (w / 2) (fmtF32.decode e.set.sngthr.toNat) (fmtF32.decode e.set.sngreg.toNat) (v.freeBits w i)
        (cxDecode f (w / 2) (v.src e e.m.a w i)) (cxDecode f (w / 2) (v.src e e.m.b w i))
  | o =>
    mapElems (v.active e.m hi) fun i =>
      cxOp o f e.mode (w / 2) e.m.b (v.src e e.m.a w i) (if o.unary then 0 else v.src e e.m.b w i) (v.src e e.m.d w i)

/-! ### VCVT -/

/-- Runs of elements with one index quotient: the blocks of some elements, in order. -/
def blocksOf (size : Nat) (is : List Nat) : List (List Nat) :=
  is.foldr (fun i acc =>
    match acc with
    | (j :: js) :: rest => if i / size = j / size then (i :: j :: js) :: rest else [i] :: (j :: js) :: rest
    | _ => [[i]]) []

/-- VQUANT of one block of active elements (R273): the side bytes go with its lowest element. -/
def View.quantElems (v : View) (e : Entry) (is : List Nat) : List Elem :=
  let f := fmtOf v.ty
  let q := quantBlock e.set.vqfmt (is.map fun i => f.decode (v.src e e.m.a (typeWidth v.ty) i))
  is.zipIdx.map fun p =>
    let r := q.codes.getD p.2 (0, 0)
    { i := p.1, val := some r.1, flags := r.2
      side := if p.2 = 0 then [(2 * (p.1 / 32), BitVec.ofNat 8 q.scale), (2 * (p.1 / 32) + 1, BitVec.ofNat 8 q.x)] else [] }

/-- Whether a code of a block meets a NaN scale or X (R69, R70). -/
def blockNv (t code scale x : Nat) : Bool := (mxValue t code scale x).2 != 0

/-- A decoded code: its bits, with NV of a signalling NaN code alone. -/
def mxPut (t code scale x : Nat) (f : Fmt) : Rslt := toFloat false f .rne (mxValue t code scale x).1

/-- One block of codes decoded: NV of the block is raised by its lowest element concerned (R69, R70, R282). -/
def decodeBlock (t : Nat) (f : Fmt) (code : Nat → Nat) (scale x : Nat) (is : List Nat) : List Elem :=
  let first := is.find? fun i => blockNv t (code i) scale x
  is.map fun i =>
    let r := mxPut t (code i) scale x f
    { i := i, val := some r.1, flags := r.2 ||| flagIf (first == some i) flagNV }

def View.deq (v : View) (e : Entry) (hi : Nat) : Made :=
  let t := e.set.vqfmt
  { elems := (blocksOf 32 (v.active e.m hi)).flatMap fun is =>
      let b := is.headD 0 / 32
      decodeBlock t (fmtOf v.ty) (fun i => v.src e e.m.a (typeWidth t) i) (v.c.vbyte e.m.b (2 * b)).toNat
        (v.c.vbyte e.m.b (2 * b + 1)).toNat is }

/-- VTDEC (R275): segment k of va at byte k × the segment size. -/
def View.tdec (v : View) (e : Entry) (hi : Nat) : Made :=
  let n := segmentBytes e.set.tadv
  mapElems (v.active e.m hi) fun i =>
    let bs := (List.range n).map fun j => v.c.vbyte e.m.a (i / 96 * n + j)
    putOnce (fmtOf v.ty) .rne
      (fvMul (fvOfInt (weightValue e.set.tadv e.set.tlen (segStream e.set.tadv bs) (i % 96))) (fmtBf16.decode (segScale e.set.tadv bs)))

def View.cvt (v : View) (e : Entry) (o : CvtOp) (hi : Nat) : Made :=
  match o with
  | .quant => { elems := (blocksOf 32 (v.active e.m hi)).flatMap (v.quantElems e) }
  | .deq => v.deq e hi
  | .tdec => v.tdec e hi
  | o => mapElems (v.active e.m hi) fun i => convertOp o e.mode v.ty e.m.b (v.src e e.m.a (typeWidth v.ty) i)

/-! ### VX, VDIST, VMASK, VMOV -/

def View.vx (v : View) (e : Entry) (o : XOp) (hi : Nat) : Made :=
  let w := typeWidth v.ty
  let fill := codeBits v.ty w (e.set.vfill.toNat % 2 ^ w)
  let a (i : Nat) : Nat := v.src e e.m.a w i
  let s := e.g1.toNat
  let packed := (List.range v.vl).filter fun j => v.c.mbit e.m.b j
  mapElems (v.active e.m hi) fun i =>
    match o with
    | .perm => (a (v.src e e.m.b (max w 16) i), 0)
    | .slup => (if s ≤ i then a (i - s) else fill, 0)
    | .sldn => (a (i + s), 0)
    | .rev => (a (v.vl - 1 - i), 0)
    | .pack => (match packed[i]? with | some j => a j | none => fill, 0)
    | .zip => (if i % 2 = 0 then a (i / 2) else a (v.vl / 2 + (i - 1) / 2), 0)
    | .unzip => (if i < v.vl / 2 then a (2 * i) else a (2 * (i - v.vl / 2) + 1), 0)

def View.dist (v : View) (e : Entry) (o : DistOp) (hi : Nat) : Made :=
  let w := typeWidth v.ty
  let d := 2 ^ e.m.ld
  mapElems (v.active e.m hi) fun i =>
    let upper := i / d % 2 = 1
    let l := if upper then i - d else i
    let u := l + d
    let r := distOp o v.ty e.mode (v.src e e.m.a w l) (v.src e e.m.a w u) (v.src e e.m.b w l)
      (e.m.b != 0 && v.c.mbit e.m.b l) (e.m.b != 0 && decide (u < v.vl) && v.c.mbit e.m.b u)
    if upper then r.2 else r.1

/-- The index VMFIRST finds (R287). -/
def View.firstOf (v : View) (m : Member) : Option Nat := (v.active m v.vl).find? fun i => v.c.mbit m.a i

def boolRslt (b : Bool) : Rslt := (if b then 1 else 0, 0)

def View.mask (v : View) (e : Entry) (o : MaskOp) (hi : Nat) : Made :=
  let a (i : Nat) : Bool := v.c.mbit e.m.a i
  let b (i : Nat) : Bool := v.c.mbit e.m.b i
  let is := v.active e.m hi
  match o with
  | .mand => mapBits is fun i => boolRslt (a i && b i)
  | .mor => mapBits is fun i => boolRslt (a i || b i)
  | .mxor => mapBits is fun i => boolRslt (a i != b i)
  | .mnot => mapBits is fun i => boolRslt (!(a i))
  | .upto =>
    mapBits is fun i => boolRslt (match v.firstOf e.m with | some f => decide (i ≤ f) | none => true)
  | .first => { g := some (match v.firstOf e.m with | some f => BitVec.ofNat 64 f | none => -1) }
  | .pop => { g := some (BitVec.ofNat 64 ((v.active e.m v.vl).filter a).length) }

/-- The elements that only report their exception bit: every one but element 0, under x = 1 (R288). -/
def View.quietBits (v : View) (m : Member) : List Elem :=
  if m.x then ((List.range v.vl).drop 1).map fun i => { i := i } else []

def View.red (v : View) (e : Entry) (o : RedOp) : Made :=
  let w := typeWidth v.ty
  let r := reduceOp o v.ty e.mode ((v.whole e.m).map fun i => v.src e e.m.a w i)
  if e.m.b = 1 then
    { elems := if v.vl = 0 then [] else [{ i := 0, flags := r.2 }], g := some (reduceToG o v.ty r.1) }
  else if v.vl = 0 then {}
  else { elems := { i := 0, val := some (r.1 % 2 ^ w), flags := r.2 } :: v.quietBits e.m }

/-- The non-empty prefixes of a list. -/
def prefixes : List Nat → List (List Nat)
  | [] => []
  | x :: xs => [x] :: (prefixes xs).map (x :: ·)

def View.scan (v : View) (e : Entry) : Made :=
  let w := typeWidth v.ty
  let is := v.whole e.m
  let one (xs : List Nat) : Rslt :=
    if tyInt v.ty then (truncInt (intSum v.ty xs) w, 0) else fpSum (fmtOf v.ty) e.mode xs
  { elems := (is.zip ((prefixes is).map fun ps => one (ps.map fun i => v.src e e.m.a w i))).map fun p =>
      { i := p.1, val := some p.2.1, flags := p.2.2 } }

def View.trip (v : View) (e : Entry) (step : Bool) (hi : Nat) : Made :=
  let w := typeWidth v.ty
  let is := v.active e.m hi
  if step then
    { elems := (is.filter fun i => v.c.mbit e.m.b i).map fun i =>
        let x := truncInt ((v.src e e.m.d w i : Int) - 1) w
        { i := i, val := some x, bit := some (x != 0) } }
  else
    { elems := is.map fun i => { i := i, val := some (v.src e e.m.a w i), bit := some (v.src e e.m.a w i != 0) } }

/-- The bytes of v(r) from byte 0 on (R292). -/
def Ctx.image (c : Ctx) (r n : Nat) : List Byte := (List.range n).map fun b => c.vbyte r b

/-- Whether an image comes from the source a g value names (R292). -/
def fromSource (g : W64) (x : Image) : Bool := g.getLsbD 63 || x.src == bitsOf g 0 8

def View.mov (v : View) (e : Entry) (o : MovOp) (box : List Image) (hi : Nat) : Made :=
  let w := typeWidth v.ty
  let is := v.active e.m hi
  match o with
  | .mv => mapElems is fun i => (v.src e e.m.a w i, 0)
  | .mvs => mapElems is fun _ => (codeBits v.ty w (e.g1.toNat % 2 ^ w), 0)
  | .ext => { g := some (BitVec.ofNat 64 (v.src e e.m.a w e.g1.toNat)) }
  | .ins => mapElems (is.filter (· == e.g2.toNat)) fun _ => (codeBits v.ty w (e.g1.toNat % 2 ^ w), 0)
  | .id => mapElems is fun i => (i % 2 ^ w, 0)
  | .push => { push := if v.vl = 0 then none else some (bitsOf e.g1 0 8, v.c.image e.m.a (ceilDiv (v.vl * w) 8)) }
  | .take =>
    match box.findIdx? (fromSource e.g1) with
    | none => {}
    | some k => { take := some (k, (box.getD k {}).bytes) }
  | .poll => { g := some (BitVec.ofNat 64 (box.filter (fromSource e.g1)).length) }

/-! ### VLOAD and VSTORE -/

/-- The alignment of an element: each part lies at a multiple of its size (R278). -/
def elemAlign (ty : Nat) : Nat := if typeWidth ty < 8 then 1 else partWidth ty / 8

/-- The accesses one element is made of: address and bytes. One at a multiple of its size is one access; of any other complex element each
part is (R105). -/
def elemPieces (ty va : Nat) : List (Nat × Nat) :=
  if typeWidth ty < 8 then [(va % 2 ^ 50, 1)]
  else if va % (typeWidth ty / 8) = 0 then [(va % 2 ^ 50, typeWidth ty / 8)]
  else (List.range (partCount ty)).map fun p => ((va + p * (partWidth ty / 8)) % 2 ^ 50, partWidth ty / 8)

/-- The address of element i (R277). -/
def View.elemVa (v : View) (e : Entry) (mode : VMode) (i : Nat) : Nat :=
  let w := typeWidth v.ty
  match mode with
  | .strided => ea (e.g1 + BitVec.ofInt 64 (e.g2.toInt * i))
  | .indexed => ea (e.g1 + BitVec.ofNat 64 (v.src e e.m.b (max w 16) i))
  | _ => ea (e.g1 + BitVec.ofNat 64 (i * w / 8))

/-- Checks the accesses that make one access of a strand: the locations, or the highest-ranked fault and its address (R194). -/
def State.checkPieces (s : State) (k : Nat) (acc : Acc) : List (Nat × Nat) → Except (Cause × Nat) (List (Nat × Nat) × State)
  | [] => .ok ([], s)
  | (va, n) :: ps =>
    match s.checked k va n acc with
    | .error c => .error (worstWith (c, va) (s.checkPieces k acc ps))
    | .ok (p, s1) =>
      match s1.checkPieces k acc ps with
      | .error c => .error c
      | .ok (rs, s2) => .ok ((p.loc, n) :: rs, s2)

/-- What an element makes at its place: a load takes its bits, a store puts them (R105). -/
def View.elemAt (v : View) (s : State) (e : Entry) (load : Bool) (i : Nat) (runs : List (Nat × Nat)) : Elem :=
  let w := typeWidth v.ty
  let lo := i * w % 8
  if load then
    let x := leNat (s.readRuns runs)
    { i := i, val := some (codeBits v.ty w (if w < 8 then x / 2 ^ lo % 2 ^ w else x)) }
  else
    let x := v.src e e.m.d w i
    if w < 8 then { i := i, puts := runs.map fun r => .bits r.1 lo w x }
    else
      let bs := leBytes (w / 8) x
      { i := i, puts := (runs.zipIdx).map fun r => .bytes r.1.1 ((bs.drop (r.2 * r.1.2)).take r.1.2) }

/-- One element of modes 0 to 3. -/
def View.memElem (v : View) (e : Entry) (mode : VMode) (load : Bool) (s : State) (k i : Nat) : Elem × State :=
  let va := v.elemVa e mode i
  if va % elemAlign v.ty ≠ 0 then ({ i := i, fault := some (.misalign, va) }, s)
  else
    match s.checkPieces k (if load then .read else .write) (elemPieces v.ty va) with
    | .error f => ({ i := i, fault := some f }, s)
    | .ok (rs, s1) => (v.elemAt s1 e load i rs, s1)

/-- One element of a tile (R283): its address is the tile's place in the core's window, modulo 2^50 (R277). -/
def View.tileElem (v : View) (e : Entry) (load : Bool) (s : State) (k i : Nat) : Elem :=
  let w := typeWidth v.ty
  match Sparse.get none (s.coreAt (s.coreOf k)).tiles e.g2.toNat with
  | none => { i := i, fault := some (.prot, 0) }
  | some t =>
    let off := (e.g1.toNat + i * w / 8) % 2 ^ 50
    let va := tileLoc (s.coreOf k) t + off
    let n := max 1 (w / 8)
    if va % elemAlign v.ty ≠ 0 then { i := i, fault := some (.misalign, va % 2 ^ 50) }
    else if t.len < off + n then { i := i, fault := some (.prot, va % 2 ^ 50) }
    else if s.watched k va n (if load then .read else .write) then { i := i, fault := some (.watch, va) }
    else v.elemAt s e load i [(va, n)]

/-- One element of the lane-private slices (R284). -/
def View.laneElem (v : View) (e : Entry) (load : Bool) (s : State) (k i : Nat) (lowest : Bool) : Elem :=
  let w := typeWidth v.ty
  let b := i * w / 8
  let off := e.g1.toNat + 64 * (b / 256) + b % 64
  let n := max 1 (w / 8)
  if e.g1.toNat % 64 ≠ 0 then { i := i, fault := if lowest then some (.misalign, e.g1.toNat % 2 ^ 50) else none }
  else if 16384 < off + n then { i := i, fault := some (.prot, off % 2 ^ 50) }
  else v.elemAt s e load i [(coreWindow + s.coreOf k * 2 ^ 24 + 0x100000 + b % 256 / 64 * 0x4000 + off, n)]

/-- An access of n bytes cut at page ends (R113). -/
def pagePieces : Nat → Nat → Nat → List (Nat × Nat)
  | 0, _, _ => []
  | f + 1, va, n => if n = 0 then [] else (va % 2 ^ 50, pageRun va n) :: pagePieces f (va + pageRun va n) (n - pageRun va n)

/-- Width of a code inside a segment (R68). -/
def packedWidth (t : Nat) : Nat := if t = 17 then 4 else if t = 15 ∨ t = 16 then 6 else 8

/-- Where the codes of a segment start. -/
def segHead (t : Nat) : Nat := if t = 17 then 2 else 1

/-- Code j of a segment's bytes (R55). -/
def segCode (t : Nat) (bs : List Byte) (j : Nat) : Nat :=
  leNat (bs.drop (segHead t)) / 2 ^ (packedWidth t * j) % 2 ^ packedWidth t

/-- The bytes VSSEG writes for segment n: all 32 codes of v, the scale and X of vS (R281). -/
def View.segBytes (v : View) (e : Entry) (n : Nat) : List Byte :=
  let t := e.set.vqfmt
  let codes := (List.range 32).foldl (fun x j =>
    x + v.src e e.m.d (typeWidth t) (32 * n + j) % 2 ^ packedWidth t * 2 ^ (packedWidth t * j)) 0
  [v.c.vbyte e.m.b (2 * n)] ++ (if t = 17 then [v.c.vbyte e.m.b (2 * n + 1)] else []) ++ leBytes (4 * packedWidth t) codes

/-- What VLSEG makes of a segment's bytes for its active elements (R281). -/
def View.segLoad (v : View) (e : Entry) (bs : List Byte) (is : List Nat) : List Elem :=
  let t := e.set.vqfmt
  let scale := (bs.getD 0 0).toNat
  let x := if t = 17 then (bs.getD 1 0).toNat else 0
  if v.ty = t then
    is.zipIdx.map fun p =>
      -- one register as data and side register at once: the spec states neither result
      if e.m.d = e.m.b then { i := p.1, val := some (v.freeBits (typeWidth t) p.1) }
      else
        { i := p.1, val := some (segCode t bs (p.1 % 32))
          side := if p.2 = 0 then [(2 * (p.1 / 32), BitVec.ofNat 8 scale), (2 * (p.1 / 32) + 1, BitVec.ofNat 8 x)] else [] }
  else decodeBlock t (fmtOf v.ty) (fun i => segCode t bs (i % 32)) scale x is

/-- One accessed segment (R281): a fault of any of its bytes is its lowest active element's. -/
def View.segment (v : View) (e : Entry) (load : Bool) (s : State) (k : Nat) (is : List Nat) : List Elem × State :=
  let i := is.headD 0
  let n := i / 32
  let size := segStride e.set.vqfmt
  match s.checkPieces k (if load then .read else .write) (pagePieces 3 (ea (e.g1 + BitVec.ofNat 64 (n * size))) size) with
  | .error f => ([{ i := i, fault := some f }], s)
  | .ok (rs, s1) =>
    if load then (v.segLoad e (s1.readRuns rs) is, s1)
    else
      let bs := v.segBytes e n
      let puts := (rs.foldl (fun acc r => (acc.1 ++ [Put.bytes r.1 ((bs.drop acc.2).take r.2)], acc.2 + r.2)) ([], 0)).1
      ([{ i := i, puts := puts }], s1)

/-- A VLOAD or VSTORE member. -/
def View.mem (v : View) (s : State) (k : Nat) (e : Entry) (mode : VMode) (load : Bool) (hi : Nat) : Made × State :=
  let is := v.active e.m hi
  match mode with
  | .segment =>
    let r := (blocksOf 32 is).foldl (fun acc js =>
      let x := v.segment e load acc.2 k js
      (acc.1 ++ x.1, x.2)) (([] : List Elem), s)
    ({ elems := r.1 }, r.2)
  | .tile => ({ elems := is.map (v.tileElem e load s k) }, s)
  | .lane => ({ elems := is.map fun i => v.laneElem e load s k i (is.head? == some i) }, s)
  | _ =>
    let r := is.foldl (fun acc i =>
      let x := v.memElem e mode load acc.2 k i
      (x.1 :: acc.1, x.2)) (([] : List Elem), s)
    ({ elems := r.1.reverse }, r.2)

/-! ### A member as a whole -/

/-- What a member makes of its active elements below hi. -/
def View.make (v : View) (s : State) (k : Nat) (e : Entry) (hi : Nat) : Made × State :=
  match e.m.op with
  | .vset _ => ({}, s)
  | .refused => ({}, s)
  | .load m => v.mem s k e m true hi
  | .store m => v.mem s k e m false hi
  | .int o => (v.int e o hi, s)
  | .fp o => (v.fp e o hi, s)
  | .cx o => (v.cx e o hi, s)
  | .vx o => (v.vx e o hi, s)
  | .dist o => (v.dist e o hi, s)
  | .mask o => (v.mask e o hi, s)
  | .red o => (v.red e o, s)
  | .scan => (v.scan e, s)
  | .ltrip => (v.trip e false hi, s)
  | .lstep => (v.trip e true hi, s)
  | .cvt o => (v.cvt e o hi, s)
  | .mov o => (v.mov e o (s.coreAt (s.coreOf k)).inbox hi, s)

/-- The vector destination of a member and the width of its elements. -/
def Member.vdest (m : Member) (ty : Nat) (set : VSettings) : Option (Nat × Nat) :=
  let w := typeWidth ty
  match m.op with
  | .load _ => some (m.d, w)
  | .int o => if o.compares then none else some (m.d, (intWidths o w).2.2)
  | .fp o => if o.compares then none else some (m.d, w)
  | .cx _ => some (m.d, w)
  | .vx _ => some (m.d, w)
  | .dist _ => some (m.d, w)
  | .red _ => if m.b = 1 then none else some (m.d, w)
  | .scan => some (m.d, w)
  | .ltrip => some (m.d, w)
  | .lstep => some (m.d, w)
  | .cvt .quant => some (m.d, typeWidth set.vqfmt)
  | .cvt .deq => some (m.d, w)
  | .cvt .tdec => some (m.d, w)
  | .cvt _ => some (m.d, typeWidth m.b)
  | .mov .mv => some (m.d, w)
  | .mov .mvs => some (m.d, w)
  | .mov .ins => some (m.d, w)
  | .mov .id => some (m.d, w)
  | _ => none

/-- The mask destination of a member. -/
def Member.mdest (m : Member) : Option Nat :=
  match m.op with
  | .int o => if o.compares then some m.d else none
  | .fp o => if o.compares then some m.d else none
  | .mask .first => none
  | .mask .pop => none
  | .mask _ => some m.d
  | .ltrip => some m.b
  | .lstep => some m.b
  | _ => none

/-- An element's stop under %fen (R62): none with x = 1. -/
def Elem.stops (x : Elem) (e : Entry) : Option (Cause × Nat) :=
  match x.fault with
  | some f => some f
  | none => if !e.m.x && traps e.set.fen x.flags then some (.numeric, 0) else none

/-- The registers as an element leaves them (R246, R251, R255, R259, R72). -/
def Ctx.commitElem (c : Ctx) (e : Entry) (ty : Nat) (x : Elem) : Ctx :=
  let c1 := match x.val, e.m.vdest ty e.set with | some v, some (r, w) => c.vput r w x.i v | _, _ => c
  let c2 := match x.bit, e.m.mdest with | some b, some r => c1.setMbit r x.i b | _, _ => c1
  let c3 := if e.m.x then c2.setMbit e.m.emask x.i (excBit x.flags) else c2
  let c4 := x.side.foldl (fun c p => c.setVbyte e.m.b p.1 p.2) c3
  (c4.orFlags x.flags).addOcount (if x.flags &&& flagOVFO != 0 then 1 else 0)

/-- LEN and %vdirty of the destinations of a member that committed elements (R251, R273, R281). -/
def Ctx.commitLens (c : Ctx) (e : Entry) (ty vl : Nat) (xs : List Elem) : Ctx :=
  let c1 :=
    match e.m.vdest ty e.set with
    | some (r, w) => if xs.any (·.val.isSome) then (c.setLen r (ceilDiv (vl * w) 8)).setDirty r else c
    | none => c
  let top := (xs.flatMap (·.side)).foldl (fun n p => max n (p.1 + 1)) 0
  if top = 0 then c1
  else (c1.setLen e.m.b (match e.m.op with | .cvt _ => vl / 16 | _ => max (c1.lenOf e.m.b) top)).setDirty e.m.b

/-- Bits from VL on of the mask registers that a member writes are cleared when it completes (R246). -/
def Ctx.commitMasks (c : Ctx) (e : Entry) (vl : Nat) : Ctx :=
  if vl = 0 then c
  else
    let c1 := match e.m.mdest with | some r => c.clearMask r vl | none => c
    if e.m.x then c1.clearMask e.m.emask vl else c1

/-- A store lands. -/
def State.land (s : State) (p : Put) : State :=
  match p with
  | .bytes loc bs => s.perform loc bs
  | .bits loc lo w v => s.perform loc [withBits (s.readByte loc) lo w v]

/-- The elements below hi that a member commits. -/
def Made.kept (made : Made) (e : Entry) (hi : Nat) : List Elem := made.elems.filter fun x => decide (x.i < hi) && (x.stops e).isNone

/-- A member commits its elements below hi; complete says that none was left out. -/
def State.commit (s : State) (k : Nat) (e : Entry) (ty vl hi : Nat) (complete : Bool) (made : Made) : State :=
  let xs := made.kept e hi
  let s1 := s.onCtx k fun c =>
    let c1 := (xs.foldl (fun c x => c.commitElem e ty x) c).commitLens e ty vl xs
    if complete then c1.commitMasks e vl else c1
  xs.foldl (fun s x => x.puts.foldl State.land s) s1

/-- The accesses by address that element i of a memory member makes. -/
def View.piecesAt (v : View) (e : Entry) (mode : VMode) (i : Nat) : List (Nat × Nat) :=
  match mode with
  | .tile => []
  | .lane => []
  | .segment =>
    let size := segStride e.set.vqfmt
    pagePieces 3 (ea (e.g1 + BitVec.ofNat 64 (i / 32 * size))) size
  | _ => elemPieces v.ty (v.elemVa e mode i)

/-- The requests that a memory member sends for some of its elements (R93). -/
def State.memberRequests (s : State) (v : View) (k : Nat) (e : Entry) (mode : VMode) (wr : Bool) (is : List Nat) : State :=
  let places := (is.flatMap (v.piecesAt e mode)).filterMap fun p =>
    match s.resolve k p.1 (if wr then .write else .read) with
    | .ok (q, _) => some (q, p.2)
    | .error _ => none
  s.requestLines (s.coreOf k) (some k) wr places

/-- The requests of a member for what it has made below hi. -/
def State.requestFor (s : State) (v : View) (k : Nat) (e : Entry) (hi : Nat) (made : Made) : State :=
  match e.m.op with
  | .load m => s.memberRequests v k e m false ((made.kept e hi).map (·.i))
  | .store m => s.memberRequests v k e m true ((made.kept e hi).map (·.i))
  | _ => s

/-- A VTAKE's image leaves the inbox, when its convoy runs to its end (R292). -/
def State.eraseTaken (s : State) (k : Nat) (made : Made) : State :=
  match made.take with
  | none => s
  | some (i, _) => s.onCore (s.coreOf k) fun c => { c with inbox := c.inbox.eraseIdx i }

end Sys2Proof.Machine
end

