-- ==== Sys2Proof/Machine/Convoy.lean ====
section
/-! DEFINITION. Convoys: which are refused, when one opens, how it runs and stops, and how it drains (03 R44 to R48; 08 R130 to R139; 11
R199 to R201; 17_vector_model R253, R254; 19 R283, R293). -/

namespace Sys2Proof.Machine

/-! ### The convoy at the head of the queue (R44) -/

/-- The entries that join a convoy. -/
def joined : List QItem → List Entry
  | .entry e :: q => if e.opens then [] else e :: joined q
  | _ => []

/-- The oldest convoy. -/
def Ctx.convoy (c : Ctx) : List Entry :=
  match c.queue with
  | .entry e :: q => e :: joined q
  | _ => []

/-- Whether the oldest convoy has closed. -/
def Ctx.closed (c : Ctx) : Bool := !c.open_ || decide (c.convoy.length < c.queue.length)

/-! ### Refusal (R45, R46) -/

/-- Whether two members write one register, or a later member writes what an earlier one reads (R46). -/
def clash : List Uses → Bool
  | [] => false
  | u :: us => (us.any fun w => (u.wr.any w.wr.contains) || u.rd.any w.wr.contains) || clash us

/-- Whether VPLAN members stand in a row, each reading the vd of the one before it (R45). -/
def chained : List Entry → Bool
  | e :: f :: es => f.m.op.pipe == .plan && f.m.a == e.m.d && chained (f :: es)
  | _ => true

/-- The VPLAN members from the first to the last. -/
def planRun (es : List Entry) : List Entry :=
  let tail := es.dropWhile fun e => e.m.op.pipe != .plan
  (tail.reverse.dropWhile fun e => e.m.op.pipe != .plan).reverse

def countPipe (p : Pipe) (es : List Entry) : Nat := (es.filter fun e => e.m.op.pipe == p).length

/-- The allowances of R45. -/
def allowed (es : List Entry) : Bool :=
  let plans := planRun es
  decide (countPipe .valu es ≤ 2) && decide (countPipe .vls es ≤ 1) && decide (countPipe .vcv es ≤ 1)
    && decide (countPipe .vx es + (if plans.isEmpty then 0 else 1) ≤ 1) && decide (plans.length ≤ 8) && chained plans
    && (countPipe .vset es == 0 || decide (es.length = 1))

/-- Whether a convoy runs rather than being refused (R46, R260). -/
def convoyOk (es : List Entry) (ty vl : Nat) : Bool :=
  (es.all fun e => e.m.legal ty vl e.set) && allowed es && !(clash (es.map fun e => e.m.uses ty e.set))

/-! ### Waiting to open (R283, R293) -/

inductive Gate where
  | go | wait | ask | trap (c : Cause)
deriving DecidableEq, Repr

/-- Whether a peer's inbox holds a slot for a core's VPUSH: the requests first in line have the free slots. -/
def Core.grants (peer : Core) (src : Nat) : Bool :=
  match peer.reserved.findIdx? (· == src) with
  | none => false
  | some i => decide (i + peer.inbox.length + peer.arriving.length < 4)

/-- The gate of one member of a strand's convoy. -/
def State.memberGate (s : State) (k : Nat) (e : Entry) (vl : Nat) : Gate :=
  let c := s.ctxAt k
  let m := s.coreOf k
  let tileGate : Gate :=
    match s.tile? m e.g2.toNat c.job with
    | none => .trap .tileEmpty
    | some t => if t.state = .empty then .trap .tileEmpty else if t.busy then .wait else .go
  match e.m.op with
  | .load .tile => tileGate
  | .store .tile => tileGate
  | .mov .take => if (s.coreAt m).inbox.any (fromSource e.g1) then .go else .wait
  | .mov .push =>
    let peer := bitsOf e.g1 0 8
    if vl = 0 then .go
    else if !(match s.vectorStrand peer with | some t => (s.ctxAt t).job == c.job | none => false) then .trap .queue
    else if !((s.coreAt peer).reserved.contains m) then .ask
    else if (s.coreAt peer).grants m then .go else .wait
  | _ => .go

/-- The gates of a convoy together: a trap comes first, then a slot to ask for, then a wait. -/
def State.gate (s : State) (k : Nat) (es : List Entry) (vl : Nat) : Gate :=
  let gs := es.map fun e => s.memberGate k e vl
  match gs.find? fun g => match g with | .trap _ => true | _ => false with
  | some g => g
  | none => if gs.contains .ask then .ask else if gs.contains .wait then .wait else .go

/-! ### Running (R199, R254) -/

/-- What one pass over a convoy's members finds. -/
structure Pass where
  s : State := {}
  made : List Made := []
  /-- stops: member, first element of the group, element, cause, address -/
  stops : List (Nat × Nat × Nat × Cause × Nat) := []
  /-- a register whose elements from some index on are not produced -/
  limits : List (Nat × Nat) := []
  /-- VX members whose source is not produced whole -/
  blurred : List Nat := []
  /-- the lowest element at which a VLDFF shortens the strip -/
  short : Option Nat := none

/-- The elements a member can compute: below the limit of every source. -/
def limitOf (limits : List (Nat × Nat)) (rd : List Nat) (vl : Nat) : Nat :=
  limits.foldl (fun n l => if rd.contains l.1 then min n l.2 else n) vl

/-- The first element of an element's group in a member's element width (R245). -/
def groupStart (width i : Nat) : Nat := i - i % (2048 / width)

/-- Whether a member is a VLDFF. -/
def VOp.faultFirst (o : VOp) : Bool := o == .load .faultFirst

/-- Whether a member takes an image (R292). -/
def VOp.takes (o : VOp) : Bool := o == .mov .take

/-- The registers once an image has arrived in vd: what chained members read (R254, R292). -/
def Ctx.takeImage (c : Ctx) (e : Entry) (made : Made) : Ctx :=
  match made.take with
  | none => c
  | some (_, bs) => ((bs.zipIdx.foldl (fun c b => c.setVbyte e.m.d b.2 b.1) c).setLen e.m.d bs.length).setDirty e.m.d

/-- One member of a pass. -/
def Pass.member (p : Pass) (k vl ty vstart idx : Nat) (e : Entry) : Pass :=
  let u := e.m.uses ty e.set
  let lim := limitOf p.limits u.rd vl
  if e.m.op.whole && decide (lim < vl) then
    { p with made := p.made ++ [{}], limits := p.limits ++ u.wr.map fun r => (r, 0), blurred := p.blurred ++ [idx] }
  else
    let v : View := { c := p.s.ctxAt k, vl := vl, ty := ty, lo := if e.m.op.whole then 0 else vstart, free := p.s.free + 65536 * idx }
    let (made, s1) := v.make p.s k e lim
    -- an access can fault where the data to store is not produced (R199)
    let far := limitOf p.limits e.m.places vl
    let beyond := if e.m.op.pipe == .vls && decide (lim < far) then (v.make p.s k e far).1.elems.filter fun x => decide (lim ≤ x.i) else []
    let stops := (made.elems.filterMap fun x => (x.stops e).map fun f => (x.i, f)) ++ beyond.filterMap fun x => x.fault.map fun f => (x.i, f)
    let lowest := (v.active e.m vl).head?
    let soft := if e.m.op.faultFirst then stops.filter fun f => some f.1 != lowest else []
    let hard := if e.m.op.faultFirst then stops.filter fun f => some f.1 == lowest else stops
    let lim1 := match stops with | [] => lim | f :: _ => stops.foldl (fun n g => min n (groupStart (e.m.width ty) g.1)) (groupStart (e.m.width ty) f.1)
    { s := ((s1.commit k e ty vl lim (decide (lim = vl)) made).requestFor v k e lim made).onCtx k fun c => c.takeImage e made
      made := p.made ++ [made]
      stops := p.stops ++ hard.map fun f => (idx, groupStart (e.m.width ty) f.1, f.1, f.2.1, f.2.2)
      limits := if lim1 < vl then p.limits ++ u.wr.map fun r => (r, lim1) else p.limits
      blurred := p.blurred
      short := soft.foldl (fun n f => match n with | none => some f.1 | some i => some (min i f.1)) p.short }

/-- A pass over a convoy of a strand with a vector length. -/
def State.pass (s : State) (k vl : Nat) (es : List Entry) : Pass :=
  let c := s.ctxAt k
  let ty := bitsOf (c.crGet 0x101) 0 5
  let vstart := bitsOf (c.crGet 0x102) 0 13
  es.zipIdx.foldl (fun p e => p.member k vl ty vstart e.2 e.1) { s := s }

/-- The least of some numbers. -/
def least (xs : List Nat) : Nat := xs.foldl min (xs.headD 0)

/-- The trap a stopped pass reports (R199): the restart element, the cause and the address. -/
def Pass.trap (p : Pass) : Nat × Cause × Nat :=
  let at_ := least (p.stops.map (·.2.1))
  let first := least ((p.stops.filter fun f => f.2.1 == at_).map (·.1))
  let mine := p.stops.filter fun f => f.1 == first && f.2.1 == at_
  let best := mine.foldl (fun b f =>
    if f.2.2.2.1.rank < b.2.2.2.1.rank ∨ (f.2.2.2.1.rank = b.2.2.2.1.rank ∧ f.2.2.1 < b.2.2.1) then f else b) (mine.headD (0, 0, 0, .numeric, 0))
  (at_, best.2.2.2.1, best.2.2.2.2)

/-- The first and one past the last byte of a register's contents: v(n) as n, m(n) as 32 + n. -/
def regBytes (r : Nat) : Nat × Nat := if r < 32 then (2048 * r, 2048 * r + 2048) else (1024 * (r - 32), 1024 * (r - 32) + 1024)

/-- A register takes the contents it has in other registers. -/
def Ctx.copyReg (c from_ : Ctx) (r : Nat) : Ctx :=
  let (lo, hi) := regBytes r
  if r < 32 then { c with vreg := Sparse.merge 0 (Sparse.without c.vreg lo hi) (Sparse.between from_.vreg lo hi) }
  else { c with mreg := Sparse.merge 0 (Sparse.without c.mreg lo hi) (Sparse.between from_.mreg lo hi) }

/-- A register whose contents the spec does not state. -/
def Ctx.blurReg (c : Ctx) (free r : Nat) : Ctx :=
  let (lo, hi) := regBytes r
  let bs := (List.range (hi - lo)).map fun i => Config.freeByte (free + i)
  if r < 32 then { c with vreg := pokeBytes c.vreg lo bs } else { c with mreg := pokeBytes c.mreg lo bs }

/-- The second pass of a stopped convoy (R199): element-wise members commit below the restart element; the results of VX members, and the
image of a VTAKE, only serve the members chained to them. -/
def State.partialRun (s : State) (k vl : Nat) (es : List Entry) (p : Pass) (stop : Nat) : State :=
  let ty := bitsOf ((s.ctxAt k).crGet 0x101) 0 5
  let vstart := bitsOf ((s.ctxAt k).crGet 0x102) 0 13
  let shadow := p.s.ctxAt k
  let s1 := es.zipIdx.foldl (fun s x =>
    let e := x.1
    if e.m.op.whole || e.m.op.takes then
      s.onCtx k fun c => (e.m.uses ty e.set).wr.foldl (fun c r =>
        if p.blurred.contains x.2 then c.blurReg (s.free + 65536 * x.2 + 2048 * r) r else c.copyReg shadow r) c
    else
      let v : View := { c := s.ctxAt k, vl := vl, ty := ty, lo := vstart, free := s.free + 65536 * x.2 }
      let (made, s1) := v.make s k e stop
      (s1.commit k e ty vl stop false made).requestFor v k e stop made) s
  let old := s.ctxAt k
  s1.onCtx k fun c => es.foldl (fun c e =>
    if e.m.op.whole || e.m.op.takes then (e.m.uses ty e.set).wr.foldl (fun c r => c.copyReg old r) c else c) c

/-- Where the scalar pipe resumes after a vector trap (R132): past a synchronising instruction that waits. -/
def Ctx.resumePc (c : Ctx) : VA := if c.hold = .vsync ∧ c.again then c.pc + 4 else c.pc

/-- The inbox slots that the VPUSH members of some entries hold or ask for are given up (R293). -/
def State.freeSlots (s : State) (k : Nat) (es : List Entry) : State :=
  es.foldl (fun s e =>
    if e.m.op = .mov .push then s.onCore (bitsOf e.g1 0 8) fun c => { c with reserved := c.reserved.erase (s.coreOf k) } else s) s

/-- A vector trap of a strand at its oldest convoy: the queue is captured from there on, and a reserved inbox slot is freed (R132, R199, R293). -/
def State.vectorTrap (s : State) (k : Nat) (cause : Cause) (tval : Nat) : State :=
  let c := s.ctxAt k
  let s1 := (s.freeSlots k c.convoy).onCtx k fun c => { c with queue := [], running := none }
  s1.raise
    { key := k, cause := cause, tval := BitVec.ofNat 64 tval, tepc := c.resumePc, vec := true
      tvpc := (c.convoy.headD {}).pc, queue := c.queue }

/-- A convoy that is refused only as it opens, at a VL that a VLDFF has shortened since its issue or after the steward has changed it: ILLEGAL
at its first word, reported as a vector trap, since the scalar pipe is past it (R46, R132, log 28). -/
def State.refuse (s : State) (k : Nat) : State := s.vectorTrap k .illegal ((s.ctxAt k).convoy.headD {}).word.toNat

/-- A convoy that ran: it stands in the queue until it drains (R130). -/
def Pass.ran (p : Pass) (k : Nat) (es : List Entry) (vl : Option Nat) : State :=
  let s1 := p.made.foldl (fun s x => s.eraseTaken k x) p.s
  let g := ((es.zip p.made).filterMap fun x => x.2.g.map fun v => (x.1.m.d, v)).head?
  s1.onCtx k fun c => { c with running := some { n := es.length, g := g, vl := vl, push := ((es.zip p.made).filterMap fun x => x.2.push).head? } }

/-- The groups a convoy executes for elements lo to hi − 1 (R261). -/
def groupsOf (es : List Entry) (ty lo hi : Nat) : Nat :=
  let w := es.foldl (fun w e => max w (e.m.width ty)) 1
  ceilDiv (hi * w) 2048 - lo * w / 2048

/-- Groups executed, counted as event 5 (R384). -/
def State.tallyGroups (s : State) (k n : Nat) : State := s.tally (s.coreOf k) k 5 n

/-- A stopped convoy (R199): it commits below the restart element, and the strand traps. -/
def State.stopConvoy (s : State) (k vl : Nat) (es : List Entry) (p : Pass) : State :=
  let (at_, cause, tval) := p.trap
  let c := s.ctxAt k
  let s1 := (s.partialRun k vl es p at_).onCtx k fun c => c.crSet 0x102 (BitVec.ofNat 64 at_)
  (s1.tallyGroups k (groupsOf es (bitsOf (c.crGet 0x101) 0 5) (bitsOf (c.crGet 0x102) 0 13) at_)).vectorTrap k cause tval

/-- The member that last wrote a source of a later one. -/
def sourceOf (ty : Nat) (e : Entry) (before : List Entry) : Option Entry :=
  before.reverse.find? fun f => (f.m.uses ty f.set).wr.any (e.m.uses ty e.set).rd.contains

/-- A VX member whose source is chained waits for the whole source: the cycles of the other groups are charged to the pair (R254, R387, R388). -/
def State.chargeChained (s : State) (k ty g : Nat) : List Entry → List Entry → State
  | _, [] => s
  | before, e :: es =>
    let s1 :=
      match (if e.m.op.pipe == .vx && decide (2 ≤ g) then sourceOf ty e before else none) with
      | some f =>
        (s.onCore (s.coreOf k) fun c => c.charge f.pc.toNat e.pc.toNat (s.ctxAt k).job true (g - 1) (g - 1)).tally (s.coreOf k) k 3 (g - 1)
      | none => s
    s1.chargeChained k ty g (before ++ [e]) es

/-- What the debug unit sees of a convoy that ran over elements lo to hi − 1. -/
def State.ranGroups (s : State) (k ty lo hi : Nat) (es : List Entry) : State :=
  (s.tallyGroups k (groupsOf es ty lo hi)).chargeChained k ty (groupsOf es ty lo hi) [] es

/-- The oldest convoy runs (R199, R253, R254). -/
def State.runConvoy (s : State) (k : Nat) : State :=
  let c := s.ctxAt k
  let es := c.convoy
  let vl := bitsOf (c.crGet 0x100) 0 14
  let ty := bitsOf (c.crGet 0x101) 0 5
  let lo := bitsOf (c.crGet 0x102) 0 13
  let p := s.pass k vl es
  let s1 :=
    match p.short with
    | some i =>
      let q := s.pass k i es
      if q.stops.isEmpty then (q.ran k es (some i)).ranGroups k ty lo i es else s.stopConvoy k vl es q
    | none => if p.stops.isEmpty then (p.ran k es none).ranGroups k ty lo vl es else s.stopConvoy k vl es p
  s1.freshen (65536 * es.length)

/-- A VSET convoy (R276): VL, type and ordinal take effect at its place. -/
def Ctx.runVset (c : Ctx) (e : Entry) (code : Nat) : Ctx :=
  let c1 := (c.crSet 0x100 (BitVec.ofNat 64 (min e.g1.toNat (vlMax code)))).crSet 0x101 (BitVec.ofNat 64 code)
  { c1.crSet 0x10B (BitVec.ofNat 64 (((c.crGet 0x10B).toNat + 1) % 2 ^ 32)) with
    running := some { n := 1 }, grant := min e.g1.toNat (vlMax code) }

/-! ### Handed levels (R139) -/

/-- The entries of the pass at hand. The first opens its convoy: with CB = 0 it joins none, and is refused (R47). -/
def SeqLevel.pass (l : SeqLevel) : List Entry :=
  let es := l.members.map fun e => if l.lvl.kind = .staged then { e with m := e.m.rotate (l.rb0 + l.lvl.p.toNat) } else e
  match es with
  | [] => []
  | e :: rest => (if e.m.cb then e else { e with opens := true, m := { e.m with op := .refused } }) :: rest

/-- Whether a handed level has no pass left. -/
def SeqLevel.finished (l : SeqLevel) (c : Ctx) : Bool :=
  if l.lvl.kind = .masked then c.maskEmpty l.lvl.mreg else decide (l.passes ≤ l.lvl.p.toNat)

/-- The final values of a LOOPM's bound targets, when its last pass has retired. -/
def SeqLevel.settle (l : SeqLevel) (c : Ctx) : Ctx :=
  if l.lvl.kind = .masked then l.lvl.set.binds.foldl (fun c b => c.wr b.1.toNat (c.rd b.1.toNat + b.2 * l.lvl.p)) c else c

/-- The level at the head of the queue begins its next pass, or leaves. -/
def Ctx.stepLevel (c : Ctx) : Ctx :=
  match c.queue with
  | .level l :: q =>
    if l.finished c then l.settle { c with queue := q }
    else { c with queue := l.pass.map .entry ++ .level l.nextPass :: q }
  | _ => c

/-! ### Opening and draining -/

/-- What a CONVOY_OPEN would do for a strand. -/
inductive Opening where
  | level | vset (code : Nat) | refuse | trap (c : Cause) | ask (peer : Nat) | run
deriving DecidableEq, Repr

/-- Whether a strand's sequencer is at work at all: not while a trap on the strand is pending or serviced (R132, R196). -/
def Ctx.sequencing (c : Ctx) : Bool := c.vec && c.hold != .trapped && c.running == none

/-- What is due at the head of a strand's queue (R44, R130, R283, R293). -/
def State.opening (s : State) (k : Nat) : Option Opening :=
  let c := s.ctxAt k
  let vl := bitsOf (c.crGet 0x100) 0 14
  let ty := bitsOf (c.crGet 0x101) 0 5
  if !c.sequencing then none
  else
    match c.queue with
    | [] => none
    | .level _ :: _ => if c.hold = .stopped || s.preemptAsked k then none else some .level
    | .entry e :: _ =>
      match e.m.op with
      | .vset code => if c.closed then some (.vset code) else none
      | _ =>
        if !c.closed then none
        else if !(convoyOk c.convoy ty vl) then some .refuse
        else
          match s.gate k c.convoy vl with
          | .trap cause => some (.trap cause)
          | .ask => some (.ask (((c.convoy.find? fun e => e.m.op == .mov .push).map fun e => bitsOf e.g1 0 8).getD 0))
          | .wait => none
          | .go => some .run

/-! ### Pre-emption points (R203) -/

/-- Whether a convoy waits to open on a tile or an inbox, and everything behind it in the queue with it. -/
def State.waitsToOpen (s : State) (k : Nat) : Bool :=
  let c := s.ctxAt k
  c.running == none && c.closed && (match c.queue with | .entry _ :: _ => true | _ => false) && (s.opening k).isNone

/-- Whether a handed level stands at a pass boundary, with no convoy before it (R139), or its pass waits with a convoy that waits to open. -/
def Ctx.handedPoint (c : Ctx) (waits : Bool) : Bool :=
  waits || c.running == none && match c.queue with | .level _ :: _ => true | _ => false

/-- Whether a level is active in the sequencer. -/
def Ctx.hasHanded (c : Ctx) : Bool := c.queue.any fun q => match q with | .level _ => true | .entry _ => false

/-- Whether a boundary is a pre-emption point: no level is active or a pass of the innermost one has ended, which is a handed level's as
long as there is one (R203, R139). -/
def Ctx.atBoundaryPoint (c : Ctx) (waits passed : Bool) : Bool := if c.hasHanded then c.handedPoint waits else passed || c.levels.isEmpty

/-- Whether a context stands at a pre-emption point, before a held instruction or none. -/
def Ctx.stands (c : Ctx) (waits : Bool) : Bool :=
  match c.hold with
  | .ready => (c.again && c.atPoint) || c.atBoundaryPoint waits c.atPoint
  | .vsync => c.atBoundaryPoint waits false
  | .waita => true
  | .cross => true
  | .queue => true
  | .channel => true
  | .jdone => true
  | .coord => true
  | .idle => c.atBoundaryPoint waits c.atPoint
  | _ => false

def State.standsAt (s : State) (k : Nat) : Bool := (s.ctxAt k).stands (s.waitsToOpen k)

/-- The strip record of a VSET that retires (R389): the cycles since the strand's last one. -/
def State.stripRecord (s : State) (k : Nat) (pc : VA) : State :=
  let m := s.coreOf k
  if !((s.coreAt m).crGet 0x484).getLsbD 7 then s
  else
    let now := s.now
    let since := min (now - Sparse.get 0 (s.coreAt m).stripAt k) (2 ^ 32 - 1)
    (s.traceRecord m (s.traceHead m k 0 (s.ctxAt k).grant pc ++ [s.traceData k since, 0])).onCore m
      fun c => { c with stripAt := Sparse.put c.stripAt k now }

/-- A VSET retires: its record, and event 13. -/
def State.retireVset (s : State) (k code : Nat) : State :=
  let e := (s.ctxAt k).convoy.headD {}
  ((s.onCtx k fun c => c.runVset e code).stripRecord k e.pc).tally (s.coreOf k) k 13 1

/-- CONVOY_OPEN for a strand. -/
def State.openConvoy (s : State) (k : Nat) : State :=
  match s.opening k with
  | none => s
  | some .level => s.onCtx k Ctx.stepLevel
  | some (.vset code) => s.retireVset k code
  | some .refuse => s.refuse k
  | some (.trap cause) => s.vectorTrap k cause 0
  | some (.ask peer) => s.onCore peer fun c => { c with reserved := c.reserved ++ [s.coreOf k] }
  | some .run => s.runConvoy k

/-- The oldest convoy drains (R130, R200, R253): its entries retire, %vstart is 0 except after a VSET, a VLDFF's VL counts from here on, and a synchronising member writes its result and lets the scalar pipe go on, past it if it stands there. -/
def Ctx.drain (c : Ctx) (r : Running) : Ctx :=
  let set := match c.queue with | .entry e :: _ => (match e.m.op with | .vset _ => true | _ => false) | _ => false
  let c1 : Ctx := { c with queue := c.queue.drop r.n, running := none }
  let c2 := if set then c1 else c1.crSet 0x102 0
  let c3 := match r.vl with
    | some i => c2.crSet 0x100 (BitVec.ofNat 64 i)
    | none => c2
  match r.g with
  | none => c3
  | some (d, v) =>
    let c4 := c3.wrSync d v
    let c5 := if c.again then c4.advance else c4
    if c.hold = .vsync then { c5 with hold := .ready } else c5

/-- The words of some bytes as they are compressed, the last one filled with zeros: DESIGN CHOICE, R121 speaks of whole words only (log 20). -/
def wordsOf (bs : List Byte) : List W64 :=
  (List.range ((bs.length + 7) / 8)).map fun i => BitVec.ofNat 64 (leNat ((bs.drop (8 * i)).take 8))

/-- The image of a VPUSH leaves as its convoy drains, and takes the place of its reservation (R293, R118). -/
def State.sendImage (s : State) (m peer job : Nat) (bs : List Byte) : State :=
  let s1 := s.onCore peer fun c => { c with reserved := c.reserved.erase m, arriving := c.arriving ++ [{ src := m, job := job, bytes := bs }] }
  if peer = m then s1 else s1.sendBytesMsg .image none m peer bs.length (wordsOf bs)

/-- CONVOY_DRAIN for a strand, counted as event 4 (R384). -/
def State.drainConvoy (s : State) (k : Nat) : State :=
  match (s.ctxAt k).running with
  | none => s
  | some r =>
    let s1 := (s.onCtx k fun c => c.drain r).tally (s.coreOf k) k 4 1
    match r.push with
    | none => s1
    | some (peer, bs) => s1.sendImage (s.coreOf k) peer (s.ctxAt k).job bs

end Sys2Proof.Machine
end

