-- ==== Sys2Proof/Machine/Sequencer.lean ====
section
/-! DEFINITION. The scalar pipe's side of the vector sequencer: which member each word is, how it enters the queue, VSET and strip stops
(03 R44 to R48; 08 R130, R137, R139; 18 R258; 19 R276; 29 R386, R389). -/

namespace Sys2Proof.Machine

/-- A vector instruction as the scalar pipe reads it: the member, and the g registers whose values it captures (R130); 32 for none. -/
structure VInstr where
  m : Member := {}
  r1 : Nat := 32
  r2 : Nat := 32
deriving DecidableEq, Repr, Inhabited

/-- The member of each vector instruction but VSET (R39, R40). -/
def opOf (i : Instr) : Option VInstr :=
  match i with
  | .vld c v b k q =>
    some { m := { op := .load .unit, cb := c == 1, d := v.toNat, a := b.toNat, emask := k.toNat, cls := q.toNat }, r1 := b.toNat }
  | .vlds c v b i k q =>
    some { m := { op := .load .strided, cb := c == 1, d := v.toNat, a := b.toNat, b := i.toNat, emask := k.toNat, cls := q.toNat }, r1 := b.toNat, r2 := i.toNat }
  | .vldx c v b i k q =>
    some { m := { op := .load .indexed, cb := c == 1, d := v.toNat, a := b.toNat, b := i.toNat, emask := k.toNat, cls := q.toNat }, r1 := b.toNat }
  | .vldff c v b k q =>
    some { m := { op := .load .faultFirst, cb := c == 1, d := v.toNat, a := b.toNat, emask := k.toNat, cls := q.toNat }, r1 := b.toNat }
  | .vlseg c v b i k q =>
    some { m := { op := .load .segment, cb := c == 1, d := v.toNat, a := b.toNat, b := i.toNat, emask := k.toNat, cls := q.toNat }, r1 := b.toNat }
  | .vldt c v b i k q =>
    some { m := { op := .load .tile, cb := c == 1, d := v.toNat, a := b.toNat, b := i.toNat, emask := k.toNat, cls := q.toNat }, r1 := b.toNat, r2 := i.toNat }
  | .vldl c v b k q =>
    some { m := { op := .load .lane, cb := c == 1, d := v.toNat, a := b.toNat, emask := k.toNat, cls := q.toNat }, r1 := b.toNat }
  | .vst c v b k q =>
    some { m := { op := .store .unit, cb := c == 1, d := v.toNat, a := b.toNat, emask := k.toNat, cls := q.toNat }, r1 := b.toNat }
  | .vsts c v b i k q =>
    some { m := { op := .store .strided, cb := c == 1, d := v.toNat, a := b.toNat, b := i.toNat, emask := k.toNat, cls := q.toNat }, r1 := b.toNat, r2 := i.toNat }
  | .vstx c v b i k q =>
    some { m := { op := .store .indexed, cb := c == 1, d := v.toNat, a := b.toNat, b := i.toNat, emask := k.toNat, cls := q.toNat }, r1 := b.toNat }
  | .vsseg c v b i k q =>
    some { m := { op := .store .segment, cb := c == 1, d := v.toNat, a := b.toNat, b := i.toNat, emask := k.toNat, cls := q.toNat }, r1 := b.toNat }
  | .vstt c v b i k q =>
    some { m := { op := .store .tile, cb := c == 1, d := v.toNat, a := b.toNat, b := i.toNat, emask := k.toNat, cls := q.toNat }, r1 := b.toNat, r2 := i.toNat }
  | .vstl c v b k q =>
    some { m := { op := .store .lane, cb := c == 1, d := v.toNat, a := b.toNat, emask := k.toNat, cls := q.toNat }, r1 := b.toNat }
  | .vadd c d a b k x =>
    some { m := { op := .int .add, cb := c == 1, d := d.toNat, a := a.toNat, b := b.toNat, emask := k.toNat, x := x == 1 } }
  | .vsub c d a b k x =>
    some { m := { op := .int .sub, cb := c == 1, d := d.toNat, a := a.toNat, b := b.toNat, emask := k.toNat, x := x == 1 } }
  | .vmul c d a b k x =>
    some { m := { op := .int .mul, cb := c == 1, d := d.toNat, a := a.toNat, b := b.toNat, emask := k.toNat, x := x == 1 } }
  | .vmulh c d a b k x =>
    some { m := { op := .int .mulh, cb := c == 1, d := d.toNat, a := a.toNat, b := b.toNat, emask := k.toNat, x := x == 1 } }
  | .vmulhn c d a b k x =>
    some { m := { op := .int .mulhn, cb := c == 1, d := d.toNat, a := a.toNat, b := b.toNat, emask := k.toNat, x := x == 1 } }
  | .vmin c d a b k x =>
    some { m := { op := .int .min, cb := c == 1, d := d.toNat, a := a.toNat, b := b.toNat, emask := k.toNat, x := x == 1 } }
  | .vmax c d a b k x =>
    some { m := { op := .int .max, cb := c == 1, d := d.toNat, a := a.toNat, b := b.toNat, emask := k.toNat, x := x == 1 } }
  | .vminn c d a b k x =>
    some { m := { op := .int .minn, cb := c == 1, d := d.toNat, a := a.toNat, b := b.toNat, emask := k.toNat, x := x == 1 } }
  | .vmaxn c d a b k x =>
    some { m := { op := .int .maxn, cb := c == 1, d := d.toNat, a := a.toNat, b := b.toNat, emask := k.toNat, x := x == 1 } }
  | .vand c d a b k x =>
    some { m := { op := .int .and, cb := c == 1, d := d.toNat, a := a.toNat, b := b.toNat, emask := k.toNat, x := x == 1 } }
  | .vor c d a b k x =>
    some { m := { op := .int .or, cb := c == 1, d := d.toNat, a := a.toNat, b := b.toNat, emask := k.toNat, x := x == 1 } }
  | .vxor c d a b k x =>
    some { m := { op := .int .xor, cb := c == 1, d := d.toNat, a := a.toNat, b := b.toNat, emask := k.toNat, x := x == 1 } }
  | .vshl c d a b k x =>
    some { m := { op := .int .shl, cb := c == 1, d := d.toNat, a := a.toNat, b := b.toNat, emask := k.toNat, x := x == 1 } }
  | .vshr c d a b k x =>
    some { m := { op := .int .shr, cb := c == 1, d := d.toNat, a := a.toNat, b := b.toNat, emask := k.toNat, x := x == 1 } }
  | .vsra c d a b k x =>
    some { m := { op := .int .sra, cb := c == 1, d := d.toNat, a := a.toNat, b := b.toNat, emask := k.toNat, x := x == 1 } }
  | .vsadd c d a b k x =>
    some { m := { op := .int .sadd, cb := c == 1, d := d.toNat, a := a.toNat, b := b.toNat, emask := k.toNat, x := x == 1 } }
  | .vsaddn c d a b k x =>
    some { m := { op := .int .saddn, cb := c == 1, d := d.toNat, a := a.toNat, b := b.toNat, emask := k.toNat, x := x == 1 } }
  | .vssub c d a b k x =>
    some { m := { op := .int .ssub, cb := c == 1, d := d.toNat, a := a.toNat, b := b.toNat, emask := k.toNat, x := x == 1 } }
  | .vssubn c d a b k x =>
    some { m := { op := .int .ssubn, cb := c == 1, d := d.toNat, a := a.toNat, b := b.toNat, emask := k.toNat, x := x == 1 } }
  | .vwadd c d a b k x =>
    some { m := { op := .int .wadd, cb := c == 1, d := d.toNat, a := a.toNat, b := b.toNat, emask := k.toNat, x := x == 1 } }
  | .vwmul c d a b k x =>
    some { m := { op := .int .wmul, cb := c == 1, d := d.toNat, a := a.toNat, b := b.toNat, emask := k.toNat, x := x == 1 } }
  | .vwmac c d a b k x =>
    some { m := { op := .int .wmac, cb := c == 1, d := d.toNat, a := a.toNat, b := b.toNat, emask := k.toNat, x := x == 1 } }
  | .vnshr c d a b k x =>
    some { m := { op := .int .nshr, cb := c == 1, d := d.toNat, a := a.toNat, b := b.toNat, emask := k.toNat, x := x == 1 } }
  | .vdot4 c d a b k x =>
    some { m := { op := .int .dot4, cb := c == 1, d := d.toNat, a := a.toNat, b := b.toNat, emask := k.toNat, x := x == 1 } }
  | .vcmpeq c d a b k x =>
    some { m := { op := .int .cmpeq, cb := c == 1, d := d.toNat, a := a.toNat, b := b.toNat, emask := k.toNat, x := x == 1 } }
  | .vcmplt c d a b k x =>
    some { m := { op := .int .cmplt, cb := c == 1, d := d.toNat, a := a.toNat, b := b.toNat, emask := k.toNat, x := x == 1 } }
  | .vcmpltn c d a b k x =>
    some { m := { op := .int .cmpltn, cb := c == 1, d := d.toNat, a := a.toNat, b := b.toNat, emask := k.toNat, x := x == 1 } }
  | .vfadd c d a b k x =>
    some { m := { op := .fp .add, cb := c == 1, d := d.toNat, a := a.toNat, b := b.toNat, emask := k.toNat, x := x == 1 } }
  | .vfsub c d a b k x =>
    some { m := { op := .fp .sub, cb := c == 1, d := d.toNat, a := a.toNat, b := b.toNat, emask := k.toNat, x := x == 1 } }
  | .vfmul c d a b k x =>
    some { m := { op := .fp .mul, cb := c == 1, d := d.toNat, a := a.toNat, b := b.toNat, emask := k.toNat, x := x == 1 } }
  | .vfma c d a b k x =>
    some { m := { op := .fp .ma, cb := c == 1, d := d.toNat, a := a.toNat, b := b.toNat, emask := k.toNat, x := x == 1 } }
  | .vfnma c d a b k x =>
    some { m := { op := .fp .nma, cb := c == 1, d := d.toNat, a := a.toNat, b := b.toNat, emask := k.toNat, x := x == 1 } }
  | .vfdiv c d a b k x =>
    some { m := { op := .fp .div, cb := c == 1, d := d.toNat, a := a.toNat, b := b.toNat, emask := k.toNat, x := x == 1 } }
  | .vfsqrt c d a k x => some { m := { op := .fp .sqrt, cb := c == 1, d := d.toNat, a := a.toNat, emask := k.toNat, x := x == 1 } }
  | .vfrec c d a k x => some { m := { op := .fp .rcp, cb := c == 1, d := d.toNat, a := a.toNat, emask := k.toNat, x := x == 1 } }
  | .vfrsq c d a k x => some { m := { op := .fp .rsq, cb := c == 1, d := d.toNat, a := a.toNat, emask := k.toNat, x := x == 1 } }
  | .vfmin c d a b k x =>
    some { m := { op := .fp .min, cb := c == 1, d := d.toNat, a := a.toNat, b := b.toNat, emask := k.toNat, x := x == 1 } }
  | .vfmax c d a b k x =>
    some { m := { op := .fp .max, cb := c == 1, d := d.toNat, a := a.toNat, b := b.toNat, emask := k.toNat, x := x == 1 } }
  | .vfminp c d a b k x =>
    some { m := { op := .fp .minp, cb := c == 1, d := d.toNat, a := a.toNat, b := b.toNat, emask := k.toNat, x := x == 1 } }
  | .vfmaxp c d a b k x =>
    some { m := { op := .fp .maxp, cb := c == 1, d := d.toNat, a := a.toNat, b := b.toNat, emask := k.toNat, x := x == 1 } }
  | .vfabs c d a k x => some { m := { op := .fp .abs, cb := c == 1, d := d.toNat, a := a.toNat, emask := k.toNat, x := x == 1 } }
  | .vfneg c d a k x => some { m := { op := .fp .neg, cb := c == 1, d := d.toNat, a := a.toNat, emask := k.toNat, x := x == 1 } }
  | .vfcmpeq c d a b k x =>
    some { m := { op := .fp .cmpeq, cb := c == 1, d := d.toNat, a := a.toNat, b := b.toNat, emask := k.toNat, x := x == 1 } }
  | .vfcmplt c d a b k x =>
    some { m := { op := .fp .cmplt, cb := c == 1, d := d.toNat, a := a.toNat, b := b.toNat, emask := k.toNat, x := x == 1 } }
  | .vfcmple c d a b k x =>
    some { m := { op := .fp .cmple, cb := c == 1, d := d.toNat, a := a.toNat, b := b.toNat, emask := k.toNat, x := x == 1 } }
  | .vfclass c d a k x => some { m := { op := .fp .cls, cb := c == 1, d := d.toNat, a := a.toNat, emask := k.toNat, x := x == 1 } }
  | .vcmul c d a b k x =>
    some { m := { op := .cx .mul, cb := c == 1, d := d.toNat, a := a.toNat, b := b.toNat, emask := k.toNat, x := x == 1 } }
  | .vcmac c d a b k x =>
    some { m := { op := .cx .mac, cb := c == 1, d := d.toNat, a := a.toNat, b := b.toNat, emask := k.toNat, x := x == 1 } }
  | .vcmacj c d a b k x =>
    some { m := { op := .cx .macj, cb := c == 1, d := d.toNat, a := a.toNat, b := b.toNat, emask := k.toNat, x := x == 1 } }
  | .vcconj c d a k x => some { m := { op := .cx .conj, cb := c == 1, d := d.toNat, a := a.toNat, emask := k.toNat, x := x == 1 } }
  | .vcabs2 c d a k x => some { m := { op := .cx .abs2, cb := c == 1, d := d.toNat, a := a.toNat, emask := k.toNat, x := x == 1 } }
  | .vcrot c d a n k x =>
    some { m := { op := .cx .rot, cb := c == 1, d := d.toNat, a := a.toNat, b := n.toNat, emask := k.toNat, x := x == 1 } }
  | .vcscl c d a b k x =>
    some { m := { op := .cx .scl, cb := c == 1, d := d.toNat, a := a.toNat, b := b.toNat, emask := k.toNat, x := x == 1 } }
  | .vcinv2 c d a k x => some { m := { op := .cx .inv2, cb := c == 1, d := d.toNat, a := a.toNat, emask := k.toNat, x := x == 1 } }
  | .vgjp c d a b k x =>
    some { m := { op := .cx .gjp, cb := c == 1, d := d.toNat, a := a.toNat, b := b.toNat, emask := k.toNat, x := x == 1 } }
  | .vperm c d a b k => some { m := { op := .vx .perm, cb := c == 1, d := d.toNat, a := a.toNat, b := b.toNat, emask := k.toNat } }
  | .vslup c d a b k =>
    some { m := { op := .vx .slup, cb := c == 1, d := d.toNat, a := a.toNat, b := b.toNat, emask := k.toNat }, r1 := b.toNat }
  | .vsldn c d a b k =>
    some { m := { op := .vx .sldn, cb := c == 1, d := d.toNat, a := a.toNat, b := b.toNat, emask := k.toNat }, r1 := b.toNat }
  | .vrev c d a k => some { m := { op := .vx .rev, cb := c == 1, d := d.toNat, a := a.toNat, emask := k.toNat } }
  | .vpack c d a b => some { m := { op := .vx .pack, cb := c == 1, d := d.toNat, a := a.toNat, b := b.toNat } }
  | .vzip c d a k => some { m := { op := .vx .zip, cb := c == 1, d := d.toNat, a := a.toNat, emask := k.toNat } }
  | .vunzip c d a k => some { m := { op := .vx .unzip, cb := c == 1, d := d.toNat, a := a.toNat, emask := k.toNat } }
  | .vxch c d a k l => some { m := { op := .dist .xch, cb := c == 1, d := d.toNat, a := a.toNat, emask := k.toNat, ld := l.toNat } }
  | .vbfly c d a b k x l =>
    some { m := { op := .dist .bfly, cb := c == 1, d := d.toNat, a := a.toNat, b := b.toNat, emask := k.toNat, x := x == 1, ld := l.toNat } }
  | .vibfly c d a b k x l =>
    some { m := { op := .dist .ibfly, cb := c == 1, d := d.toNat, a := a.toNat, b := b.toNat, emask := k.toNat, x := x == 1, ld := l.toNat } }
  | .vplan c d a b k x l =>
    some { m := { op := .dist .plan, cb := c == 1, d := d.toNat, a := a.toNat, b := b.toNat, emask := k.toNat, x := x == 1, ld := l.toNat } }
  | .vmand c d a b k => some { m := { op := .mask .mand, cb := c == 1, d := d.toNat, a := a.toNat, b := b.toNat, emask := k.toNat } }
  | .vmor c d a b k => some { m := { op := .mask .mor, cb := c == 1, d := d.toNat, a := a.toNat, b := b.toNat, emask := k.toNat } }
  | .vmxor c d a b k => some { m := { op := .mask .mxor, cb := c == 1, d := d.toNat, a := a.toNat, b := b.toNat, emask := k.toNat } }
  | .vmnot c d a k => some { m := { op := .mask .mnot, cb := c == 1, d := d.toNat, a := a.toNat, emask := k.toNat } }
  | .vmfirst c d a k => some { m := { op := .mask .first, cb := c == 1, d := d.toNat, a := a.toNat, emask := k.toNat } }
  | .vmupto c d a k => some { m := { op := .mask .upto, cb := c == 1, d := d.toNat, a := a.toNat, emask := k.toNat } }
  | .vmpop c d a k => some { m := { op := .mask .pop, cb := c == 1, d := d.toNat, a := a.toNat, emask := k.toNat } }
  | .vredsum c d a b k x =>
    some { m := { op := .red .sum, cb := c == 1, d := d.toNat, a := a.toNat, b := b.toNat, emask := k.toNat, x := x == 1 } }
  | .vredmin c d a b k x =>
    some { m := { op := .red .min, cb := c == 1, d := d.toNat, a := a.toNat, b := b.toNat, emask := k.toNat, x := x == 1 } }
  | .vredmax c d a b k x =>
    some { m := { op := .red .max, cb := c == 1, d := d.toNat, a := a.toNat, b := b.toNat, emask := k.toNat, x := x == 1 } }
  | .vredminn c d a b k x =>
    some { m := { op := .red .minn, cb := c == 1, d := d.toNat, a := a.toNat, b := b.toNat, emask := k.toNat, x := x == 1 } }
  | .vredmaxn c d a b k x =>
    some { m := { op := .red .maxn, cb := c == 1, d := d.toNat, a := a.toNat, b := b.toNat, emask := k.toNat, x := x == 1 } }
  | .vfredsum c d a b k x =>
    some { m := { op := .red .fsum, cb := c == 1, d := d.toNat, a := a.toNat, b := b.toNat, emask := k.toNat, x := x == 1 } }
  | .vfredmin c d a b k x =>
    some { m := { op := .red .fmin, cb := c == 1, d := d.toNat, a := a.toNat, b := b.toNat, emask := k.toNat, x := x == 1 } }
  | .vfredmax c d a b k x =>
    some { m := { op := .red .fmax, cb := c == 1, d := d.toNat, a := a.toNat, b := b.toNat, emask := k.toNat, x := x == 1 } }
  | .vcredsum c d a b k x =>
    some { m := { op := .red .csum, cb := c == 1, d := d.toNat, a := a.toNat, b := b.toNat, emask := k.toNat, x := x == 1 } }
  | .vscan c d a k x => some { m := { op := .scan, cb := c == 1, d := d.toNat, a := a.toNat, emask := k.toNat, x := x == 1 } }
  | .vltrip c d a b x => some { m := { op := .ltrip, cb := c == 1, d := d.toNat, a := a.toNat, b := b.toNat, x := x == 1 } }
  | .vlstep c d b x => some { m := { op := .lstep, cb := c == 1, d := d.toNat, b := b.toNat, x := x == 1 } }
  | .vcvt c d a t k x =>
    some { m := { op := .cvt .cvt, cb := c == 1, d := d.toNat, a := a.toNat, b := t.toNat, emask := k.toNat, x := x == 1 } }
  | .vcvtsat c d a t k x =>
    some { m := { op := .cvt .sat, cb := c == 1, d := d.toNat, a := a.toNat, b := t.toNat, emask := k.toNat, x := x == 1 } }
  | .vcvtz c d a t k x =>
    some { m := { op := .cvt .trunc, cb := c == 1, d := d.toNat, a := a.toNat, b := t.toNat, emask := k.toNat, x := x == 1 } }
  | .vquant c d a b k x =>
    some { m := { op := .cvt .quant, cb := c == 1, d := d.toNat, a := a.toNat, b := b.toNat, emask := k.toNat, x := x == 1 } }
  | .vdeq c d a b k x =>
    some { m := { op := .cvt .deq, cb := c == 1, d := d.toNat, a := a.toNat, b := b.toNat, emask := k.toNat, x := x == 1 } }
  | .vtdec c d a k x => some { m := { op := .cvt .tdec, cb := c == 1, d := d.toNat, a := a.toNat, emask := k.toNat, x := x == 1 } }
  | .vmv c d a k => some { m := { op := .mov .mv, cb := c == 1, d := d.toNat, a := a.toNat, emask := k.toNat } }
  | .vmvs c d a k => some { m := { op := .mov .mvs, cb := c == 1, d := d.toNat, a := a.toNat, emask := k.toNat }, r1 := a.toNat }
  | .vext c d a b k =>
    some { m := { op := .mov .ext, cb := c == 1, d := d.toNat, a := a.toNat, b := b.toNat, emask := k.toNat }, r1 := b.toNat }
  | .vins c d a b k =>
    some { m := { op := .mov .ins, cb := c == 1, d := d.toNat, a := a.toNat, b := b.toNat, emask := k.toNat }, r1 := a.toNat, r2 := b.toNat }
  | .vid c d k => some { m := { op := .mov .id, cb := c == 1, d := d.toNat, emask := k.toNat } }
  | .vpush c a b => some { m := { op := .mov .push, cb := c == 1, a := a.toNat, b := b.toNat }, r1 := b.toNat }
  | .vtake c d b => some { m := { op := .mov .take, cb := c == 1, d := d.toNat, b := b.toNat }, r1 := b.toNat }
  | .vpoll c d b => some { m := { op := .mov .poll, cb := c == 1, d := d.toNat, b := b.toNat }, r1 := b.toNat }
  | _ => none

/-- The member a word stands for. -/
def vectorWord (w : W32) : Option VInstr :=
  match decodeWord w.toNat with
  | .ok i => opOf i
  | .error _ => none

/-- A captured g value. -/
def Ctx.capture (c : Ctx) (r : Nat) : W64 := if r < 32 then c.rd r else 0

/-- Queue entries in use: one for each entry, and one for each body word of a handed level (R130, R139). -/
def Ctx.occupancy (c : Ctx) : Nat :=
  c.queue.foldl (fun n q => match q with | .entry e => if e.lvl then n else n + 1 | .level l => n + l.body.length) 0

/-- Whether names of v16 to v31 rotate (R137). -/
def Ctx.rotating (c : Ctx) : Bool := c.levels.any fun l => l.kind == .staged

/-- The convoy at the tail of a queue: the entries from the last that opens one. -/
def tailOf : List QItem → List Entry → List Entry
  | [], acc => acc
  | .entry e :: q, acc => tailOf q (if e.opens then [e] else acc ++ [e])
  | .level _ :: q, _ => tailOf q []

def Ctx.tail (c : Ctx) : List Entry := tailOf c.queue []

/-- The entry of a vector instruction at pc. -/
def Ctx.entryOf (c : Ctx) (word : W32) (v : VInstr) (opens : Bool) : Entry where
  word := word
  pc := c.pc
  m := if c.rotating then v.m.rotate c.rb.toNat else v.m
  opens := opens
  g1 := c.capture v.r1
  g2 := c.capture v.r2
  set := c.settings

/-- Whether a word with CB as given opens a convoy: ERET reopens one at the word it returns to (R47). -/
def Ctx.opensAt (c : Ctx) (cb : Bool) : Bool := cb || (c.reopen && !c.open_)

/-- A full queue holds the word; the open convoy is closed by a word that opens another, or when it fills the queue itself. -/
def State.waitRoom (s : State) (opens : Bool) : Res :=
  (s.onMe fun c => if opens || decide (16 ≤ c.convoy.length) then { c with open_ := false } else c).waitOn s.me.oldest

/-- A word with CB = 0 that joins no convoy: ILLEGAL once the convoys before it have completed (R47). -/
def State.strayMember (s : State) : Res := if s.me.drained then s.illegal else s.waitOn s.me.oldest

/-- A member enters the queue (R44, R130). -/
def Ctx.enqueue (c : Ctx) (e : Entry) : Ctx := { c with queue := c.queue ++ [.entry e], open_ := true }

/-- The convoy at the tail leaves the queue unexecuted; the g[d] that a VSET at its head gave at issue is undone (R46). -/
def Ctx.dropTail (c : Ctx) : Ctx :=
  let c1 : Ctx := { c with queue := c.queue.take (c.queue.length - c.tail.length), open_ := false }
  match c.tail with
  | [] => c1
  | e :: _ =>
    match e.m.op with
    | .vset _ => c1.wr e.m.d e.old
    | _ => c1

/-- A convoy refused at scalar issue (R46, R260): none of its members executes, and the strand traps ILLEGAL at its first word. -/
def State.refuseTail (s : State) : Res :=
  let e := s.me.tail.headD {}
  .next ((s.onMe Ctx.dropTail).raise { key := s.cur, cause := .illegal, tval := e.word.setWidth 64, tepc := e.pc })

/-- A vector instruction at scalar issue (R42, R44, R46, R47, R48, R130). -/
def State.issueMember (s : State) (v : VInstr) : Res :=
  let c := s.me
  let opens := c.opensAt v.m.cb
  if isSteward s.cur || !c.vec || v.m.malformed then s.illegal
  else if v.m.syncs && c.isCoord v.m.d then s.illegal
  else if !opens && !c.open_ then s.strayMember
  else if 16 ≤ c.occupancy then s.waitRoom opens
  else
    let c1 := c.enqueue (c.entryOf s.ir v opens)
    if !(convoyOk c1.tail c.strip.2 c.strip.1) then (s.setMe c1).refuseTail
    else if v.m.syncs then .next (s.setMe { c1 with open_ := false, hold := .vsync, again := true, atPoint := false })
    else .next (s.setMe c1.advance)

/-- The same for an instruction. -/
def State.issueVector (s : State) (i : Instr) : Res :=
  match opOf i with
  | some v => s.issueMember v
  | none => s.illegal

/-! ### Strip boundaries (R252, R386, R389) -/

/-- Whether a strand stops at the strip boundary it stands at (R386). -/
def State.stripStops (s : State) (k : Nat) : Bool :=
  let c := s.ctxAt k
  let ctl := (s.coreAt (s.coreOf k)).crGet 0x482
  !(isSteward k) && ctl.getLsbD (c.here % 16) && (!(ctl.getLsbD 31) || bitsOf ctl 32 32 == (c.crGet 0x10B).toNat % 2 ^ 32)

/-- Whether every earlier convoy and anvil command of a strand has completed. -/
def State.settled (s : State) (k : Nat) : Bool :=
  (s.ctxAt k).drained && !((s.coreAt (s.coreOf k)).anvil.any fun a => a.key == k)

/-- Whether a strip stop would come once the strand has settled: ORD moves with the convoys, so it is asked again then. -/
def State.maySettle (s : State) (k : Nat) : Bool :=
  let c := s.ctxAt k
  let ctl := (s.coreAt (s.coreOf k)).crGet 0x482
  !(isSteward k) && ctl.getLsbD (c.here % 16)

/-- The strip stop (R386, R389): BREAK at the word, with the ordinal of the strip just ended, and a stop record. It is the one trap of a word that
bears a break bit too. -/
def State.stripStop (s : State) (k : Nat) : State :=
  let c := s.ctxAt k
  let m := s.coreOf k
  let ord := (c.crGet 0x10B).toNat % 2 ^ 32
  ((s.traceRecord m (s.traceHead m k 3 c.grant c.pc ++ [s.traceData k 0, 0])).onCtx k fun c => { c with breakAt := some c.pc }).raise
    { key := k, cause := .brk, tval := BitVec.ofNat 64 ord, tepc := c.pc }

/-- A VSET or END at its strip boundary: the stop, a wait until the strand has settled, or the word itself. -/
def State.atStrip (s : State) (go : Res) : Res :=
  if !(s.maySettle s.cur) then go
  else if !(s.settled s.cur) then s.wait
  else if s.stripStops s.cur then .next (s.stripStop s.cur)
  else go

/-- VSET (R276): g[d] at once, VL and type at its place among the convoys (R249). Its convoy stays open until the next word: a member that
joins it refuses it (R45, R46). The strip stop is a BREAK, which comes before ILLEGAL (R194). -/
def execVset (d a t : BitVec 5) (s : State) : Res :=
  let c := s.me
  if isSteward s.cur then s.illegal
  else
    s.atStrip (
      if !c.vec || decide (22 < t.toNat) || s.coordDest d then s.illegal
      else if 16 ≤ c.occupancy then s.waitRoom true
      else
        let vl := min (s.rd a).toNat (vlMax t.toNat)
        let e := c.entryOf s.ir { m := { op := .vset t.toNat, d := d.toNat }, r1 := a.toNat } true
        (s.setMe (c.enqueue { e with old := s.rd d })).done d (BitVec.ofNat 64 vl))

/-! ### The levels the sequencer takes over (R139) -/

/-- The general registers that a word reads, and the one it writes, 0 where there is none: by the format of its major (R35, R36), where a field that
is not used is 0; the vector majors name few (R39), and of the C format TENC reads gd, ATILE reads and writes all three and the anvil's accumulator
fields name no register (R309, R336). -/
def wordRegs (w : W32) : List Nat × List Nat :=
  let r (lo : Nat) : Nat := w.toNat / 2 ^ lo % 32
  let major := w.toNat / 2 ^ 25 % 64
  let sub := w.toNat / 2 ^ 17 % 256
  if major = 0x0B ∨ major = 0x0C ∨ major = 0x13 then ([], [r 20])
  else if (0x0D ≤ major ∧ major ≤ 0x12) ∨ major = 0x18 then ([r 20, r 15], [])
  else if major = 0x15 then
    let fn := w.toNat / 2 ^ 22 % 8
    if fn = 1 then ([], []) else if fn = 6 then ([], [r 17]) else if fn = 4 then ([r 12], [r 17]) else ([r 17, r 12], [])
  else if major = 0x19 then (if w.toNat % 16 = 9 then [r 20, r 15, r 10] else [r 15, r 10], [r 20])
  else if major = 0x1A then ([], [])
  else if major = 0x00 ∨ major = 0x02 ∨ major = 0x03 ∨ major = 0x1B then ([r 15, r 10], [r 20])
  else if major ≤ 0x1B ∨ major = 0x1C then ([r 15], [r 20])
  else if major ≤ 0x26 then
    match vectorWord w with
    | some v => ([v.r1, v.r2].filter (· < 32), if v.m.syncs then [v.m.d] else [])
    | none => ([], [])
  else if major = 0x27 then
    if sub = 4 then ([r 12, r 7, r 2], [r 12, r 7, r 2]) else ([r 7, r 2], if sub = 2 then [r 12] else [])
  else (if major = 0x29 ∧ sub = 0 then [r 12, r 7, r 2] else [r 7, r 2], [r 12])

/-- Whether the word at pc must wait for a handed LOOPM level that binds a register it reads or writes (R139). -/
def Ctx.boundAway (c : Ctx) (w : W32) : Bool :=
  let rs := (wordRegs w).1 ++ (wordRegs w).2
  c.queue.any fun q =>
    match q with
    | .entry _ => false
    | .level l => l.lvl.kind == .masked && l.lvl.set.binds.any fun b => rs.contains b.1.toNat

/-- The result that the word at pc reads and that is still on its way (R128). -/
def Ctx.awaited (c : Ctx) (now : Nat) (w : W32) : Option Late :=
  if c.late.isEmpty then none else c.late.find? fun l => decide (now < l.at_) && (wordRegs w).1.contains l.reg

end Sys2Proof.Machine
end

