-- ==== Sys2Proof/Machine/Cycles.lean ====
section
/-! DEFINITION. Cycles of a core: the rotation of its strands, and what the debug unit counts and charges in each cycle (08 R128, R129; 29 R384,
R387, R388). -/

namespace Sys2Proof.Machine

/-! ### The rotation (R128) -/

/-- How far a slot stands behind the one that issued last. -/
def slotTurn (last slot : Nat) : Nat := (slot + 15 - last) % 16

/-- How many turns a strand waits on its core. -/
def State.strandTurn (s : State) (k : Nat) : Nat := slotTurn (s.coreAt (s.coreOf k)).lastSlot ((s.ctxAt k).here % 16)

/-- The strand of a core that comes first in the rotation among those with a property. -/
def State.firstInTurn (s : State) (m : Nat) (f : Nat → Bool) : Option Nat :=
  (s.strands.filter fun k => s.coreOf k == m && f k).foldl (fun b k =>
    match b with
    | none => some k
    | some j => if s.strandTurn k < s.strandTurn j then some k else some j) none

/-! ### Lost cycles (R387) -/

/-- The member that a strand held on a synchronising instruction waits for. -/
def Ctx.syncPc (c : Ctx) : Nat := (((c.entries.filter fun e => e.m.syncs).getLast?).map fun e => e.pc.toNat).getD 0

/-- The pair that a lost cycle of a held strand is charged to, if its hold is one that R387 charges, and whether the hold has been counted. -/
def Ctx.lossPair (c : Ctx) : Option (Nat × Nat × Bool) :=
  match c.hold with
  | .ready => if c.again then c.stall.map fun p => (p.1, c.pc.toNat, p.2) else none
  | .vsync => some (c.syncPc, c.resumePc.toNat, c.stall == some (c.syncPc, true))
  | _ => none

/-- Cycles that a core has lost, charged to the first strand in the rotation whose hold is charged (R387): they count as event 3. -/
def State.chargeLost (s : State) (m n : Nat) : State :=
  match s.firstInTurn m fun k => (s.ctxAt k).lossPair.isSome with
  | none => s
  | some k =>
    match (s.ctxAt k).lossPair with
    | none => s
    | some (ppc, cpc, counted) =>
      ((s.onCore m fun c => c.charge ppc cpc (s.ctxAt k).job (!counted) n 0).onCtx k fun c => { c with stall := some (ppc, true) }).tally m k 3 n

/-- n cycles of a core end, in which it issued or did not: events 0 and 2 of R384, and the charge for lost ones. -/
def State.coreCycles (s : State) (m n : Nat) (busy : Bool) : State :=
  let s1 := s.tally m (s.lastOn m) 0 n
  if busy then s1 else (s1.tally m (s.lastOn m) 2 n).chargeLost m n

/-- n cycles of every core end in which none issues. -/
def State.idleCycles (s : State) (n : Nat) : State := (keysOf s.core).foldl (fun s m => s.coreCycles m n false) s

/-- A new window of the stewards' shares, if one has begun since a cycle (R129). -/
def State.newWindow (s : State) (before : Nat) : State :=
  if before / 64 = s.now / 64 then s else { s with core := s.core.map fun p => (p.1, { p.2 with stUsed := 0 }) }

/-- A round has gone by: a cycle of every core. -/
def State.nextRound (s : State) : State :=
  let s1 := (keysOf s.core).foldl (fun s m =>
    (s.coreCycles m 1 (s.coreAt m).issued).onCore m fun c => { c with issued := false }) s
  ({ s1 with rounds := s.rounds + 1 } : State).newWindow s.now

end Sys2Proof.Machine
end

