-- ==== Sys2Proof/Machine/Cr.lean ====
section
/-! DEFINITION. The control registers and the CR instructions (03 R8, R52, R53; 09 R143 to R146; each register's own rule). -/

namespace Sys2Proof.Machine

/-! ### Numbers (R52, R53) -/

/-- The assigned numbers. -/
def crAssigned (n : Nat) : Bool :=
  decide (n ≤ 0x007) || (decide (0x030 ≤ n) && decide (n ≤ 0x032)) || (decide (0x100 ≤ n) && decide (n ≤ 0x10C))
    || (decide (0x200 ≤ n) && decide (n ≤ 0x206)) || (decide (0x280 ≤ n) && decide (n ≤ 0x283))
    || (decide (0x2C0 ≤ n) && decide (n ≤ 0x2C8)) || (decide (0x300 ≤ n) && decide (n ≤ 0x309))
    || n == 0x340 || n == 0x341 || (decide (0x348 ≤ n) && decide (n ≤ 0x34E)) || (decide (0x380 ≤ n) && decide (n ≤ 0x382))
    || (decide (0x3C0 ≤ n) && decide (n ≤ 0x3C5)) || (decide (0x400 ≤ n) && decide (n ≤ 0x405))
    || (decide (0x480 ≤ n) && decide (n ≤ 0x486)) || (decide (0x490 ≤ n) && decide (n ≤ 0x49F))
    || (decide (0x500 ≤ n) && decide (n ≤ 0x508)) || (decide (0x800 ≤ n) && decide (n ≤ 0x809))
    || (decide (0x810 ≤ n) && decide (n ≤ 0x817)) || (decide (0x820 ≤ n) && decide (n ≤ 0x84F))

/-- The numbers that strands may write: all others are read-only to them (R53, R99, R125, R219, R248, R303, R332, R344, R359, R367, R383,
R402). -/
def crWritable (n : Nat) : Bool :=
  (decide (0x030 ≤ n) && decide (n ≤ 0x032)) || (decide (0x102 ≤ n) && decide (n ≤ 0x109)) || n == 0x10C
    || (decide (0x200 ≤ n) && decide (n ≤ 0x205)) || n == 0x280 || n == 0x281 || n == 0x283 || n == 0x2C4 || n == 0x381
    || n == 0x3C2 || n == 0x3C4 || n == 0x3C5

/-- The vector and anvil ranges. -/
def crVector (n : Nat) : Bool := decide (0x100 ≤ n) && decide (n ≤ 0x27F)

/-- The trap of an access (R53): ILLEGAL ranks above PRIV (R43), so a number that is not assigned is ILLEGAL from 0x800 on too, and an assigned one
there is PRIV from a strand. DESIGN CHOICE: a steward's access to a number that is not assigned raises ILLEGAL, which R53 states for strands only
(log 14). -/
def crTrap (steward vec : Bool) (n : Nat) (write : Bool) : Option Cause :=
  if !crAssigned n then some .illegal
  else if steward then none
  else if 0x800 ≤ n then some .priv
  else if (crVector n && !vec) || (write && !crWritable n) then some .illegal
  else none

/-! ### Reading -/

/-- %slack: %deadline − %time − p as i64, saturated (R219, R241). -/
def slackOf (deadline time : W64) (p : Int) : W64 :=
  BitVec.ofInt 64 (clampInt true 64 ((deadline.toNat : Int) - (time.toNat : Int) - p)).1

/-- The strand a CR access acts on: the issuing one, or for a steward the one in %tslot (log 14). -/
def State.crStrand (s : State) (k : Nat) : Option Nat :=
  if isSteward k then s.strandAt ((k - 4096) * 16 + ((s.coreAt (k - 4096)).crGet 0x805).toNat % 16) else some k

/-- %astat (R316). -/
def State.astat (s : State) (k : Nat) : W64 :=
  let m := s.coreOf k
  let y := s.clusterAt (clusterOf m)
  let held := y.holder == some k
  BitVec.ofNat 64 ((if held then 2 ^ 63 else 0) + (if y.requests.contains k then 2 ^ 62 else 0)
    + (if (s.ctxAt k).anvilErr then 2 ^ 61 else 0) + (if held then y.used else 0) % 512 * 2 ^ 32
    + ((s.coreAt m).anvil.filter fun a => a.key == k).length * 2 ^ 16
    + (y.slots.filter fun p => match p.2 with | some o => o.owner == k && o.job == (s.ctxAt k).job | none => false).length)

/-- %wtract (R367); a hand-over shows once the core's copy of the map has changed (R372). -/
def State.wtract (s : State) (k : Nat) : W64 :=
  let m := s.coreOf k
  if (s.ctxAt k).wayfarer then BitVec.ofNat 64 (((s.coreAt m).shown.getD (s.tractCount m)) % 16 * 2 ^ 32 + m) else 0

/-- %hstat (R303). -/
def State.hstat (s : State) (m : Nat) : W64 :=
  BitVec.ofNat 64 ((List.range 4).foldl (fun v c =>
    v + ((if (s.chanAt m c).fault then 2 ^ 15 else 0) + (s.chanAt m c).code) * 2 ^ (16 * c)) 0)

/-- %cstat (R359). -/
def Core.cstat (c : Core) : W64 := BitVec.ofNat 64 ((if c.codeFault then 2 ^ 63 else 0) + c.codeCode)

/-- %vdlen j: the lengths of v(4j) to v(4j + 3) of the core's vector strand (R195). -/
def State.vdlen (s : State) (m j : Nat) : W64 :=
  match s.vectorStrand m with
  | none => 0
  | some k => BitVec.ofNat 64 ((List.range 4).foldl (fun v i => v + Sparse.get 0 (s.ctxAt k).len (4 * j + i) * 2 ^ (16 * i)) 0)

/-- A register kept with the strand. -/
def State.strandCr (s : State) (k n : Nat) : W64 :=
  match s.crStrand k with
  | none => 0
  | some t => (s.ctxAt t).crGet n

/-- What the events whose messages the spec does not number have added to a network counter (log 20). -/
def unnumbered (n : Nat) : Nat → W64
  | 0 => 0
  | i + 1 => unnumbered n i + Config.uncounted i n

/-- How far a core's free part of a network counter has moved: with the unnumbered events, and of %nstall with the cycle (log 2, log 20). -/
def Core.freePart (c : Core) (now n : Nat) : Nat := if n = 0x307 then now else c.unseen

/-- What that part has added since the counter was last written (R125). -/
def Core.unstated (c : Core) (now n : Nat) : W64 :=
  if n = 0x307 then Config.uncounted now n - Config.uncounted (Sparse.get 0 c.unseenAt n) n
  else unnumbered n c.unseen - unnumbered n (Sparse.get 0 c.unseenAt n)

/-- A network counter written (R125): it reads back as written. -/
def Core.setCounter (c : Core) (now n : Nat) (v : W64) : Core :=
  let c1 : Core := { c with unseenAt := Sparse.set 0 c.unseenAt n (c.freePart now n) }
  if n = 0x304 then { c1 with nflit := v } else c1.crSet n v

/-- What a control register reads for a context. -/
def State.crRead (s : State) (k n : Nat) : W64 :=
  let m := s.coreOf k
  let c := s.coreAt m
  let strand (f : Nat → W64) : W64 := match s.crStrand k with | none => 0 | some t => f t
  if n = 0x000 then strand fun t => BitVec.ofNat 64 t
  else if n = 0x001 then BitVec.ofNat 64 m
  else if n = 0x003 then strand fun t => BitVec.ofNat 64 (s.ctxAt t).rank
  else if n = 0x005 then strand fun t => BitVec.ofNat 64 (s.ctxAt t).job
  else if n = 0x006 then BitVec.ofNat 64 s.now
  else if n = 0x007 then s.dev.time
  else if n = 0x206 then strand s.astat
  else if n = 0x282 then BitVec.ofNat 64 c.tmile
  else if n = 0x283 then c.tflags.setWidth 64
  else if 0x2C0 ≤ n ∧ n ≤ 0x2C3 then BitVec.ofNat 64 (s.milestone m (n - 0x2C0))
  else if n = 0x2C4 then s.hstat m
  else if 0x2C5 ≤ n ∧ n ≤ 0x2C8 then BitVec.ofNat 64 (s.chanAt m (n - 0x2C5)).fid
  else if n = 0x304 then c.nflit + c.unstated s.now n
  else if n = 0x300 ∨ n = 0x301 ∨ n = 0x307 then c.crGet n + c.unstated s.now n
  else if 0x490 ≤ n ∧ n ≤ 0x497 then s.counter m (n - 0x490)
  else if n = 0x340 ∨ n = 0x341 ∨ n = 0x3C3 ∨ (0x403 ≤ n ∧ n ≤ 0x405) then s.dev.crGet n
  else if n = 0x380 then BitVec.ofNat 64 c.cmile
  else if n = 0x381 then c.cstat
  else if n = 0x382 then BitVec.ofNat 64 c.codeFid
  else if n = 0x3C1 then strand s.wtract
  else if n = 0x401 then slackOf (s.strandCr k 0x400) s.dev.time 0
  else if n = 0x500 then 1
  else if n = 0x501 then Config.feat0.setWidth 64
  else if 0x502 ≤ n ∧ n ≤ 0x504 then 0
  else if n = 0x505 then s.dev.feaen
  else if n = 0x507 then s.dev.tier.setWidth 64
  else if n = 0x508 then s.dev.pmeas.setWidth 64
  else if 0x810 ≤ n ∧ n ≤ 0x817 then s.vdlen m (n - 0x810)
  else if 0x300 ≤ n ∧ n ≤ 0x309 ∨ 0x348 ≤ n ∧ n ≤ 0x34E ∨ n = 0x3C2 ∨ 0x480 ≤ n ∧ n ≤ 0x49F ∨ 0x800 ≤ n then c.crGet n
  else s.strandCr k n

/-! ### Writing: the field rules of each map (R8, R144) -/

/-- The low n bits of a value. -/
def low (n : Nat) (v : W64) : W64 := BitVec.ofNat 64 (v.toNat % 2 ^ n)

/-- A field of n bits at lo that takes v's bits when they are assigned, and stays otherwise (R144). -/
def field (old v : W64) (lo n : Nat) (ok : Nat → Bool) : Nat := (if ok (bitsOf v lo n) then bitsOf v lo n else bitsOf old lo n) * 2 ^ lo

def always (_ : Nat) : Bool := true

/-- The fields of a register that is kept as it is written: what a write of v stores over old. -/
def crStore (n : Nat) (old v : W64) : W64 :=
  if n = 0x030 ∨ n = 0x104 ∨ n = 0x105 then low 8 v
  else if n = 0x031 ∨ n = 0x032 ∨ n = 0x107 ∨ n = 0x108 ∨ n = 0x109 ∨ n = 0x3C5 ∨ n = 0x404 ∨ n = 0x405 then low 32 v
  else if n = 0x102 then low 13 v
  else if n = 0x106 then low 2 v
  else if n = 0x10C then BitVec.ofNat 64 (field old v 0 5 fun f => decide (13 ≤ f) && decide (f ≤ 17))
  else if n = 0x200 then BitVec.ofNat 64 (field old v 4 2 always + field old v 0 4 fun f => decide (f ≤ 13))
  else if n = 0x201 then BitVec.ofNat 64 (field old v 4 1 always + field old v 0 4 fun f => decide (f ≤ 13))
  else if n = 0x202 ∨ n = 0x203 ∨ n = 0x403 then low 20 v
  else if n = 0x204 then BitVec.ofNat 64 (field old v 0 3 fun f => decide (f ≤ 4))
  else if n = 0x205 then BitVec.ofNat 64 (field old v 0 9 fun f => decide (1 ≤ f) && decide (f ≤ 256))
  else if n = 0x280 then BitVec.ofNat 64 (field old v 0 5 fun f => f == 8 || f == 10 || f == 12 || f == 14 || f == 16)
  else if n = 0x281 then BitVec.ofNat 64 (field old v 0 2 fun f => decide (f ≤ 2))
  else if n = 0x340 then
    BitVec.ofNat 64 (field old v 61 3 always + field old v 48 2 (fun f => decide (f ≤ 2)) + field old v 0 32 always)
  else if n = 0x341 then
    BitVec.ofNat 64 (field old v 0 32 fun f => decide (f ≤ 2 ^ 30) || decide (2 ^ 32 - 2 ^ 30 ≤ f))
  else if n = 0x3C2 then BitVec.ofNat 64 (field old v 0 4 fun f => decide (1 ≤ f) && decide (f ≤ 12))
  else if n = 0x3C3 then low 16 v
  else if n = 0x3C4 then BitVec.ofNat 64 (field old v 0 7 fun f => decide (1 ≤ f) && decide (f ≤ 64))
  else if n = 0x402 then low 4 v
  else if n = 0x480 then BitVec.ofNat 64 (field old v 48 16 always + field old v 12 36 always)
  else if n = 0x481 then BitVec.ofNat 64 (field old v 12 38 always)
  else if n = 0x482 then BitVec.ofNat 64 (field old v 31 33 always + field old v 0 16 always)
  else if n = 0x483 then BitVec.ofNat 64 (field old v 12 36 always)
  else if n = 0x484 then BitVec.ofNat 64 (field old v 5 3 always + field old v 0 5 (fun f => decide (7 ≤ f) && decide (f ≤ 24)))
  else if n = 0x486 then low 35 v
  else if 0x498 ≤ n ∧ n ≤ 0x49F then BitVec.ofNat 64 (field old v 8 5 always + field old v 0 8 fun f => decide (f ≤ 15))
  else if n = 0x506 ∨ n = 0x807 then BitVec.ofNat 64 (field old v 18 30 always)
  else if n = 0x800 then BitVec.ofNat 64 (field old v 12 38 always)
  else if n = 0x801 then BitVec.ofNat 64 (min (bitsOf v 0 7) 64)
  else if n = 0x802 then BitVec.ofNat 64 (field old v 61 3 always + field old v 8 4 always + field old v 0 8 fun f => decide (f ≤ 0x11))
  else if n = 0x805 then low 4 v
  else if n = 0x803 ∨ n = 0x806 ∨ n = 0x808 ∨ n = 0x809 then low 50 v
  else if 0x820 ≤ n ∧ n ≤ 0x84F ∧ (n - 0x820) % 3 = 0 then low 32 v
  else v

/-- A write to a register kept with the strand. -/
def State.strandCrSet (s : State) (k n : Nat) (v : W64) : State :=
  match s.crStrand k with
  | none => s
  | some t => s.onCtx t fun c => c.crSet n (crStore n (c.crGet n) v)

/-- A write to %hstat: each F bit written 0 clears its channel's fault (R302, R303). -/
def State.setHstat (s : State) (m : Nat) (v : W64) : State :=
  (List.range 4).foldl (fun s c => if v.getLsbD (16 * c + 15) then s else s.clearHaulFault m c) s

/-- A write of 0 to %cstat.F clears the fault: the faulted request, and those that ended meanwhile, count as complete (R359, R363). -/
def State.setCstat (s : State) (m : Nat) (v : W64) : State :=
  if v.getLsbD 63 then s
  else s.onCore m fun c =>
    if c.codeFault then
      { c with codeFault := false, codeDiscard := [], codeStuck := []
               codeOpen := c.codeOpen.filter fun i => i != c.codeFid && !(c.codeDiscard.contains i) }
    else c

/-- A write of 0 to a bit of %tflags clears it (R332). -/
def State.setTflags (s : State) (m : Nat) (v : W64) : State := s.onCore m fun c => { c with tflags := c.tflags &&& v.setWidth 2 }

/-- A write to %vdlen j by the steward: each length of 0 to 2,048 is taken (R195, R144). -/
def State.setVdlen (s : State) (m j : Nat) (v : W64) : State :=
  match s.vectorStrand m with
  | none => s
  | some k => s.onCtx k fun c => (List.range 4).foldl (fun c i =>
      if bitsOf v (16 * i) 16 ≤ 2048 then c.setLen (4 * j + i) (bitsOf v (16 * i) 16) else c) c

/-- A forward step of the phase, which takes effect at the next tick; %time never decreases (R343). -/
def Device.setTime (d : Device) (v : W64) : Device := if d.time < v then { d with phaseStep := v - d.time } else d

/-- A write of a control register by a context (R144). Registers that only the device or a restore writes keep their value. -/
def State.crWrite (s : State) (k n : Nat) (v : W64) : State :=
  let m := s.coreOf k
  if n = 0x007 then { s with dev := s.dev.setTime v }
  else if n = 0x283 then s.setTflags m v
  else if n = 0x2C4 then s.setHstat m v
  else if n = 0x381 then s.setCstat m v
  else if 0x300 ≤ n ∧ n ≤ 0x309 then s.onCore m fun c => c.setCounter s.now n v
  else if n = 0x340 ∨ n = 0x341 ∨ n = 0x3C3 ∨ (0x403 ≤ n ∧ n ≤ 0x405) then
    let s1 : State := { s with dev := s.dev.crSet n (crStore n (s.dev.crGet n) v) }
    if n = 0x3C3 then s1.reviseAll else s1
  else if 0x348 ≤ n ∧ n ≤ 0x34E ∨ n = 0x3C2 ∨ 0x480 ≤ n ∧ n ≤ 0x49F ∨ 0x800 ≤ n ∧ n ≤ 0x809 ∨ 0x820 ≤ n then
    s.onCore m fun c => c.crSet n (crStore n (c.crGet n) v)
  else if 0x810 ≤ n ∧ n ≤ 0x817 then s.setVdlen m (n - 0x810) v
  else if n = 0x030 ∨ n = 0x031 ∨ n = 0x032 ∨ (0x102 ≤ n ∧ n ≤ 0x109) ∨ n = 0x10C ∨ (0x200 ≤ n ∧ n ≤ 0x205) ∨ n = 0x280 ∨ n = 0x281
      ∨ n = 0x3C4 ∨ n = 0x3C5 ∨ n = 0x400 ∨ n = 0x402 ∨ n = 0x506 then
    s.strandCrSet k n v
  else s

/-! ### The instructions -/

/-- Whether the steward names a register of a strand whose convoy is running, the strand in %tslot or, by %vdlen, the core's vector strand: it acts at
convoy boundaries only (R129). -/
def State.midConvoy (s : State) (n : Nat) : Bool :=
  let runs (k : Option Nat) : Bool := match k with | some t => (s.ctxAt t).running.isSome | none => false
  isSteward s.cur && (runs (s.crStrand s.cur) || (decide (0x810 ≤ n) && decide (n ≤ 0x817) && runs (s.vectorStrand s.myCore)))

/-- A result read from the vector or anvil range synchronises (R48). -/
def State.crDone (s : State) (d : BitVec 5) (n : Nat) (v : W64) : State :=
  (if crVector n then s.onMe (·.wrSync d.toNat v) else s.wr d v).advance

/-- Whether a CR instruction waits for every convoy to drain (R48, R145). -/
def crSyncs (n : Nat) (writeOnly : Bool) : Bool :=
  if writeOnly then n == 0x102 || n == 0x104 || n == 0x109 else crVector n

/-- Common to the four: the traps of R53, then the wait of R145. -/
def State.crGuard (s : State) (n : BitVec 12) (write writeOnly : Bool) (go : Res) : Res :=
  match crTrap (isSteward s.cur) s.me.vec n.toNat write with
  | some .priv => s.priv
  | some _ => s.illegal
  | none =>
    if s.midConvoy n.toNat then s.wait
    else if crSyncs n.toNat writeOnly && !s.me.drained && !(isSteward s.cur) then s.waitOn s.me.oldest else go

/-- CRRD (R144). -/
def execCrrd (d : BitVec 5) (n : BitVec 12) (s : State) : Res :=
  let v := s.crRead s.cur n.toNat
  s.crGuard n false false (if s.coordDest d then s.coordResult d v else .next (s.crDone d n.toNat v))

/-- CRWR (R144). -/
def execCrwr (a : BitVec 5) (n : BitVec 12) (s : State) : Res :=
  s.crGuard n true true (.next (s.crWrite s.cur n.toNat (s.rd a)).advance)

/-- CRSET (R144): a coordinate register may not receive the old value (R369). -/
def execCrset (d a : BitVec 5) (n : BitVec 12) (s : State) : Res :=
  if s.coordDest d then s.illegal
  else
    let old := s.crRead s.cur n.toNat
    s.crGuard n true false (.next ((s.crWrite s.cur n.toNat (old ||| s.rd a)).crDone d n.toNat old))

/-- CRCLR (R144). -/
def execCrclr (d a : BitVec 5) (n : BitVec 12) (s : State) : Res :=
  if s.coordDest d then s.illegal
  else
    let old := s.crRead s.cur n.toNat
    s.crGuard n true false (.next ((s.crWrite s.cur n.toNat (old &&& ~~~(s.rd a))).crDone d n.toNat old))

end Sys2Proof.Machine
end

