-- ==== Sys2Proof/Machine/Save.lean ====
section
/-! DEFINITION. The save record of a pre-empted strand, written and read back (11_traps R205, R206; log 18). -/

namespace Sys2Proof.Machine

/-- The number of a loop kind. -/
def LoopKind.number : LoopKind → Nat
  | .counted => 0
  | .masked => 1
  | .staged => 2

/-- Binding i of some settings: its target and its stride. -/
def LoopSettings.bind (t : LoopSettings) (i : Nat) : Nat × W64 :=
  match t.binds[i]? with
  | some b => (b.1.toNat, b.2)
  | none => (0, 0)

/-- The eight words of a level (R206). -/
def Level.record (l : Level) : List W64 :=
  [l.n, l.p, l.start.setWidth 64, l.stop.setWidth 64,
   BitVec.ofNat 64 (l.kind.number * 2 ^ 62 + (l.stages - 1) * 2 ^ 59 + l.mreg * 2 ^ 56 + l.set.binds.length * 2 ^ 54
     + (l.set.bind 0).1 * 2 ^ 49 + (l.set.bind 1).1 * 2 ^ 44),
   (l.set.bind 0).2, (l.set.bind 1).2, 0]

/-- The masks and tags of the innermost level, and the pending settings (R206). -/
def settingsRecord (l p : LoopSettings) : List W64 :=
  [BitVec.ofNat 64 (l.first.toNat * 2 ^ 16 + l.last.toNat), l.tags.setWidth 64,
   BitVec.ofNat 64 (p.first.toNat * 2 ^ 16 + p.last.toNat), p.tags.setWidth 64,
   BitVec.ofNat 64 (p.binds.length * 2 ^ 10 + (p.bind 0).1 * 2 ^ 5 + (p.bind 1).1), (p.bind 0).2, (p.bind 1).2, 0]

/-- The handed levels of a queue, P counting the passes that have retired: a pass whose entries still stand before its level has not (R206). -/
def handedLevels : Bool → List QItem → List Level
  | _, [] => []
  | b, .entry e :: q => handedLevels (b || e.lvl) q
  | b, .level l :: q => (if b then { l.lvl with p := l.lvl.p - 1 } else l.lvl) :: handedLevels false q

/-- The active levels, outermost first, those handed to the sequencer last. -/
def Ctx.allLevels (c : Ctx) : List Level := c.levels.reverse ++ handedLevels false c.queue

/-- The entries of a queue, in order. -/
def entriesOf (q : List QItem) : List Entry := q.filterMap fun x => match x with | .entry e => some e | _ => none

/-- The queue kept under R203: a header and sixteen entries (R205). -/
def queueRecord (es : List Entry) : List W64 :=
  let head := match es with
    | [] => 0
    | e :: _ => 2 ^ 63 + (es.length - 1) % 16 * 2 ^ 56 + e.pc.toNat
  BitVec.ofNat 64 head :: (List.range 16).flatMap fun i =>
    match es[i]? with
    | some e => [e.word.setWidth 64, e.g1, e.g2]
    | none => [0, 0, 0]

def zeros (n : Nat) : List W64 := List.replicate n 0

/-- The registers of record words 92 to 96, and of record words 108 to 125. -/
def scalarSaved : List Nat := [0x280, 0x281, 0x3C4, 0x3C5, 0x3C0]
def vectorSaved : List Nat :=
  [0x100, 0x101, 0x102, 0x103, 0x104, 0x105, 0x106, 0x107, 0x108, 0x109, 0x10C, 0x10B, 0x200, 0x201, 0x202, 0x203, 0x204, 0x205]

/-- The part every strand has: 800 bytes. -/
def Ctx.scalarRecord (c : Ctx) : List W64 :=
  let ls := c.allLevels
  [BitVec.ofNat 64 ((c.crGet 0x10A).toNat * 2 ^ 32 + c.rb.toNat * 2 ^ 16 + ls.length * 2 ^ 8 + 1), c.pc.setWidth 64]
    ++ (List.range 31).map (fun i => c.rd (i + 1))
    ++ [0x030, 0x031, 0x032].map c.crGet
    ++ ls.flatMap Level.record ++ zeros (8 * (6 - ls.length))
    ++ settingsRecord (match ls.getLast? with | some l => l.set | none => {}) c.pending
    ++ scalarSaved.map c.crGet ++ zeros 3

/-- The lengths of four vector registers. -/
def Ctx.lens (c : Ctx) (j : Nat) : W64 :=
  BitVec.ofNat 64 ((List.range 4).foldl (fun v i => v + Sparse.get 0 c.len (4 * j + i) * 2 ^ (16 * i)) 0)

/-- The vector part up to the mask registers. -/
def Ctx.vectorWords (c : Ctx) : List W64 :=
  (List.range 8).map c.lens
    ++ vectorSaved.map c.crGet
    ++ [BitVec.ofNat 64 (c.tileK * 2 ^ 32 + c.tileN * 2 ^ 16 + c.tileM), 0]
    ++ queueRecord (entriesOf c.queue) ++ zeros 15

def bytesOf (ws : List W64) : List Byte := ws.flatMap fun w => leBytes 8 w.toNat

/-- Bytes padded to a multiple of 64. -/
def pad64 (bs : List Byte) : List Byte := bs ++ List.replicate ((64 - bs.length % 64) % 64) 0

/-- The first n bytes of a vector register. -/
def Ctx.regBytesOf (c : Ctx) (r n : Nat) : List Byte := (List.range n).map fun b => Sparse.get 0 c.vreg (2048 * r + b)

/-- The save record of a strand. -/
def Ctx.saveRecord (c : Ctx) : List Byte :=
  bytesOf c.scalarRecord ++
    if !c.vec then []
    else
      bytesOf c.vectorWords ++ (List.range 8192).map (fun b => Sparse.get 0 c.mreg b)
        ++ ((List.range 32).filter fun r => (c.crGet 0x10A).getLsbD r).flatMap fun r => pad64 (c.regBytesOf r (Sparse.get 0 c.len r))

/-- Bytes that the steward of a core writes through its own translation, up to the first page that does not translate; whether all were. -/
def State.stewardWrite (s : State) (m : Nat) : Nat → Nat → List Byte → State × Bool
  | 0, _, bs => (s, bs.isEmpty)
  | fuel + 1, va, bs =>
    if bs.isEmpty then (s, true)
    else
      match s.resolve (4096 + m) va .write with
      | .error _ => (s, false)
      | .ok (p, s1) =>
        ((s1.requestLines m (some (4096 + m)) true [(p, pageRun va bs.length)]).perform p.loc (bs.take (pageRun va bs.length))).stewardWrite m fuel ((va + pageRun va bs.length) % 2 ^ 50)
          (bs.drop (pageRun va bs.length))

/-- The records of some strands of a core, one after another from %tsave on, and where each stands that could be written. -/
def State.saveAt (s : State) (m : Nat) : Nat → List Nat → State × List (Nat × Nat)
  | _, [] => (s, [])
  | va, k :: ks =>
    let bs := pad64 (s.ctxAt k).saveRecord
    let (s1, whole) := s.stewardWrite m (spanFuel bs.length) va bs
    let (s2, at_) := s1.saveAt m (va + bs.length) ks
    (s2, if whole then (k, va) :: at_ else at_)

/-- The records of a crew's strands, written by the stewards of the cores they stopped on. -/
def State.saveCrew (s : State) (ks : List Nat) : State × List (Nat × Nat) :=
  (List.range 256).foldl (fun x m =>
    match ks.filter fun k => s.coreOf k == m with
    | [] => x
    | own =>
      let (s1, at_) := x.1.saveAt m (bitsOf ((x.1.coreAt m).crGet 0x808) 6 44 * 64) own
      (s1, x.2 ++ at_)) (s, [])

/-! ### Reading a record back (R205, R206) -/

/-- Bytes that the steward of a core reads through its own translation. -/
def State.stewardRead (s : State) (m : Nat) : Nat → Nat → Nat → Option (List Byte × State)
  | 0, _, n => if n = 0 then some ([], s) else none
  | fuel + 1, va, n =>
    if n = 0 then some ([], s)
    else
      match s.resolve (4096 + m) va .read with
      | .error _ => none
      | .ok (p, s1) =>
        let s1 := s1.requestLines m (some (4096 + m)) false [(p, pageRun va n)]
        match s1.stewardRead m fuel ((va + pageRun va n) % 2 ^ 50) (n - pageRun va n) with
        | none => none
        | some (bs, s2) => some (s1.readBytes p.loc (pageRun va n) ++ bs, s2)

/-- Record word i. -/
def recordWord (bs : List Byte) (i : Nat) : W64 := BitVec.ofNat 64 (leNat ((bs.drop (8 * i)).take 8))

/-- Bindings from their number, their targets and their strides. -/
def bindsOf (n t0 t1 : Nat) (s0 s1 : W64) : List (BitVec 5 × W64) := [(BitVec.ofNat 5 t0, s0), (BitVec.ofNat 5 t1, s1)].take n

/-- A level as its eight words give it; the loop buffer, which no record holds, is filled again. -/
def Level.reload (l : Level) (w : Nat → W64) : Level :=
  { l with
    n := w 0, p := w 1, start := (w 2).setWidth 50, stop := (w 3).setWidth 50
    kind := if bitsOf (w 4) 62 2 = 1 then .masked else if bitsOf (w 4) 62 2 = 2 then .staged else .counted
    stages := bitsOf (w 4) 59 3 + 1, mreg := bitsOf (w 4) 56 3
    set := { l.set with binds := bindsOf (bitsOf (w 4) 54 2) (bitsOf (w 4) 49 5) (bitsOf (w 4) 44 5) (w 5) (w 6) }
    words := [] }

/-- The handed levels of a queue replaced; a pass whose entries stand before its level has begun. -/
def reloadHanded : Bool → List Level → List QItem → List QItem
  | _, _, [] => []
  | b, ls, .entry e :: q => .entry e :: reloadHanded (b || e.lvl) ls q
  | b, l :: ls, .level h :: q => .level { h with lvl := if b then { l with p := l.p + 1 } else l } :: reloadHanded false ls q
  | _, [], .level _ :: q => reloadHanded false [] q

/-- What a control register takes from its record word: the fields that a write takes, a type that is assigned, VL up to VLMAX (log 18). -/
def Ctx.reloadCr (c : Ctx) (n : Nat) (v : W64) : Ctx :=
  if n = 0x100 then c.crSet n (BitVec.ofNat 64 (min (bitsOf v 0 14) (vlMax (bitsOf (c.crGet 0x101) 0 5))))
  else if n = 0x101 then if bitsOf v 0 5 ≤ 22 then c.crSet n (low 5 v) else c
  else if n = 0x10A ∨ n = 0x10B then c.crSet n (low 32 v)
  else c.crSet n (crStore n (c.crGet n) v)

/-- The scalar part reloaded over what the record does not hold. -/
def Ctx.reloadScalar (c : Ctx) (w : Nat → W64) : Ctx :=
  let depth := min 6 (bitsOf (w 0) 8 8)
  let levels := (List.range depth).map fun k =>
    let l := (c.allLevels.getD k {}).reload fun i => w (36 + 8 * k + i)
    if k + 1 = depth then
      { l with set := { l.set with first := (w 84).extractLsb' 16 16, last := (w 84).setWidth 16, tags := (w 85).setWidth 48 } }
    else l
  let own := depth - (handedLevels false c.queue).length
  let c1 : Ctx :=
    { c with
      pc := (w 1).setWidth 50, rb := (w 0).extractLsb' 16 4
      g := (List.range 31).foldl (fun g i => Sparse.set 0 g (i + 1) (w (2 + i))) []
      levels := (levels.take own).reverse
      queue := reloadHanded false (levels.drop own) c.queue
      pending :=
        { binds := bindsOf (bitsOf (w 88) 10 2) (bitsOf (w 88) 5 5) (bitsOf (w 88) 0 5) (w 89) (w 90)
          first := (w 86).extractLsb' 16 16, last := (w 86).setWidth 16, tags := (w 87).setWidth 48 } }
  ([0x030, 0x031, 0x032].zipIdx 33 ++ scalarSaved.zipIdx 92).foldl (fun (c : Ctx) (x : Nat × Nat) => c.reloadCr x.1 (w x.2)) c1

/-- An entry with the word and g values of the record, at an address. -/
def Entry.reload (e : Entry) (pc : VA) (word : W32) (g1 g2 : W64) : Entry :=
  if word = e.word then { e with pc := pc, g1 := g1, g2 := g2 }
  else
    match vectorWord word with
    | some v => { e with word := word, m := v.m, pc := pc, g1 := g1, g2 := g2 }
    | none => { e with word := word, m := { op := .refused }, pc := pc, g1 := g1, g2 := g2 }

/-- The kept entries requeued: as many as the record holds, each at its distance from entry 0; none when VALID is 0. -/
def reloadQueue (w : Nat → W64) (first : VA) : Nat → List QItem → List QItem
  | _, [] => []
  | i, .level l :: q => .level l :: reloadQueue w first i q
  | i, .entry e :: q =>
    if (w 128).getLsbD 63 && decide (i ≤ bitsOf (w 128) 56 4) then
      .entry (e.reload ((w 128).setWidth 50 + (e.pc - first)) ((w (129 + 3 * i)).setWidth 32) (w (130 + 3 * i)) (w (131 + 3 * i)))
        :: reloadQueue w first (i + 1) q
    else reloadQueue w first (i + 1) q

/-- LEN of each vector register in a record, at most a register's 2,048 bytes. -/
def recordLen (w : Nat → W64) (r : Nat) : Nat := min 2048 (bitsOf (w (100 + r / 4)) (16 * (r % 4)) 16)

/-- The registers a record holds, and the bytes they take there. -/
def recordRegs (w : Nat → W64) : List Nat := (List.range 32).filter fun r => (w 0).getLsbD (32 + r)
def regsSize (w : Nat → W64) : Nat := (recordRegs w).foldl (fun n r => n + ceilDiv (recordLen w r) 64 * 64) 0

/-- The bytes of the registers that a record holds; every other byte is zero (R257). -/
def reloadRegs (w : Nat → W64) : List Nat → List Byte → Sparse Byte → Sparse Byte
  | [], _, m => m
  | r :: rs, bs, m =>
    reloadRegs w rs (bs.drop (ceilDiv (recordLen w r) 64 * 64)) (pokeBytes m (2048 * r) (bs.take (recordLen w r)))

/-- The vector part reloaded: the mask registers, then the vector registers. -/
def Ctx.reloadVector (c : Ctx) (w : Nat → W64) (masks regs : List Byte) : Ctx :=
  let c1 : Ctx :=
    { c with
      len := (List.range 32).foldl (fun m r => Sparse.set 0 m r (recordLen w r)) []
      vreg := reloadRegs w (recordRegs w) regs [], mreg := pokeBytes [] 0 masks
      tileM := bitsOf (w 126) 0 16, tileN := bitsOf (w 126) 16 16, tileK := bitsOf (w 126) 32 32
      queue := reloadQueue w ((entriesOf c.queue).headD {}).pc 0 c.queue }
  ((0x10A, (w 0) >>> 32) :: (0x101, w 109) :: (vectorSaved.zipIdx 108).map fun x => (x.1, w x.2)).foldl
    (fun (c : Ctx) (x : Nat × W64) => c.reloadCr x.1 x.2) c1

/-- A strand's state as its record gives it, with what no record holds as it was kept; as it was kept, where the record cannot be read or was
not written whole (log 18). -/
def State.loadRecord (s : State) (v : Saved) : Ctx × State :=
  let m := v.ctx.here / 16
  let size := if v.ctx.vec then 0x2600 else 0x320
  match v.record.bind fun va => (s.stewardRead m (spanFuel size) va size).map fun x => (va, x) with
  | none => (v.ctx, s)
  | some (va, bs, s1) =>
    let w := recordWord bs
    let c := v.ctx.reloadScalar w
    if !v.ctx.vec then (c, s1)
    else
      match s1.stewardRead m (spanFuel (regsSize w)) ((va + 0x2600) % 2 ^ 50) (regsSize w) with
      | none => (v.ctx, s)
      | some (rs, s2) => (c.reloadVector w (bs.drop 0x600) rs, s2)

end Sys2Proof.Machine
end

