-- ==== Sys2Proof/Machine/Way.lean ====
section
/-! DEFINITION. Wayfarers: joining and leaving tracts, queries, and the steps of the tract map unit (27_wayfarers R365 to R382). -/

namespace Sys2Proof.Machine

/-! ### WJOIN and WLEAVE (R376) -/

/-- Whether a register is the target of a pending or active loop binding. -/
def Ctx.bindsTarget (c : Ctx) (r : BitVec 5) : Bool :=
  (c.pending.binds.any fun b => b.1 == r) || c.levels.any fun l => l.set.binds.any fun b => b.1 == r

/-- The register checks of WJOIN. -/
def Ctx.joinRefused (c : Ctx) (d a b : BitVec 5) : Bool :=
  c.wayfarer || a == 0 || b == 0 || a == b || d == a || d == b || c.bindsTarget a || c.bindsTarget b

/-- A strand enters the tract of the core it runs on: %wcoord, the record and its copies, the count, and the handle in g[d]. -/
def State.enterTract (s : State) (k d a b x y : Nat) : State :=
  let m := s.coreOf k
  let s1 := s.onCtx k fun c => (c.crSet 0x3C0 (BitVec.ofNat 64 (2 ^ 63 + a * 32 + b))).wr d (BitVec.ofNat 64 k)
  (s1.putRecord m { key := k, job := (s.ctxAt k).job, x := x, y := y }).countIn m (s.who k)

/-- WJOIN (R376). -/
def execWjoin (d a b : BitVec 5) (s : State) : Res :=
  let c := s.me
  if c.vec || isSteward s.cur || c.joinRefused d a b then s.illegal
  else
    let x := (s.rd a).toNat
    let y := (s.rd b).toNat
    match (if x < 2 ^ 16 ∧ y < 2 ^ 16 then (s.coreAt s.myCore).map.host x y else none) with
    | none => (s.giveUpAdmission s.cur).trap .coord 0
    | some m =>
      let w : CoordWrite := { join := true, d := d.toNat, xreg := a.toNat, yreg := b.toNat, x := x, y := y }
      if s.admissionStands x y then
        if m = s.myCore then .next (((s.enterTract s.cur d.toNat a.toNat b.toNat x y).onMe fun c => { c with coordWrite := none }).advance)
        else .next (s.answerAgain.holdCoord { w with admitted := true })
      else
        let s1 := s.giveUpAdmission s.cur
        if m = s.myCore ∧ s1.tractCount m < bitsOf ((s1.coreAt m).crGet 0x3C2) 0 4 then
          .next (s1.enterTract s1.cur d.toNat a.toNat b.toNat x y).advance
        else .next ((s1.askTract s1.cur x y).holdCoord w)

/-- WLEAVE (R376): nothing for a strand that is no wayfarer. -/
def execWleave (s : State) : Res :=
  if s.me.vec then s.illegal else .next (if s.me.wayfarer then s.leaveTract s.cur else s).advance

/-! ### Queries (R374, R377) -/

/-- Checks and translates n bytes that a context accesses, page by page: the runs, or the highest-ranked cause and the address it is at (R194). -/
def State.ctxSpan (s : State) (k : Nat) (acc : Acc) : Nat → Nat → Nat → Except (Cause × Nat) (List (Place × Nat) × State)
  | 0, _, _ => .ok ([], s)
  | fuel + 1, va, n =>
    if n = 0 then .ok ([], s)
    else
      match s.checked k va (pageRun va n) acc with
      | .error c => .error (worstWith (c, va) (s.ctxSpan k acc fuel ((va + pageRun va n) % 2 ^ 50) (n - pageRun va n)))
      | .ok (p, s1) =>
        match s1.ctxSpan k acc fuel ((va + pageRun va n) % 2 ^ 50) (n - pageRun va n) with
        | .error c => .error c
        | .ok (ps, s2) => .ok ((p, pageRun va n) :: ps, s2)

/-- The locations and lengths of some places. -/
def runsOf (ps : List (Place × Nat)) : List (Nat × Nat) := ps.map fun p => (p.1.loc, p.2)

/-- The records of a job that a core holds, in its tract and in its halo, each strand's once. -/
def State.recordsAt (s : State) (m job : Nat) : List WayRecord :=
  let c := s.coreAt m
  (c.records ++ c.halo.filter fun h => !(c.records.any (·.isOf (h.key, h.job)))).filter fun r => r.job == job

/-- |a - b| squared. -/
def sqDiff (a b : Nat) : Nat := (a - b + (b - a)) ^ 2

/-- The squared distance between two records. -/
def WayRecord.dist2 (p q : WayRecord) : Nat := sqDiff p.x q.x + sqDiff p.y q.y

/-- A record put into a list that rises by distance to q and then by handle. -/
def insertNear (q r : WayRecord) : List WayRecord → List WayRecord
  | [] => [r]
  | t :: ts =>
    if r.dist2 q < t.dist2 q ∨ (r.dist2 q = t.dist2 q ∧ r.key < t.key) then r :: t :: ts else t :: insertNear q r ts

/-- The records within a radius of q, nearest first. -/
def nearest (q : WayRecord) (r : Nat) (rs : List WayRecord) : List WayRecord :=
  (rs.filter fun p => p.key != q.key && decide (p.dist2 q ≤ r ^ 2)).foldl (fun l p => insertNear q p l) []

/-- The result word of WNEAR. -/
def nearWord (clamp lost more : Bool) (n : Nat) : W64 :=
  BitVec.ofNat 64 ((if clamp then 2 ^ 63 else 0) + (if lost then 2 ^ 62 else 0) + (if more then 2 ^ 61 else 0) + n)

/-- Stores records of 32 bytes at successive addresses, each as one store; all of them are checked first. -/
def State.storeRecords (s : State) (va : Nat) : List WayRecord → Except (Cause × Nat) State
  | [] => .ok s
  | r :: rs =>
    match s.ctxSpan s.cur .write 2 va 32 with
    | .error c => .error (worstWith c (s.storeRecords ((va + 32) % 2 ^ 50) rs))
    | .ok (ps, s1) =>
      match s1.storeRecords ((va + 32) % 2 ^ 50) rs with
      | .error c => .error c
      | .ok s2 => .ok ((s2.requestLines s2.myCore (some s2.cur) true ps).writeRuns (runsOf ps) r.bytes)

/-- WNEAR (R377). -/
def execWnear (d a b : BitVec 5) (s : State) : Res :=
  if s.me.vec || s.coordDest d then s.illegal
  else
    match s.record? s.myCore s.cur with
    | none => s.illegal
    | some q =>
      let va := ea (s.rd b)
      let r := min (s.rd a).toNat s.haloDist
      let all := nearest q r (s.recordsAt s.myCore s.me.job)
      let n := min all.length (bitsOf (s.me.crGet 0x3C4) 0 7)
      if va % 8 ≠ 0 then s.trapAt .misalign va
      else
        match s.storeRecords va (all.take n) with
        | .error c => s.trapAt c.1 c.2
        | .ok s1 =>
          s1.done d (nearWord (decide (s.haloDist < (s.rd a).toNat)) (!(s.coreAt s.myCore).lost.isEmpty) (decide (n < all.length)) n)

/-- WPUB (R377). -/
def execWpub (a : BitVec 5) (s : State) : Res :=
  if s.me.vec then s.illegal
  else
    match s.record? s.myCore s.cur with
    | none => s.illegal
    | some q =>
      let va := ea (s.rd a)
      if va % 8 ≠ 0 then s.trapAt .misalign va
      else
        match s.ctxSpan s.cur .read 2 va 24 with
        | .error c => s.trapAt c.1 c.2
        | .ok (ps, s0) =>
          let s1 := s0.requestLines s0.myCore (some s0.cur) false ps
          let bs := s0.readRuns (runsOf ps)
          let w (i : Nat) : W64 := BitVec.ofNat 64 (leNat ((bs.drop (8 * i)).take 8))
          .next (s1.putRecord s1.myCore { q with u1 := w 0, u2 := w 1, u3 := w 2 }).advance

/-- WGET (R377). -/
def execWget (d a b : BitVec 5) (s : State) : Res :=
  if s.me.vec || s.coordDest d then s.illegal
  else
    let va := ea (s.rd b)
    if va % 8 ≠ 0 then s.trapAt .misalign va
    else
      match (s.recordsAt s.myCore s.me.job).find? fun r => r.key == (s.rd a).toNat % 4096 with
      | none => s.done d (status 7)
      | some r =>
        match s.storeRecords va [r] with
        | .error c => s.trapAt c.1 c.2
        | .ok s1 => s1.done d (r.words.headD 0)

/-- The word WTRACT reads (R378). -/
def State.tractWord (s : State) (sel : W64) : W64 :=
  let i := bitsOf sel 0 5
  let c := bitsOf sel 5 4
  if 16 < i then status 6
  else if sel.getLsbD 9 then BitVec.ofNat 64 (s.way.map.x i)
  else BitVec.ofNat 64 (s.way.map.y c i + if i ≤ 15 then s.tractCount (16 * i + c) % 16 * 2 ^ 32 else 0)

/-- WTRACT (R378). -/
def execWtract (d a : BitVec 5) (s : State) : Res :=
  if s.me.vec || s.coordDest d then s.illegal else s.done d (s.tractWord (s.rd a))

/-! ### The tract map unit (R371, R372, R381) -/

/-- %waycap of a core. -/
def State.wayCap (s : State) (m : Nat) : Nat := bitsOf ((s.coreAt m).crGet 0x3C2) 0 4

/-- A wayfarer that counts in a full tract, or the migrant, as a candidate for a hand-over (R372). -/
structure Candidate where
  who : Nat × Nat
  y : Nat
  /-- it may be handed over, or is the migrant -/
  moves : Bool
deriving DecidableEq, Repr, Inhabited

/-- Whether a wayfarer's strand is running. -/
def State.runs (s : State) (w : Nat × Nat) : Bool := s.hasCtx w.1 && (s.ctxAt w.1).job == w.2

/-- A wayfarer's state, whether it runs or is kept with its pre-empted crew. -/
def State.anyCtx (s : State) (w : Nat × Nat) : Ctx :=
  if s.runs w then s.ctxAt w.1
  else
    match (s.job? w.2).bind fun j => j.saved.find? fun v => v.key == w.1 with
    | some v => v.ctx
    | none => s.ctxAt w.1

/-- Where a wayfarer that counts in a tract lies: its record, or where it is to be. -/
def State.wayY (s : State) (w : Nat × Nat) : Nat :=
  let here := match s.wayRecord ((s.anyCtx w).here / 16) w with | some r => r.y | none => 0
  match (s.anyCtx w).coordWrite with
  | some p => if p.admitted then p.y else here
  | none => here

/-- Whether a wayfarer's crew is running and it is not on its way already. -/
def State.canHandOver (s : State) (w : Nat × Nat) : Bool :=
  let c := s.ctxAt w.1
  s.runs w && c.handover.isNone
    && (match c.hold with | .migrate _ => false | _ => true)
    && (match c.coordWrite with | some p => !p.admitted | none => true)
    && match s.job? w.2 with | some j => j.state == .running | none => false

/-- The candidates of a rebalance of D for a migrant. -/
def State.candidates (s : State) (dst : Nat) (r : TractReq) : List Candidate :=
  ((s.way.counts.filter fun p => p.1 == dst && p.2 != s.who r.key).map fun p =>
      ({ who := p.2, y := s.wayY p.2, moves := s.canHandOver p.2 } : Candidate))
    ++ [{ who := s.who r.key, y := r.y, moves := true }]

/-- A candidate put into a list that rises by distance to the boundary b, and then by handle. -/
def insertByBoundary (b : Nat) (c : Candidate) : List Candidate → List Candidate
  | [] => [c]
  | t :: ts =>
    let dc := c.y - b + (b - c.y)
    let dt := t.y - b + (b - t.y)
    if dc < dt ∨ (dc = dt ∧ c.who.1 < t.who.1) then c :: t :: ts else t :: insertByBoundary b c ts

/-- The boundary that the first k of some ordered candidates give, for a north or a south hand-over. -/
def newBoundary (north : Bool) (taken : List Candidate) : Nat :=
  if north then taken.foldl (fun v c => max v c.y) 0 + 1 else taken.foldl (fun v c => min v c.y) 65536

/-- Whether a boundary carries a candidate into the neighbour. -/
def carries (north : Bool) (b : Nat) (c : Candidate) : Bool := if north then decide (c.y < b) else decide (b ≤ c.y)

/-- The largest k up to a bound whose boundary carries no candidate that is not among the first k. -/
def largestClean (north : Bool) (cs : List Candidate) : Nat → Nat
  | 0 => 0
  | k + 1 =>
    if (cs.drop (k + 1)).any (carries north (newBoundary north (cs.take (k + 1)))) then largestClean north cs k else k + 1

/-- A hand-over of D to a neighbour that can take it: the new boundary and the wayfarers it carries (R372, steps 1 to 4). -/
def State.tryHandOver (s : State) (dst nb : Nat) (r : TractReq) : Option (Nat × List Candidate) :=
  let north := decide (nb < dst)
  let col := dst % 16
  let b := s.way.map.y col (if north then dst / 16 else dst / 16 + 1)
  let nD := s.tractCount dst
  let nN := s.tractCount nb
  let cs := (s.candidates dst r).foldl (fun l c => insertByBoundary b c l) []
  let k := largestClean north cs (min ((nD + 1 - nN + 1) / 2) cs.length)
  let nbd := newBoundary north (cs.take k)
  if 1 ≤ k ∧ nN + k ≤ s.wayCap nb ∧ k ≤ (s.openSlots nb).length ∧ (cs.take k).all (·.moves) then some (nbd, cs.take k) else none

/-- The vertical neighbours of a tract: the one with fewer wayfarers first, the north one on a tie. -/
def State.verticals (s : State) (dst : Nat) : List Nat :=
  let n := if 16 ≤ dst then [dst - 16] else []
  let t := if dst < 240 then [dst + 16] else []
  match n, t with
  | [a], [b] => if s.tractCount b < s.tractCount a then [b, a] else [a, b]
  | _, _ => n ++ t

/-- The boundary between two tracts of one column set. -/
def TractMap.setY (m : TractMap) (col i v : Nat) : TractMap := { m with yb := m.yb.set (17 * col + i) v }

/-- A place reserved for a wayfarer, and no other. -/
def State.keepPlace (s : State) (place : Nat) (w : Nat × Nat) : State :=
  { s with way := { s.way with slots := (s.way.slots.filter fun p => p.2 != w) ++ [(place, w)] } }

/-- A slot of a core reserved for a wayfarer: its origin slot there, or an open one, which one being free (R371, log 9); the next one that is left
where a rebalance makes room in the tract and none is open yet, DEDUCED (log 59). -/
def State.reserveSlot (s : State) (m k : Nat) : State := (s.keepPlace ((s.placeFor k m).getD (4096 + m)) (s.who k)).freshen 1

/-- A wayfarer admitted to a tract: it counts there, and a slot is its own (R371). -/
def State.admitTo (s : State) (m k : Nat) : State :=
  let s1 := (s.countIn m (s.who k)).onCtx k fun c => { c with coordWrite := c.coordWrite.map fun w => { w with admitted := true } }
  if m = s.coreOf k then s1 else s1.reserveSlot m k

/-- The unit's map changed: every core's copy is to follow (R382). -/
def State.setMap (s : State) (t : TractMap) : State :=
  { s with way := { s.way with map := t, version := s.way.version + 1, updates := List.range 256 } }

/-- Some cores show their counts as they are until their copies of the map change (R372, step 5). -/
def State.showCounts (s : State) (ms : List Nat) : State :=
  ms.foldl (fun s m => s.onCore m fun c => { c with shown := c.shown.or (some (s.tractCount m)) }) s

/-- The hand-over made: the boundary moves, and each wayfarer it carries counts in the neighbour (R372, step 5). -/
def State.handOverTo (s : State) (dst nb : Nat) (r : TractReq) (bd : Nat) (taken : List Candidate) : State :=
  let i := if nb < dst then dst / 16 else dst / 16 + 1
  let s1 := (s.showCounts [dst, nb, s.coreOf r.key]).setMap (s.way.map.setY (dst % 16) i bd)
  let s2 := taken.foldl (fun s c =>
    if c.who.1 = r.key then s
    else ((s.countIn nb c.who).reserveSlot nb c.who.1).onCtx c.who.1 fun x => { x with handover := some s.way.version }) s1
  s2.admitTo (if taken.any fun c => c.who.1 == r.key then nb else dst) r.key

/-- The tract a request is for, under the unit's map. -/
def State.wantedTract (s : State) (r : TractReq) : Nat := (s.way.map.host r.x r.y).getD 0

/-- The admission of a request, if room is there or can be made, or the wayfarer counts there already (R371, step 3). -/
def State.tryAdmit (s : State) (r : TractReq) : Option State :=
  let dst := s.wantedTract r
  let here := s.coreOf r.key
  if s.countsIn (s.who r.key) = some dst
      ∨ (s.tractCount dst < s.wayCap dst ∧ (dst = here ∨ dst = r.key / 16 ∨ s.openSlots dst ≠ [])) then some (s.admitTo dst r.key)
  else
    (s.verticals dst).findSome? fun nb =>
      match s.tryHandOver dst nb r with
      | some (bd, taken) => some (s.handOverTo dst nb r bd taken)
      | none => none

/-- An answer sent. -/
def State.answer (s : State) (k : Nat) : State := { s with way := { s.way with answers := s.way.answers ++ [k] } }

/-- The waiting requests for one tract and its vertical neighbours tried again, in arrival order (R371, step 4). -/
def State.retryTract (s : State) (t : Nat) : State :=
  s.way.waiting.foldl (fun s r =>
    let dst := s.wantedTract r
    if dst = t ∨ dst = t + 16 ∨ dst + 16 = t then
      match s.tryAdmit r with
      | some s1 => { s1 with way := { s1.way with waiting := s1.way.waiting.filter fun q => q.key != r.key } }.answer r.key
      | none => s
    else s) s

/-- Whether a request reaches the unit ahead of another: earlier, or in the same cycle from a lower core (R366). -/
def State.arrivesFirst (s : State) (a b : TractReq) : Bool :=
  decide (a.at_ < b.at_) || (a.at_ == b.at_ && decide (s.coreOf a.key < s.coreOf b.key))

/-- The first of the requests that have reached the unit. -/
def State.nextRequest (s : State) : Option TractReq :=
  (s.way.requests.filter fun r => decide (r.at_ ≤ s.now)).foldl (fun b r =>
    match b with
    | none => some r
    | some t => if s.arrivesFirst r t then some r else some t) none

/-- One request served: admitted, or left waiting; either way it is answered. -/
def State.serveTract (s : State) (r : TractReq) : State :=
  let s1 : State := { s with way := { s.way with requests := s.way.requests.filter fun q => q.key != r.key } }
  match s1.tryAdmit r with
  | some s2 => s2.answer r.key
  | none => { s1 with way := { s1.way with waiting := s1.way.waiting ++ [r] } }.answer r.key

/-- Whether a sequence of boundaries never decreases, up to 65,536 (R365). -/
def risingBounds : List Nat → Bool
  | [] => true
  | [v] => decide (v ≤ 65536)
  | v :: w :: vs => decide (v ≤ w) && risingBounds (w :: vs)

/-- Whether boundaries form a tract map (R365). -/
def mapValid (xb yb : List Nat) : Bool :=
  xb.length == 17 && yb.length == 272 && risingBounds xb && (List.range 16).all fun c => risingBounds ((yb.drop (17 * c)).take 17)

/-- The steward loads another map from the cell configuration, while no wayfarer exists (R365). -/
def State.loadMap (s : State) : State :=
  match s.dev.tables.cells with
  | none => s
  | some (xb, yb) => if mapValid xb yb && s.way.counts.isEmpty then s.setMap { xb := xb, yb := yb } else s

/-- TRACT_MAP_REQUEST (R381): tracts that a wayfarer has left are tried again first; otherwise the oldest request is served. A step scheduled with
index 1 is the steward's load of a map, DESIGN CHOICE (log 12). -/
def execTractMapRequest (s : State) : Res :=
  if s.input.index = 1 then .next s.loadMap
  else
    match s.way.left with
    | t :: ts => .next ({ s with way := { s.way with left := ts } }.retryTract t)
    | [] =>
      match s.nextRequest with
      | some r => .next (s.serveTract r)
      | none => .next s

/-! ### Moving (R370, R371, R372, R140) -/

/-- A held coordinate write, or WJOIN, of a strand that runs in the tract it asked for completes: the instruction retires here. -/
def State.completeCoord (s : State) (k : Nat) (w : CoordWrite) : State :=
  let s1 := s.onCtx k fun c => { c with coordWrite := none, hold := .ready }
  let s2 := if w.join then s1.enterTract k w.d w.xreg w.yreg w.x w.y else (s1.moveRecord k w.x w.y).onCtx k fun c => c.wr w.d w.v
  s2.onCtx k Ctx.advance

/-- A strand's reservation of a slot ended. -/
def State.unreserve (s : State) (k : Nat) : State :=
  { s with way := { s.way with slots := s.way.slots.filter fun p => p.2 != s.who k } }

/-- Where an admitted or handed-over wayfarer goes: the place reserved for it, until it arrives or leaves (R371); one that waits for the next slot
of its core that is left takes the first. -/
def State.wayPlace (s : State) (k : Nat) : Option Nat :=
  match s.way.slots.find? fun p => p.2 == s.who k with
  | none => none
  | some p => if p.1 < 4096 then some p.1 else (s.bareSlots (p.1 - 4096)).head?.map fun i => (p.1 - 4096) * 16 + i

/-- A wayfarer begins to migrate to its place. -/
def State.setOut (s : State) (k place : Nat) : State := (s.keepPlace place (s.who k)).depart k place

/-- TRACT_MAP_ANSWER acts on a strand: an admitted one begins to migrate, or completes at once where it already runs; one that waits begins
to count %waywait with its first answer (R371, R381). -/
def State.answered (s : State) (k : Nat) : State :=
  let s1 : State := { s with way := { s.way with answers := s.way.answers.filter (· != k) } }
  match (s1.ctxAt k).coordWrite with
  | none => s1
  | some w =>
    if !w.admitted then
      s1.onCtx k fun c => { c with coordWrite := some { w with answered := true }, since := if w.answered then c.since else s.now }
    else if s1.countsIn (s1.who k) = some (s1.coreOf k) then (s1.unreserve k).completeCoord k w
    else
      match s1.wayPlace k with
      | some place => s1.setOut k place
      | none => s

/-- An answer that can act now: its strand waits, its accesses have been acknowledged (R120), and a place for it is free. -/
def State.answerReady (s : State) (k : Nat) : Bool :=
  match (s.ctxAt k).coordWrite with
  | none => true
  | some w => !w.admitted || s.countsIn (s.who k) == some (s.coreOf k) || ((s.wayPlace k).isSome && !(s.unacknowledged k))

/-- TRACT_MAP_ANSWER (R381). -/
def execTractMapAnswer (s : State) : Res :=
  let k := s.input.key.toNat
  if s.way.answers.contains k then .next (s.answered k) else .next s

/-- A record goes to another host with its wayfarer, which counts as a change of it (R382): the new host sends it to the halos it enters or keeps,
and the old one its removal to those it leaves. -/
def State.moveHost (s : State) (o m : Nat) (r : WayRecord) : State :=
  let new := haloCores (s.coreAt m).map s.haloDist m r
  (((s.takeRecord o (r.key, r.job)).setRecord m r new).tell o r [] (without r.copies new)).tell m r new []

/-- A strand arrives in a slot of another core: its record moves with it, its loop buffer is filled again, and what it was held for goes on there
(R140, R370, R382). -/
def State.arriveAt (s : State) (k place : Nat) : State :=
  let o := s.coreOf k
  let m := place / 16
  let s0 := if o = m then s else s.receiveMsg o m
  let s1 := (s0.onCtx k fun c =>
    { c with here := place, hold := .ready, handover := none, levels := c.levels.map fun l => { l with words := [] } }).unreserve k
  let s2 := match s0.record? o k with | some r => s1.moveHost o m r | none => s1
  match (s.ctxAt k).coordWrite with
  | some w => if w.admitted && s2.countsIn (s2.who k) == some m then s2.completeCoord k w else s2
  | none => s2

/-- Where a migrating strand is going. -/
def Ctx.bound (c : Ctx) : Option Nat := match c.hold with | .migrate place => some place | _ => none

/-- The messages of a strand's state on their way from one core to another: its own, and any of a strand of its origin that was cut on the way. -/
def State.statesOn (s : State) (k src dst : Nat) : Nat :=
  (s.mesh.flight.filter fun m => m.kind == .state && m.key == some k && m.src == src && m.dst == dst).length

/-- Whether a migrating strand's own state is the next message of its pair. -/
def State.arrives (s : State) (k place : Nat) : Bool :=
  s.nextMsgIs .state (some k) (s.coreOf k) (place / 16) && decide (s.statesOn k (s.coreOf k) (place / 16) ≤ 1)

/-- The state of a strand that was cut on its way, next of its pair: it arrives as every message does (R116), and no strand goes on. -/
def State.strayState (s : State) (k : Nat) : Option Message :=
  s.mesh.flight.find? fun m =>
    m.kind == .state && m.key == some k && s.nextMsgIs .state (some k) m.src m.dst
      && match (s.ctxAt k).bound with
         | some p => s.coreOf k != m.src || p / 16 != m.dst || decide (1 < s.statesOn k m.src m.dst)
         | none => true

/-- MIGRATION (R140): a migrating strand's state arrives, or that of one that was cut on its way. -/
def execMigration (s : State) : Res :=
  let k := s.input.key.toNat
  match (s.ctxAt k).bound.filter (s.arrives k) with
  | some place => .next ((s.arriveAt k place).tidyStalls (s.coreOf k))
  | none => .next (match s.strayState k with | some m => s.receiveMsg m.src m.dst | none => s)

/-- Whether a handed-over wayfarer may begin to migrate: its host's copy has changed, it stands at a pre-emption point, and a place is free (R372,
R381). -/
def State.handOverReady (s : State) (k : Nat) : Bool :=
  s.handed k && s.standsAt k && !(s.unacknowledged k) && (s.wayPlace k).isSome

/-- HANDOVER (R372): its held instruction executes again on the new core. -/
def execHandover (s : State) : Res :=
  let k := s.input.key.toNat
  if s.handOverReady k then
    match s.wayPlace k with
    | some place => .next ((s.unhold k).setOut k place)
    | none => .next s
  else .next s

/-- TRACT_FULL is due: the request still waits, %waywait cycles after its first answer (R371, step 5). -/
def State.tractFullDue (s : State) (k : Nat) : Bool :=
  let c := s.ctxAt k
  let lim := bitsOf (c.crGet 0x3C5) 0 32
  c.hold == .coord && lim != 0 && decide (c.since + lim ≤ s.now)
    && match c.coordWrite with | some w => w.answered && !w.admitted | none => false

/-- TRACT_FULL (R371): the request is withdrawn and the strand traps at the held word. -/
def execTractFull (s : State) : Res :=
  let k := s.input.key.toNat
  if s.tractFullDue k then
    let s1 := s.onCtx k fun c => { c with coordWrite := none }
    .next (s1.raise { key := k, cause := .tractFull, tepc := (s.ctxAt k).pc })
  else .next s

/-! ### Map copies and halos (R372, R373, R382) -/

/-- A core's copy of the map follows the unit's, and the copies of each record it hosts follow it (R382). -/
def State.updateMap (s : State) (m : Nat) : State :=
  let s1 : State := { s with way := { s.way with updates := s.way.updates.filter (· != m) } }
  (s1.onCore m fun c => { c with map := s.way.map, mapVersion := s.way.version, shown := none }).reviseCore m

/-- MAP_COPY_UPDATE (R382). -/
def execMapCopyUpdate (s : State) : Res :=
  let m := s.input.core.toNat
  if s.way.updates.contains m then .next (s.updateMap m) else .next s

/-- A change lands in a halo: at most 128 records, and LOST while a dropped one is neither removed nor copied again (R373). -/
def Core.takeHalo (c : Core) (h : HaloMsg) : Core :=
  let w := (h.record.key, h.record.job)
  let rest := c.halo.filter fun r => !(r.isOf w)
  if h.remove then { c with halo := rest, lost := c.lost.filter (· != w) }
  else if rest.length < 128 then { c with halo := rest ++ [h.record], lost := c.lost.filter (· != w) }
  else { c with lost := (c.lost.filter (· != w)) ++ [w] }

/-- The oldest change on its way to a core's halo, once its message is the next of its pair (R119): changes land in the order in which they were
made, since each lands a few cycles after (R382, log 59). -/
def State.haloNext (s : State) (m : Nat) : Option HaloMsg :=
  (s.way.halo.find? fun h => h.dst == m).filter fun h => s.nextMsgIs .halo (some h.record.key) h.src m

/-- HALO_UPDATE (R373): the oldest change on its way to a core's halo lands. -/
def execHaloUpdate (s : State) : Res :=
  let m := s.input.core.toNat
  match s.haloNext m with
  | none => .next s
  | some h =>
    let s1 := (s.receiveMsg h.src m).onCore m fun c => c.takeHalo h
    .next { s1 with way := { s1.way with halo := s1.way.halo.erase h } }

end Sys2Proof.Machine
end

