-- ==== Sys2Proof/Machine/Jobs.lean ====
section
/-! DEFINITION. Job records and their acceptance (14_sched_model R211 to R214, R419). -/

namespace Sys2Proof

/-- Eight words as a record, and the record's fields (R211). -/
def JobRecord.ofWords (w : Nat → BitVec 64) : JobRecord := ⟨w 0, w 1, w 2, w 3, w 4, w 5, w 6, w 7⟩

end Sys2Proof

namespace Sys2Proof.Machine

def entryOf (r : JobRecord) : VA := r.w0.setWidth 50
def sizeOf_ (r : JobRecord) : Nat := bitsOf r.w2 0 9
/-- 0 PACKED, 1 SPREAD, 2 LIST -/
def modeOf (r : JobRecord) : Nat := bitsOf r.w2 9 3
def wantsCrossing (r : JobRecord) : Bool := r.w2.getLsbD 12
def wantsVec (r : JobRecord) : Bool := r.w2.getLsbD 13
def baseOf (r : JobRecord) : Nat := bitsOf r.w2 14 8
def listVa (r : JobRecord) : Nat := bitsOf r.w2 14 50
/-- 0 DROP, 1 CUT, 2 FALLBACK -/
def policyOf (r : JobRecord) : Nat := bitsOf r.w4 0 2
/-- GRACE in ns -/
def graceOf (r : JobRecord) : Nat := bitsOf r.w4 2 18 * 16
def fallbackVa (r : JobRecord) : Nat := bitsOf r.w4 20 44 * 64
def caddrOf (r : JobRecord) : Nat := bitsOf r.w5 17 47 * 8
def scopeOf (r : JobRecord) : Nat := bitsOf r.w5 0 3
def treeOf (r : JobRecord) : Nat := bitsOf r.w6 32 32
def prioOf (r : JobRecord) : Nat := bitsOf r.w7 8 8
def jqOf (r : JobRecord) : Nat := bitsOf r.w7 4 4
def eclassOf (r : JobRecord) : Nat := bitsOf r.w7 0 4

/-- Whether a core stands twice in a list. -/
def repeats : List Nat → Bool
  | [] => false
  | m :: ms => ms.contains m || repeats ms

/-- Whether a record is valid, with the list of its LIST mode (R214): SPREAD and PACKED leave the rest of PLACE 0. -/
def recordValid (r : JobRecord) (list : List Nat) : Bool :=
  bitsOf r.w0 50 14 == 0 && bitsOf r.w0 0 2 == 0
    && decide (1 ≤ sizeOf_ r) && decide (sizeOf_ r ≤ 256) && decide (modeOf r ≤ 2)
    && (modeOf r != 0 || bitsOf r.w2 14 50 == 0) && (modeOf r != 1 || bitsOf r.w2 22 42 == 0)
    && decide (policyOf r ≤ 2) && (policyOf r != 2 || fallbackVa r != 0)
    && bitsOf r.w5 3 14 == 0 && (caddrOf r == 0 || (decide (1 ≤ scopeOf r) && decide (scopeOf r ≤ 4)))
    && bitsOf r.w7 16 6 == 0
    && (modeOf r != 1 || decide (sizeOf_ r + baseOf r ≤ 256))
    && !(wantsVec r && modeOf r == 2 && repeats list)

/-- The record of 64 bytes. -/
def recordOf (bs : List Byte) : JobRecord :=
  .ofWords fun i => BitVec.ofNat 64 (leNat ((bs.drop (8 * i)).take 8))

/-- The byte list of a LIST record, read through the job's root (R213, R419); nothing for the other modes. -/
def State.readList (s : State) (m : Nat) (root : W64) (r : JobRecord) : Option (List Nat × State) :=
  if modeOf r = 2 ∧ 1 ≤ sizeOf_ r ∧ sizeOf_ r ≤ 256 then
    match s.engineRead m root (listVa r) (sizeOf_ r) with
    | .ok (bs, s1) => some (bs.map (·.toNat), s1.engineRequests m schedulerStop root false (enginePieces (spanFuel (sizeOf_ r)) (listVa r) (sizeOf_ r)))
    | .error _ => none
  else some ([], s)

/-- A record made ready for acceptance, unless it is invalid. -/
def State.prepare (s : State) (m : Nat) (root : W64) (r : JobRecord) : Option (List Nat × State) :=
  match s.readList m root r with
  | some (list, s1) => if recordValid r list then some (list, s1) else none
  | none => none

/-- The jobs whose record the scheduler has not freed. -/
def State.unfinished (s : State) : List Job := s.sched.jobs

/-- Whether an id may be assigned: not 0, no unfinished job or tree has it, nor a finished job of a tree that goes on (R212, log 8). -/
def State.idFree (s : State) (id : Nat) : Bool :=
  id != 0 && !(s.sched.jobs.any fun j => j.id == id || j.tree == id) && !(s.sched.past.any fun p => p.2 == id)

/-- The id the scheduler assigns: the first free one from a free value on, below 2^31, since JDONE returns it with bit 63 = 0 (R212, R231,
log 8). -/
def State.newId (s : State) : Nat :=
  let b := (Config.jobId s.free).toNat
  let n := 2 * s.sched.jobs.length + s.sched.past.length + 2
  match (List.range n).find? fun i => s.idFree ((b + i) % 2 ^ 31) with
  | some i => (b + i) % 2 ^ 31
  | none => 0

/-- A job and its ancestors, nearest first: those of a job that it spawns (R22). -/
def State.lineage (s : State) (p : Nat) : List Nat :=
  if p = 0 then [] else p :: (match s.job? p with | some j => j.ancestors | none => [])

/-- A job accepted as QUEUED, with its parent and the parent's ancestors; its id is what newId gives (R212, R216, R419). A record's TREE of 0 takes the tree given, or opens one. -/
def State.accept (s : State) (r : JobRecord) (root : W64) (list above : List Nat) (tree : Nat) : State :=
  let id := s.newId
  let t := if treeOf r ≠ 0 then treeOf r else if tree ≠ 0 then tree else id
  let r1 : JobRecord := { r with
    w3 := if r.w3 = 0 then BitVec.ofNat 64 (2 ^ 64 - 1) else r.w3
    w6 := BitVec.ofNat 64 (treeOf r * 2 ^ 32 + above.headD 0) }
  let j : Job :=
    { id := id, record := r1, tree := t, parent := above.headD 0, ancestors := above, root := root, list := list, order := s.sched.nextOrder }
  { s with sched := { s.sched with jobs := s.sched.jobs ++ [j], nextOrder := s.sched.nextOrder + 1, choosing := true } }.freshen 1

/-- The scheduler holds as many unfinished jobs as it can (R231). -/
def State.schedFull (s : State) : Bool := decide (16384 ≤ s.unfinished.length)

/-! ### Queues and channels as the scheduler keeps them (R234 to R239, R244) -/

def State.queueAt (s : State) (q : Nat) : HwQueue := Sparse.get {} s.sched.queues q

def State.setQueue (s : State) (q : Nat) (x : HwQueue) : State :=
  { s with sched := { s.sched with queues := Sparse.put s.sched.queues q x } }

/-- The descriptor of a queue (R234). -/
def State.queueDesc (s : State) (q : Nat) : QueueDesc := s.dev.tables.queues.getD q {}

def queueOn (d : QueueDesc) : Bool := d.w1.getLsbD 32
def ringCap (d : QueueDesc) : Nat := bitsOf d.w1 0 17
/-- Where ring record i sits. -/
def ringSlot (d : QueueDesc) (i : Nat) : Nat := bitsOf d.w0 12 36 * 4096 + 64 * (i % max (ringCap d) 1)

/-- chip(q) + ring(q). -/
def HwQueue.count (q : HwQueue) : Nat := q.chip.length + q.ring.length

def HwQueue.spilled (q : HwQueue) : Bool := !q.ring.isEmpty

/-- The scheduler's access to a record in a ring, at its L2 slice (R118). -/
def State.askRing (s : State) (loc : Nat) (wr : Bool) : State :=
  s.ask schedulerStop (edge (l2Slice loc)) loc wr none (if wr then 2 ^ 64 - 1 else 0)

/-- A push, unless there is no room (R235). -/
def State.push (s : State) (q : Nat) (rec : List Byte) : Option State :=
  let x := s.queueAt q
  let d := s.queueDesc q
  if x.spilled ∨ 32 ≤ x.chip.length then
    if ringCap d ≤ x.ring.length then none
    else some (((s.askRing (ringSlot d (x.head + x.ring.length)) true).perform (ringSlot d (x.head + x.ring.length)) rec).setQueue q { x with ring := x.ring ++ [rec] })
  else some (s.setQueue q { x with chip := x.chip ++ [rec] })

/-- A refill: the ring's oldest record moves to the chip part. A record whose bytes a store has changed meanwhile is undefined (R234, R244,
log 17). -/
def State.refill (s : State) (q : Nat) : State :=
  let x := s.queueAt q
  let d := s.queueDesc q
  match x.ring with
  | [] => s
  | r :: rs =>
    let now := s.readBytes (ringSlot d x.head) 64
    let bs := if now = r then r else s.freeBytes 64
    ((s.askRing (ringSlot d x.head) false).setQueue q { x with chip := x.chip ++ [bs], ring := rs, head := (x.head + 1) % max (ringCap d) 1 }).freshen 64

/-- The route run and stage of a strand's job. -/
def State.stageOf (s : State) (k : Nat) : Option (RouteRun × Nat) :=
  match s.job? (s.ctxAt k).job with
  | none => none
  | some j =>
    match j.stage with
    | none => none
    | some (r, i) => (s.sched.routes.find? fun x => x.id == r).map fun x => (x, i)

def RouteRun.chan (r : RouteRun) (i : Nat) : Channel := r.channels.getD i {}

/-- Whether a stage of a route has finished. -/
def RouteRun.gone (r : RouteRun) (i : Nat) : Bool := (r.statuses.getD i none).isSome

/-- One channel of a route changed. -/
def State.onChannel (s : State) (r i : Nat) (f : Channel → Channel) : State :=
  { s with sched := { s.sched with routes := s.sched.routes.map fun x =>
      if x.id == r then { x with channels := x.channels.set i (f (x.chan i)) } else x } }

/-- Room on a channel (R238). -/
def Channel.room (c : Channel) : Bool := decide (c.records.length + c.taken < c.allowance)

/-- What a CHSEND leaves and answers. -/
def State.chanSend (s : State) (r : RouteRun) (i : Nat) (rec : List Byte) : State × W64 :=
  let c := r.chan i
  (s.onChannel r.id i fun c => { c with records := c.records ++ [rec] },
    BitVec.ofNat 64 (c.allowance - c.records.length - c.taken - 1))

/-- What a CHRECV leaves and answers, with the record stored at a location. -/
def State.chanTake (s : State) (r : RouteRun) (i loc : Nat) (rec : List Byte) : State × W64 :=
  ((s.onChannel r.id i fun c => { c with records := c.records.drop 1, taken := c.taken + 1 }).perform loc rec,
    BitVec.ofNat 64 ((r.chan i).taken + 1))

end Sys2Proof.Machine
end

