-- ==== Sys2Proof/Machine/Sched.lean ====
section
/-! DEFINITION. The scheduler's instructions, and the steps that complete what they leave held (15_sched_isa R230 to R244). A request is served
at its issue (log 3). -/

namespace Sys2Proof.Machine

/-! ### What the scheduler holds (R233, R236, R239) -/

/-- Whether an id names an unfinished child of a job. -/
def State.childRuns (s : State) (job child : Nat) : Bool :=
  job != 0 && s.unfinished.any fun j => j.id == child && j.parent == job

/-- The value retained for a child, if there is one (R233). -/
def State.retainedFor (s : State) (job child : Nat) : Option W64 :=
  match s.job? job with
  | none => none
  | some j => (j.retained.find? fun p => p.1 == child).map (·.2)

/-- What JDONE answers once its child no longer runs, and the state with the value dropped from retention. -/
def State.collect (s : State) (job child : Nat) : State × W64 :=
  match s.retainedFor job child with
  | some v => (s.onJob job fun j => { j with retained := j.retained.filter fun p => p.1 != child }, v)
  | none => (s, status 7)

/-- A pop of the chip part's oldest record, stored at a location. -/
def State.pop (s : State) (q loc : Nat) : State :=
  let x := s.queueAt q
  (s.setQueue q { x with chip := x.chip.drop 1 }).perform loc (x.chip.headD [])

/-- A held strand's instruction retires with its result. -/
def State.release (s : State) (k d : Nat) (v : W64) : State :=
  s.onCtx k fun c => ({ c.wr d v with hold := .ready } : Ctx).advance

/-- The scheduler answers a held operation: a SYS message to the strand's core, and the instruction retires (R118). -/
def State.answerHeld (s : State) (k d : Nat) (v : W64) : State := (s.send .sys schedulerStop (s.coreOf k)).release k d v

/-- The oldest operation of a kind that a queue holds. -/
def HwQueue.oldest (q : HwQueue) (kind : Nat) : Option HeldOp := q.held.find? fun h => h.kind == kind

/-- An operation no longer held at its queue. -/
def State.unqueue (s : State) (q : Nat) (h : HeldOp) : State :=
  s.setQueue q { s.queueAt q with held := (s.queueAt q).held.filter fun x => x.key != h.key }

/-- The oldest held push or pop of a queue completes, if it can. -/
def State.serveQueue (s : State) (q : Nat) : Option State :=
  let x := s.queueAt q
  match x.oldest 1, x.chip with
  | some h, _ :: _ =>
    let s1 := (s.pop q h.loc).unqueue q h
    some (s1.answerHeld h.key h.d (BitVec.ofNat 64 (s1.queueAt q).count))
  | _, _ =>
    match x.oldest 0 with
    | none => none
    | some h =>
      match s.push q h.record with
      | none => none
      | some s1 => some ((s1.unqueue q h).answerHeld h.key h.d (BitVec.ofNat 64 (s1.queueAt q).count))

/-- An operation no longer held. -/
def State.unheld (s : State) (k : Nat) : State :=
  { s with sched := { s.sched with held := s.sched.held.filter fun x => x.key != k } }

/-- Whether an operation is the oldest of its kind on its channel. -/
def State.firstHeld (s : State) (h : HeldOp) (r i : Nat) : Bool :=
  match s.sched.held.find? fun x => x.kind == h.kind && (match s.stageOf x.key with | some (y, j) => y.id == r && j == i | none => false) with
  | some x => x.key == h.key
  | none => false

/-- A held channel operation or JDONE completes, if it can. -/
def State.serveHeld (s : State) (h : HeldOp) : Option State :=
  if h.kind = 4 then
    let job := (s.ctxAt h.key).job
    if s.childRuns job h.child then none
    else some (((s.collect job h.child).1.unheld h.key).answerHeld h.key h.d (s.collect job h.child).2)
  else
    match s.stageOf h.key with
    | none => none
    | some (r, i) =>
      if h.kind = 2 then
        if r.gone (i + 1) then some ((s.unheld h.key).answerHeld h.key h.d (status 3))
        else if (r.chan i).room && s.firstHeld h r.id i then
          some (((s.chanSend r i h.record).1.unheld h.key).answerHeld h.key h.d (s.chanSend r i h.record).2)
        else none
      else
        match (if s.firstHeld h r.id i then (r.chan (i - 1)).records else []) with
        | bs :: _ => some (((s.chanTake r (i - 1) h.loc bs).1.unheld h.key).answerHeld h.key h.d (s.chanTake r (i - 1) h.loc bs).2)
        | [] =>
          if r.gone (i - 1) && (r.chan (i - 1)).records.isEmpty then some ((s.unheld h.key).answerHeld h.key h.d (status 3)) else none

/-- The first held operation that can complete, completed. -/
def State.serveOne (s : State) : Option State :=
  match s.sched.held.findSome? s.serveHeld with
  | some s1 => some s1
  | none => (s.sched.queues.map (·.1)).findSome? s.serveQueue

/-- Held operations complete, up to n of them. -/
def State.serveAll : Nat → State → State
  | 0, s => s
  | n + 1, s =>
    match s.serveOne with
    | some s1 => s1.serveAll n
    | none => s

/-- The operations held at queues and channels, and the JDONEs. -/
def State.heldOps (s : State) : List HeldOp := s.sched.held ++ s.sched.queues.flatMap (·.2.held)

/-- Every held operation that can complete does, in their order and ahead of whatever arrives now (R236). -/
def State.catchUp (s : State) : State := s.serveAll s.heldOps.length

/-- The operation a strand has held. -/
def State.heldBy (s : State) (k : Nat) : Option HeldOp :=
  s.heldOps.find? fun h => h.key == k

/-! ### Requests and answers (R118) -/

/-- The SYS message that carries a request of the issuing strand (R118). -/
def State.toScheduler (s : State) : State := (s.send .sys s.myCore schedulerStop).catchUp

/-- The request of an instruction whose record of 64 bytes is read or written at a place: the accesses to it, and the SYS message (R118). -/
def State.withRecord (s : State) (p : Place) (wr : Bool) : State :=
  (s.requestLines s.myCore (some s.cur) wr [(p, 64)]).toScheduler

/-- The scheduler's answer, a SYS message too, and the result it brings (R118). -/
def State.answerDone (s : State) (d : BitVec 5) (v : W64) : Res := (s.send .sys schedulerStop s.myCore).done d v

/-! ### SPAWN and JDONE (R232, R233) -/

/-- The checks of SPAWN's record address: MISALIGN, PAGE, PROT. -/
def State.spawnPlace (s : State) (va : Nat) : Except Cause (Place × State) :=
  if va % 64 ≠ 0 then .error .misalign else if privateVa va then .error .prot else s.resolve s.cur va .read

/-- The copy of a spawned record: a deadline of 0 takes %deadline. -/
def State.spawnCopy (s : State) (r : JobRecord) : JobRecord :=
  if r.w3 = 0 ∧ !(isSteward s.cur) then { r with w3 := s.me.crGet 0x400 } else r

/-- The tree of the executing job. -/
def State.myTree (s : State) : Nat := match s.job? s.me.job with | some j => j.tree | none => 0

/-- SPAWN (R232): the record is read through the strand's own translation. -/
def execSpawn (d a : BitVec 5) (s : State) : Res :=
  if s.coordDest d then s.illegal
  else
    let va := ea (s.rd a)
    match s.spawnPlace va with
    | .error c => s.trapAt c va
    | .ok (p, s1) =>
      match s1.anyVectorMemory with
      | some e => s1.waitOn e.pc.toNat
      | none =>
        let s2 := s1.withRecord p false
        let root := s2.rootOf s2.cur
        match s2.prepare s2.myCore root (recordOf (s2.readBytes p.loc 64)) with
        | none => s2.answerDone d (status 6)
        | some (list, s3) =>
          if s3.schedFull then s3.answerDone d (status 5)
          else
            (s3.accept (s3.spawnCopy (recordOf (s2.readBytes p.loc 64))) root list (s3.lineage s3.me.job) s3.myTree).answerDone d
              (BitVec.ofNat 64 s3.newId)

/-- The issuing strand held at the scheduler. -/
def State.holdAt (s : State) (h : Hold) : State :=
  s.onMe fun c => { c with hold := h, again := true, atPoint := true, since := s.now }

/-- A held operation entered in arrival order. -/
def State.enterHeld (s : State) (h : HeldOp) : State := { s with sched := { s.sched with held := s.sched.held ++ [h] } }

/-- JDONE (R233). -/
def execJdone (d a : BitVec 5) (s : State) : Res :=
  if s.coordDest d then s.illegal
  else
    let child := (s.rd a).toNat
    let s1 := s.toScheduler
    if s.childRuns s.me.job child then
      .next ((s1.enterHeld { key := s.cur, kind := 4, d := d.toNat, child := child }).holdAt .jdone)
    else (s1.collect s.me.job child).1.answerDone d (s1.collect s.me.job child).2

/-! ### Queues (R235 to R237) -/

/-- The queue number and WAIT of g[b]. -/
def queueNo (v : W64) : Nat := bitsOf v 0 6
def waitBit (v : W64) : Bool := v.getLsbD 8

/-- A queue operation with no room or no record: held with WAIT, or its status (R236). -/
def State.holdQueue (s : State) (wait : Bool) (q : Nat) (h : HeldOp) (code : Nat) (d : BitVec 5) : Res :=
  if wait then
    .next ((s.setQueue q { s.queueAt q with held := (s.queueAt q).held ++ [h] }).holdAt .queue)
  else s.answerDone d (status code)

/-- The place of a record of 64 bytes, checked as R235 gives. -/
def State.recordPlace (s : State) (a : BitVec 5) (acc : Acc) : Except Cause (Place × State) := s.request (ea (s.rd a)) 64 64 acc

/-- QPUSH (R235). -/
def execQpush (d a b : BitVec 5) (s : State) : Res :=
  if s.coordDest d then s.illegal
  else
    match s.recordPlace a .read with
    | .error c => s.trapAt c (ea (s.rd a))
    | .ok (p, s1) =>
      let q := queueNo (s.rd b)
      if !(queueOn (s.queueDesc q)) then s.trap .queue 0
      else
        match s1.anyVectorMemory with
        | some e => s1.waitOn e.pc.toNat
        | none =>
          let s2 := s1.withRecord p false
          let bs := s2.readBytes p.loc 64
          let h : HeldOp := { key := s.cur, kind := 0, d := d.toNat, record := bs }
          match s2.push q bs with
          | some s3 => s3.answerDone d (BitVec.ofNat 64 (s3.queueAt q).count)
          | none => s2.holdQueue (waitBit (s.rd b)) q h 2 d

/-- The records of a queue that no held QPOP is to have. -/
def HwQueue.spare (q : HwQueue) : Nat := q.count - (q.held.filter fun h => h.kind == 1).length

/-- QPOP (R235): one whose record is still in the ring waits in its turn for the refill (R244). -/
def execQpop (d a b : BitVec 5) (s : State) : Res :=
  if s.coordDest d then s.illegal
  else
    match s.recordPlace a .write with
    | .error c => s.trapAt c (ea (s.rd a))
    | .ok (p, s1) =>
      let q := queueNo (s.rd b)
      if !(queueOn (s.queueDesc q)) then s.trap .queue 0
      else
        match s1.anyVectorMemory with
        | some e => s1.waitOn e.pc.toNat
        | none =>
          let s2 := s1.withRecord p true
          let x := s2.queueAt q
          let h : HeldOp := { key := s.cur, kind := 1, d := d.toNat, loc := p.loc }
          if x.spare = 0 then s2.holdQueue (waitBit (s.rd b)) q h 1 d
          else if x.chip = [] then s2.holdQueue true q { h with sure := true } 1 d
          else (s2.pop q p.loc).answerDone d (BitVec.ofNat 64 ((s2.pop q p.loc).queueAt q).count)

/-- QLEN (R237). -/
def execQlen (d b : BitVec 5) (s : State) : Res :=
  if s.coordDest d then s.illegal
  else
    let q := queueNo (s.rd b)
    if !(queueOn (s.queueDesc q)) then s.trap .queue 0
    else
      let s1 := s.toScheduler
      let x := s1.queueAt q
      s1.answerDone d (BitVec.ofNat 64 ((if x.spilled then 2 ^ 63 else 0) + x.chip.length * 2 ^ 32 + x.count))

/-! ### Channels (R238, R239, R242) -/

/-- A channel operation that cannot complete: held with WAIT, or its status. -/
def State.holdChannel (s : State) (wait : Bool) (h : HeldOp) (code : Nat) (d : BitVec 5) : Res :=
  if wait then .next ((s.enterHeld h).holdAt .channel) else s.answerDone d (status code)

/-- A route run as it stands now. -/
def State.runNow (s : State) (r : RouteRun) : RouteRun := (s.sched.routes.find? fun x => x.id == r.id).getD r

/-- CHSEND (R238). -/
def execChsend (d a b : BitVec 5) (s : State) : Res :=
  if s.coordDest d then s.illegal
  else
    match s.recordPlace a .read with
    | .error c => s.trapAt c (ea (s.rd a))
    | .ok (p, s1) =>
      match s.stageOf s.cur with
      | none => s.trap .queue 0
      | some (r, i) =>
        if r.stages.length ≤ i + 1 then s.trap .queue 0
        else
          match s1.anyVectorMemory with
          | some e => s1.waitOn e.pc.toNat
          | none =>
            let s2 := s1.withRecord p false
            let bs := s2.readBytes p.loc 64
            let r := s2.runNow r
            if r.gone (i + 1) then s2.answerDone d (status 3)
            else if (r.chan i).room then (s2.chanSend r i bs).1.answerDone d (s2.chanSend r i bs).2
            else s2.holdChannel (waitBit (s.rd b)) { key := s.cur, kind := 2, d := d.toNat, record := bs } 2 d

/-- CHRECV (R238). -/
def execChrecv (d a b : BitVec 5) (s : State) : Res :=
  if s.coordDest d then s.illegal
  else
    match s.recordPlace a .write with
    | .error c => s.trapAt c (ea (s.rd a))
    | .ok (p, s1) =>
      match s.stageOf s.cur with
      | none => s.trap .queue 0
      | some (r, i) =>
        if i = 0 then s.trap .queue 0
        else
          match s1.anyVectorMemory with
          | some e => s1.waitOn e.pc.toNat
          | none =>
            let s2 := s1.withRecord p true
            let h : HeldOp := { key := s.cur, kind := 3, d := d.toNat, loc := p.loc }
            let r := s2.runNow r
            match (r.chan (i - 1)).records with
            | bs :: _ => (s2.chanTake r (i - 1) p.loc bs).1.answerDone d (s2.chanTake r (i - 1) p.loc bs).2
            | [] =>
              if r.gone (i - 1) && (r.chan (i - 1)).records.isEmpty then s2.answerDone d (status 3)
              else s2.holdChannel (waitBit (s.rd b)) h 1 d

/-- CHREL (R238). -/
def execChrel (d : BitVec 5) (s : State) : Res :=
  if s.coordDest d then s.illegal
  else
    match s.stageOf s.cur with
    | none => s.trap .queue 0
    | some (r, i) =>
      let c := r.chan (i - 1)
      if i = 0 ∨ c.taken = 0 then s.trap .queue 0
      else
        let s1 := s.toScheduler
        (s1.onChannel r.id (i - 1) fun c => { c with taken := c.taken - 1 }).answerDone d (BitVec.ofNat 64 (((s1.runNow r).chan (i - 1)).taken - 1))

/-! ### TIME and SLACK (R241) -/

/-- TIME. -/
def execTime (d : BitVec 5) (s : State) : Res := if s.coordDest d then s.illegal else s.done d s.dev.time

/-- SLACK: with ga = g0 it equals %slack, a steward's too. -/
def execSlack (d a : BitVec 5) (s : State) : Res :=
  if s.coordDest d then s.illegal else s.done d (slackOf (s.strandCr s.cur 0x400) s.dev.time (s.rd a).toInt)

/-! ### SYS, REFILL, TIMEOUT (R236, R239, R244) -/

/-- A SYS message arrives; a notice of a lost twin link reaches its steward (R394). -/
def State.takeSys (s : State) (m : Message) : State :=
  let s1 := s.dropMsg m
  if m.kind = .twin then { s1 with dev := { s1.dev with twinNotices := s1.dev.twinNotices ++ [m.dst] } } else s1

/-- SYS (R118, R236): the oldest scheduler message arrives, and a held request that can complete now is served. -/
def execSys (s : State) : Res :=
  let s1 := match s.oldestOf .sys with | some m => s.takeSys m | none => s
  .next (s1.serveOne.getD s1)

/-- Whether a queue has a refill to make. -/
def State.refillDue (s : State) (q : Nat) : Bool := (s.queueAt q).spilled && decide ((s.queueAt q).chip.length < 32)

/-- REFILL (R244): a QPOP that waits for the record has it at once. -/
def execRefill (s : State) : Res :=
  let q := s.input.num.toNat
  if s.refillDue q then .next (s.refill q).catchUp else .next s

/-- Whether a held queue or channel operation has reached %waitto (R236). -/
def State.holdExpired (s : State) (k : Nat) : Bool :=
  let c := s.ctxAt k
  let lim := bitsOf (c.crGet 0x031) 0 32
  (c.hold == .queue || c.hold == .channel) && lim != 0 && decide (c.since + lim ≤ s.now)
    && match s.heldBy k with | some h => !h.sure | none => false

/-- TIMEOUT (R236): an operation that can complete in the cycle of expiry does; one whose record is on its way waits on. -/
def execTimeout (s : State) : Res :=
  let k := s.input.key.toNat
  if !(s.holdExpired k) then .next s
  else
    let s1 := s.catchUp
    match s1.heldBy k with
    | none => .next s1
    | some h => .next ((s1.unhold k).answerHeld k h.d (status 4))

end Sys2Proof.Machine
end

