-- ==== Sys2Proof/Machine/Plan.lean ====
section
/-! DEFINITION. Placement, pre-emption, admission and the EDF choice (14_sched_model R212, R213, R216 to R220; 10 R182; 05 R87). -/

namespace Sys2Proof.Machine

/-! ### Free slots (R213, R217) -/

/-- %prehyst. -/
def State.prehyst (s : State) : Nat := bitsOf (s.dev.crGet 0x404) 0 32

/-- Whether v's deadline exceeds j's by more than %prehyst. -/
def State.beyond (s : State) (v j : Job) : Bool := decide (j.deadline + s.prehyst < v.deadline)

/-- Whether a pre-empted job keeps a place. -/
def Job.keeps (v : Job) (place : Nat) : Bool := v.saved.any fun x => x.key == place || x.ctx.here == place

/-- Whether a job keeps the place of a core's vector strand. -/
def Job.keepsVec (v : Job) (m : Nat) : Bool := v.saved.any fun x => x.ctx.vec && x.key / 16 == m

/-- Whether a slot is free to a job, some running jobs thought away. -/
def State.freeTo (s : State) (j : Job) (gone : List Nat) (place : Nat) : Bool :=
  !(s.coreAt (place / 16)).fenced
    && (s.strands.all fun k =>
      let c := s.ctxAt k
      gone.contains c.job || (c.here != place && k != place && c.hold != .migrate place))
    && s.sched.jobs.all fun v => v.id == j.id || gone.contains v.id || !(v.keeps place) || s.beyond v j

/-- Whether a core has room for a vector strand of a job (R213). -/
def State.vecFree (s : State) (j : Job) (gone : List Nat) (m : Nat) : Bool :=
  (s.strands.all fun k => !(s.ctxAt k).vec || s.coreOf k != m || gone.contains (s.ctxAt k).job)
    && s.sched.jobs.all fun v => v.id == j.id || gone.contains v.id || !(v.keepsVec m) || s.beyond v j

/-- The places of a core that a job may take: none that a wayfarer has reserved, nor the next ones promised (R371). -/
def State.freePlaces (s : State) (j : Job) (gone : List Nat) (m : Nat) : List Nat :=
  if wantsVec j.record && !(s.vecFree j gone m) then []
  else
    (((List.range 16).map fun i => m * 16 + i).filter fun p =>
      s.freeTo j gone p && s.way.slots.all fun q => q.1 != p).drop (s.slotsOwed m)

/-! ### Placement (R213) -/

/-- A place put into a list that falls by the scheduler's preference (log 9). -/
def State.insertPref (s : State) (p : Nat) : List Nat → List Nat
  | [] => [p]
  | q :: qs =>
    if Config.placement s.free (q / 16) (q % 16) < Config.placement s.free (p / 16) (p % 16) then p :: q :: qs
    else q :: s.insertPref p qs

/-- Places, the preferred ones first. -/
def State.byPref (s : State) (ps : List Nat) : List Nat := ps.foldl (fun l p => s.insertPref p l) []

/-- A place put into a rising list. -/
def insertRising (p : Nat) : List Nat → List Nat
  | [] => [p]
  | q :: qs => if p < q then p :: q :: qs else q :: insertRising p qs

/-- PACKED: any of some cores with enough free slots; ranks rise with core and slot. -/
def State.planPacked (s : State) (j : Job) (gone cores : List Nat) : Option (List Nat) :=
  let all := cores.flatMap fun m =>
    let ps := s.freePlaces j gone m
    if wantsVec j.record then (s.byPref ps).take 1 else ps
  if all.length < sizeOf_ j.record then none
  else some (((s.byPref all).take (sizeOf_ j.record)).foldl (fun l p => insertRising p l) [])

/-- SPREAD and LIST: a slot on each rank's core, in rank order. -/
def State.planOn (s : State) (j : Job) (gone avoid : List Nat) : List Nat → List Nat → Option (List Nat)
  | [], used => some used
  | m :: ms, used =>
    if avoid.contains m then none
    else
      match s.byPref ((s.freePlaces j gone m).filter fun p => !(used.contains p)) with
      | [] => none
      | p :: _ => s.planOn j gone avoid ms (used ++ [p])

/-- The cores that a SPREAD or LIST record names. -/
def namedCores (j : Job) : List Nat :=
  let r := j.record
  if modeOf r = 1 then (List.range (sizeOf_ r)).map fun i => (baseOf r + i) % 256 else if modeOf r = 2 then j.list else []

/-- Where a crew would go: a pre-empted one only to its own slots. -/
def State.planSlots (s : State) (j : Job) (gone avoid : List Nat) : Option (List Nat) :=
  if j.state = .preempted then
    if j.saved.all fun v => s.freeTo j gone v.key && s.freeTo j gone v.ctx.here && (!v.ctx.vec || s.vecFree j gone (v.key / 16)) then
      some j.places
    else none
  else if modeOf j.record = 0 then s.planPacked j gone ((List.range 256).filter fun m => !(avoid.contains m))
  else s.planOn j gone avoid (namedCores j) []

/-! ### Crossing channels (R182, R217) -/

def least_ (xs : List Nat) : Nat := xs.foldl min (xs.headD 0)
def most_ (xs : List Nat) : Nat := xs.foldl max 0

/-- The cores of the smallest rectangle that holds some places. -/
def rectangle (places : List Nat) : List Nat :=
  let cs := places.map (· / 16)
  let xs := cs.map (· % 16)
  let ys := cs.map (· / 16)
  (List.range 256).filter fun m =>
    decide (least_ xs ≤ m % 16) && decide (m % 16 ≤ most_ xs) && decide (least_ ys ≤ m / 16) && decide (m / 16 ≤ most_ ys)

/-- Whether a channel number is free to a job on some cores. -/
def State.channelFree (s : State) (j : Job) (gone cores : List Nat) (n : Nat) : Bool :=
  s.sched.jobs.all fun v =>
    v.id == j.id || gone.contains v.id || v.channel != some n || (v.state == .preempted && s.beyond v j)
      || !((rectangle v.places).any cores.contains)

/-- The channel a crew would take, the lowest that is free; a resumed one its own. -/
def State.planChannel (s : State) (j : Job) (gone places : List Nat) : Option (Option Nat) :=
  if !(wantsCrossing j.record) then some none
  else
    let numbers := match j.channel with | some n => [n] | none => [0, 1, 2, 3]
    ((numbers.find? (s.channelFree j gone (rectangle places))).map some)

/-- The rectangles of the mesh, each as its cores. -/
def rectangles : List (List Nat) :=
  let spans := (List.range 16).flatMap fun a => (List.range (16 - a)).map fun n => (a, a + n)
  spans.flatMap fun ys => spans.map fun xs =>
    (List.range 256).filter fun m =>
      decide (xs.1 ≤ m % 16) && decide (m % 16 ≤ xs.2) && decide (ys.1 ≤ m / 16) && decide (m / 16 ≤ ys.2)

/-- A PACKED crew's places within the first rectangle on all of whose cores some channel is free (R182, R217). -/
def State.planWithin (s : State) (j : Job) (gone avoid : List Nat) : Option (List Nat × Option Nat) :=
  [0, 1, 2, 3].findSome? fun n => rectangles.findSome? fun r =>
    if s.channelFree j gone r n then (s.planPacked j gone (r.filter fun m => !(avoid.contains m))).map fun ps => (ps, some n) else none

/-- A crew's places and channel, if it can be placed. -/
def State.plan (s : State) (j : Job) (gone avoid : List Nat) : Option (List Nat × Option Nat) :=
  match s.planSlots j gone avoid with
  | none => none
  | some ps =>
    match s.planChannel j gone ps with
    | some c => some (ps, c)
    | none => if j.state != .preempted && modeOf j.record == 0 then s.planWithin j gone avoid else none

/-! ### Admission (R218) -/

/-- The tier the device is in or on its way to: a switch counts for the admissions of its own tick (R402). -/
def State.tierNow (s : State) : BitVec 2 := s.dev.switching.getD s.dev.tier

/-- P_proj of a job in mW. -/
def State.projected (s : State) (j : Job) : Nat :=
  s.dev.pmeas.toNat + ((s.dev.tables.energy.getD s.tierNow.toNat []).getD (eclassOf j.record) 0) * sizeOf_ j.record

def State.fits (s : State) (j : Job) : Bool := decide (s.projected j ≤ bitsOf (s.dev.crGet 0x403) 0 20)

inductive Admission where
  | run | drop | stay | wait
deriving DecidableEq, Repr

def State.admission (s : State) (j : Job) : Admission :=
  if s.fits j then .run
  else if s.dev.time.toNat + bitsOf (s.dev.crGet 0x405) 0 32 < j.deadline then .stay
  else if s.tierNow.toNat < 3 then .drop
  else .wait

/-- A tier switch begun (R401). -/
def State.switchTo (s : State) (t : BitVec 2) : State := { s with dev := { s.dev with switching := some t } }

/-- The tier drops by one, if there is a lower one. -/
def State.dropTier (s : State) : State := if s.tierNow = 3 then s else s.switchTo (s.tierNow + 1)

/-! ### Placing a crew (R87, R126, R204, R212, R216, R248) -/

/-- The private area of a place. -/
def privLoc (place : Nat) : Nat := coreWindow + place / 16 * 2 ^ 24 + place % 16 * 0x4000
/-- The lane-private slices of a core. -/
def laneLoc (m : Nat) : Nat := coreWindow + m * 2 ^ 24 + 0x100000

/-- What is kept for a pre-empted strand of work that takes a place: its private area, and with the core's vector strand the lane-private
slices, the accumulators and the inbox with the requests for its slots (R204, R293). -/
def State.saveFor (s : State) (place : Nat) (vec : Bool) (x : Saved) : Saved :=
  let x1 : Saved := if x.key = place ∧ x.priv = none then { x with priv := some (s.readBytes (privLoc place) 0x4000) } else x
  if vec ∧ x.ctx.vec ∧ x.key / 16 = place / 16 ∧ x.lanes = none then
    { x1 with
      lanes := some (s.readBytes (laneLoc (place / 16)) 0x10000)
      inbox := (s.coreAt (place / 16)).inbox, reserved := (s.coreAt (place / 16)).reserved, acc := (s.coreAt (place / 16)).acc }
  else x1

/-- The pre-empted jobs keep what work that takes a place occupies; a new vector strand finds the inbox empty. -/
def State.saveArea (s : State) (place : Nat) (vec : Bool) : State :=
  let jobs := s.sched.jobs.map fun v => { v with saved := v.saved.map (s.saveFor place vec) }
  let s1 : State := { s with sched := { s.sched with jobs := jobs } }
  if vec then s1.onCore (place / 16) fun c => { c with inbox := [], reserved := [] } else s1

/-- %crew of a job (R418). -/
def State.crewWord (s : State) (j : Job) : W64 :=
  match j.stage with
  | none => 0
  | some (r, i) =>
    let n := match s.sched.routes.find? fun x => x.id == r with | some x => x.stages.length | none => 1
    BitVec.ofNat 64 (128 + (n - 1) * 8 + i)

/-- The stack top of a rank (R212). -/
def stackTop (r : JobRecord) (rank : Nat) : W64 :=
  if bitsOf r.w7 26 38 = 0 then 0 else BitVec.ofNat 64 (bitsOf r.w7 26 38 * 4096 + (rank + 1) * 2 ^ (bitsOf r.w7 22 4 + 10))

/-- A strand as it is at its first instruction (R126, R248). -/
def State.startCtx (s : State) (j : Job) (rank place : Nat) : Ctx :=
  let r := j.record
  let c : Ctx :=
    { pc := entryOf r, cr := crStart, hold := .placed, here := place, job := j.id, rank := rank, vec := wantsVec r }
  ((((((c.wr 2 (stackTop r rank)).wr 3 r.w1).crSet 0x002 (s.crewWord j)).crSet 0x004 (BitVec.ofNat 64 (sizeOf_ r))).crSet 0x400
    r.w3).crSet 0x402 (BitVec.ofNat 64 (eclassOf r))).crSet 0x506 (BitVec.ofNat 64 (bitsOf j.root 18 30 * 2 ^ 18))

/-- One strand of a crew placed: the private area reads zero unless the slot last held a strand of the same job (R87). -/
def State.placeStrand (s : State) (j : Job) (rank place : Nat) : State :=
  let s1 := s.saveArea place (wantsVec j.record)
  let same := decide (Sparse.get 0 (s.coreAt (place / 16)).slotJob (place % 16) = j.id)
  let s2 : State := if same then s1 else { s1 with mem := Sparse.without s1.mem (privLoc place) (privLoc place + 0x4000) }
  (s2.setCtx place (s2.startCtx j rank place)).onCore (place / 16) fun c =>
    { c with slotJob := Sparse.put c.slotJob (place % 16) j.id }

/-- The regions of an image's .tile lines, back to back from an offset on: offset, length, and whether it starts READY (R31). -/
def imageRegions (off : Nat) : List (Nat × Bool) → List (Nat × Nat × Bool)
  | [] => []
  | (n, ready) :: ts => (off, n, ready) :: imageRegions (off + n) ts

/-- The limits of a tile's region (R295). -/
def regionFits (off len : Nat) : Bool :=
  decide (0x40000 ≤ off) && off % 64 == 0 && len % 64 == 0 && decide (64 ≤ len) && decide (len ≤ 524288) && decide (off + len ≤ 0xC0000)

/-- The tiles of an image, made on the core of rank 0 for a job that the host launches (R31): none if an id is defined or a region
overlaps, or they exceed the limits of a table and its region (R295, R411). -/
def State.imageTiles (s : State) (j : Job) (m : Nat) : Option State :=
  match (if j.hosted then s.dev.tables.images.find? fun p => p.1 == jqOf j.record && p.2.1 == (entryOf j.record).toNat else none) with
  | none => some s
  | some (_, _, ts) =>
    let new := imageRegions 0x40000 ts
    let old := (s.coreAt m).tiles
    let bad := new.zipIdx.any fun x =>
      decide (64 ≤ x.2) || !(regionFits x.1.1 x.1.2.1) || (Sparse.get none old x.2).isSome || old.any fun p =>
        match p.2 with
        | some t => decide (t.off < x.1.1 + x.1.2.1) && decide (x.1.1 < t.off + t.len)
        | none => false
    if bad then none
    else some (new.zipIdx.foldl (fun s x =>
      s.setTile m x.2 (some { off := x.1.1, len := x.1.2.1, state := if x.1.2.2 then .ready else .empty, job := j.id })) s)

/-- A crew's strands start (R216): the job is RUNNING, or ends FAULTED where its image's tiles cannot be made. -/
def State.startCrew (s : State) (j : Job) (places : List Nat) (channel : Option Nat) : State :=
  let s1 := places.zipIdx.foldl (fun s p => s.placeStrand j p.2 p.1) s
  let s2 := (s1.onJob j.id fun x => { x with state := .running, places := places, live := places, channel := channel }).freshen 1
  match s2.imageTiles j (places.headD 0 / 16) with
  | some s3 => s3
  | none => s2.cutJob j.id .faulted

/-- One strand of a pre-empted crew restored (R203, R204, R205): its state comes from its record; what other work took is put back, the lease is asked for again. -/
def State.restoreStrand (s : State) (v : Saved) : State :=
  let now := s.now
  let (c0, s) := s.loadRecord v
  let c : Ctx :=
    { c0 with
      predN := 0, predHome := 0, open_ := c0.open_ && !c0.queue.isEmpty
      hold := if v.ctx.hold = .idle then .idle else if c0.awaitsSync then .vsync else .ready
      since := if v.ctx.crossPhase = none then v.ctx.since else now - v.ctx.since }
  let s0 := if v.priv.isSome || v.lanes.isSome then s.saveArea v.key v.lanes.isSome else s
  let s1 := s0.setCtx v.key c
  let s2 : State := match v.priv with | some bs => { s1 with mem := pokeBytes s1.mem (privLoc v.key) bs } | none => s1
  let s3 : State := match v.lanes with | some bs => { s2 with mem := pokeBytes s2.mem (laneLoc (v.key / 16)) bs } | none => s2
  let s4 := s3.onCore (v.key / 16) fun c => { c with inbox := v.inbox ++ c.inbox, reserved := v.reserved ++ c.reserved, acc := if v.lanes.isSome then v.acc else c.acc }
  if v.lease then s4.onCluster (clusterOf (s4.coreOf v.key)) fun y => { y with requests := y.requests ++ [v.key] } else s4

/-- A pre-empted crew goes on where it was (R204, R217). -/
def State.resumeCrew (s : State) (j : Job) : State :=
  let s1 := s.onJob j.id fun x => { x with state := .running, saved := [], live := x.saved.map (·.key) }
  j.saved.foldl (fun s v => s.restoreStrand v) s1

/-- A job placed as planned. -/
def State.place (s : State) (j : Job) (p : List Nat × Option Nat) : State :=
  if j.state = .preempted then s.resumeCrew j else s.startCrew j p.1 p.2

/-! ### Pre-emption (R203, R217) -/

/-- A held strand stops at the boundary before its held instruction: it executes again on resume, but for a synchronising member, which is in
the queue. A crossing keeps its arrival, and its time-out count pauses (R185); an idle strand stays idle. Its open convoy closes, and completes,
unless it waits behind a convoy that waits to open. -/
def State.stopStrand (s : State) (k : Nat) : State :=
  (s.unhold k).onCtx k fun c0 =>
    let c := if c0.hold = .vsync ∧ c0.again then c0.advance else c0
    { c with
      hold := if c.hold = .idle then .idle else .stopped
      open_ := c.open_ && s.waitsToOpen k, waited := false, stall := none
      since := if c.crossPhase = none then c.since else s.now - c.since }

/-- Whether a strand is held at a pre-emption point and has not stopped there. -/
def State.heldAtPoint (s : State) (k : Nat) : Bool :=
  s.standsAt k && (s.ctxAt k).hold != .ready && (s.ctxAt k).hold != .idle

/-- The strands of a crew that are held at a pre-emption point stop. -/
def State.stopHeld (s : State) (ks : List Nat) : State := ks.foldl (fun s k => if s.heldAtPoint k then s.stopStrand k else s) s

/-- A SYS message of the scheduler to the steward of each strand's core (R118): a request or a notice. -/
def State.notify (s : State) (ks : List Nat) : State := ks.foldl (fun s k => s.send .sys schedulerStop (s.coreOf k)) s

/-- A crew asked to stop: its strands held at a pre-emption point stop at once. -/
def State.askPreempt (s : State) (j : Nat) : State :=
  match s.job? j with
  | none => s
  | some x => ((s.onJob j fun x => { x with preempt := true, preemptAt := s.now }).notify x.live).stopHeld x.live

/-- A job put into a list by deadline, the latest first; of equal ones, the later accepted first. -/
def insertLatest (j : Job) : List Job → List Job
  | [] => [j]
  | x :: xs =>
    if x.deadline < j.deadline ∨ (x.deadline = j.deadline ∧ x.order < j.order) then j :: x :: xs else x :: insertLatest j xs

/-- The victims that let a job be placed: running jobs, latest deadline first, each beyond the job's by more than %prehyst. -/
def State.victims (s : State) (j : Job) (asked : List Nat) : List Job → List Nat → Option (List Nat)
  | [], _ => none
  | v :: vs, acc =>
    if !(s.beyond v j) then none
    else if (s.plan j (asked ++ acc ++ [v.id]) []).isSome then some (acc ++ [v.id])
    else s.victims j asked vs (acc ++ [v.id])

/-- Running jobs are pre-empted for a job, if that lets it be placed; nothing more is asked while those already asked will do. -/
def State.preemptFor (s : State) (j : Job) : State :=
  let running := s.sched.jobs.filter fun x => x.state == .running
  let asked := (running.filter fun x => x.preempt).map (·.id)
  if (s.plan j asked []).isSome then s
  else
    match s.victims j asked ((running.filter fun x => !x.preempt).foldl (fun l x => insertLatest x l) []) [] with
    | some vs => vs.foldl (fun s v => s.askPreempt v) s
    | none => s

/-! ### The EDF choice (R217, R218, R220) -/

/-- Whether a candidate stands before another: the earlier deadline, then the higher PRIO, then the earlier acceptance. -/
def ahead (a b : Job) : Bool :=
  decide (a.deadline < b.deadline) || (a.deadline == b.deadline &&
    (decide (prioOf b.record < prioOf a.record) || (prioOf a.record == prioOf b.record && decide (a.order < b.order))))

def insertEdf (j : Job) : List Job → List Job
  | [] => [j]
  | x :: xs => if ahead j x then j :: x :: xs else x :: insertEdf j xs

/-- The QUEUED and PREEMPTED jobs in the order of R217; a fallback waits for the tick after it was queued (R220). -/
def State.candidateJobs (s : State) : List Job :=
  (s.sched.jobs.filter fun j => (j.state == .queued || j.state == .preempted) && decide (j.notBefore ≤ s.dev.time.toNat)).foldl
    (fun l j => insertEdf j l) []

/-- The job of a lower energy class that runs instead of a deferred one. -/
def State.instead (s : State) (j : Job) (rest : List Job) : Option (Job × (List Nat × Option Nat)) :=
  rest.findSome? fun k =>
    if k.state = .queued ∧ eclassOf k.record < eclassOf j.record ∧ s.fits k then (s.plan k [] []).map fun p => (k, p) else none

/-- While a job waits: another placed if it takes nothing that the waiting one needs. -/
def State.placeBeside (s : State) (w j : Job) : State :=
  let may := if j.state = .preempted then !(s.beyond j w) else modeOf w.record != 0
  match (if may then s.plan j [] (if j.state = .preempted then [] else namedCores w) else none) with
  | none => s
  | some p =>
    match s.admission j with
    | .run => s.place j p
    | .drop => (s.place j p).dropTier
    | _ => s

/-- The choice over the candidates: each is placed until one waits; the others are then placed around it. -/
def State.chooseFrom (s : State) : Option Job → List Job → State
  | _, [] => s
  | some w, j :: js => (s.placeBeside w j).chooseFrom (some w) js
  | none, j :: js =>
    match s.plan j [] [] with
    | none => (s.preemptFor j).chooseFrom (some j) js
    | some p =>
      match s.admission j with
      | .run => (s.place j p).chooseFrom none js
      | .drop => (s.place j p).dropTier.chooseFrom none js
      | .wait => s.chooseFrom (some j) js
      | .stay =>
        match s.instead j js with
        | some (k, q) => s.place k q
        | none => s

/-- The EDF choice. -/
def State.choose (s : State) : State :=
  ({ s with sched := { s.sched with choosing := false } } : State).chooseFrom none s.candidateJobs

/-! ### Ticks (R10, R220, R343) -/

/-- The time as of the last tick: %time moves with the ticks, past one where a forward step takes effect at it (R343). -/
def State.tickTime (s : State) : Nat := s.dev.time.toNat

/-- Time reaches the next tick, with a phase step that waits for it; n cycles have passed, and no fewer than have been counted. -/
def State.passTime (s : State) (n : Nat) : State :=
  let t := (s.dev.time.toNat / 32 + 1) * 32 + s.dev.phaseStep.toNat
  let cyc := s.dev.cycle.toNat + max n s.rounds
  let dt := t - s.dev.time.toNat
  let dev : Device := { s.dev with time := BitVec.ofNat 64 t, cycle := BitVec.ofNat 64 cyc, phaseStep := 0 }
  let jobs := s.sched.jobs.map fun j => if j.state = .running then { j with ranFor := j.ranFor + dt } else j
  let s1 := if s.rounds < n then s.idleCycles (n - s.rounds) else s
  ({ s1 with dev := dev, rounds := 0, sched := { s.sched with jobs := jobs, choosing := true } } : State).newWindow s.now

/-- SCHEDULER_TICK (R220): time reaches a tick; once the deadline ticks and watchdog steps of that tick are done, the EDF choice (log 4). -/
def execSchedulerTick (s : State) : Res := .next (if s.sched.choosing then s.choose else s.passTime s.input.num.toNat)

/-- FIRST_INSTRUCTION (R126, R216): a placed strand may issue. -/
def execFirstInstruction (s : State) : Res :=
  let k := s.input.key.toNat
  if (s.ctxAt k).hold = .placed ∧ !(isSteward k) then
    .next ((s.onCtx k fun c => { c with hold := .ready }).onCore (s.coreOf k) fun c =>
      { c with stripAt := Sparse.put c.stripAt k s.now })
  else .next s

end Sys2Proof.Machine
end

