-- ==== Sys2Proof/Machine/JobEnds.lean ====
section
/-! DEFINITION. How jobs stop and end: pre-emption acknowledged, deadlines, grace, the watchdog, and completion (14_sched_model R215 to R226;
11 R203; 01 R21; 20 R302). -/

namespace Sys2Proof.Machine

/-! ### PREEMPTION_ACK (R203, R204, R224) -/

/-- Whether a strand has stopped for pre-emption, its queued convoys and its anvil commands complete; a convoy that waits to open on a
tile or an inbox stays queued. -/
def State.stoppedFor (s : State) (k : Nat) : Bool :=
  let c := s.ctxAt k
  (c.hold == .stopped || (c.hold == .idle && s.standsAt k)) && c.running == none
    && (match c.queue with | [] => true | .level _ :: _ => true | .entry _ :: _ => (s.opening k).isNone)
    && !((s.coreAt (s.coreOf k)).anvil.any fun a => a.key == k)

/-- Whether a crew's request can be acknowledged. -/
def State.ackReady (s : State) (j : Job) : Bool :=
  j.state == .running && j.preempt && !j.live.isEmpty && j.live.all s.stoppedFor

/-- What is kept of a strand. -/
def State.saved (s : State) (k : Nat) : Saved where
  key := k
  ctx := s.ctxAt k
  lease :=
    let y := s.clusterAt (clusterOf (s.coreOf k))
    y.holder == some k || y.requests.contains k

/-- A crew becomes PREEMPTED: each strand's core acknowledges (R118, log 20), its slots, channel and operand slots are kept, its leases released. -/
def State.preempted (s : State) (j : Job) : State :=
  let (s1, at_) := (j.live.foldl (fun s k => s.send .sys (s.coreOf k) schedulerStop) s).saveCrew j.live
  let vs := j.live.map fun k => { s.saved k with record := (at_.find? fun x => x.1 == k).map (·.2) }
  let s2 := j.live.foldl (fun s k => (s.dropLease k).dropCtx k) s1
  let s3 := s2.onJob j.id fun x => { x with state := .preempted, preempt := false, live := [], saved := vs }
  { s3 with sched := { s3.sched with choosing := true } }

/-- Whether strands of a crew asked to stop have been held at a pre-emption point since. -/
def State.stopsLate (s : State) (j : Job) : Bool :=
  j.state == .running && j.preempt && j.live.any s.heldAtPoint

/-- PREEMPTION_ACK (R203): the strands held at a point stop; when every strand has stopped, the crew is PREEMPTED, and a job that the
watchdog asked to stop is cut instead (R224). -/
def execPreemptionAck (s : State) : Res :=
  match s.job? s.input.job.toNat with
  | none => .next s
  | some j =>
    let s1 := if s.stopsLate j then s.stopHeld j.live else s
    if !(s1.ackReady j) then .next s1
    else if j.runAsked.isSome then .next (s1.cutJob j.id .killed)
    else .next (s1.preempted j)

/-! ### Notices and the cascade (R216, R222, R223) -/

/-- A notice to each strand of a crew (R194, R223). -/
def State.notice (s : State) (j : Job) (c : Cause) : State :=
  j.live.foldl (fun s k => s.onCtx k fun x => { x with notices := x.notices ++ [c] }) (s.notify j.live)

/-- Whether a stage's cut must wait for a stage downstream (R226). -/
def State.downstreamRuns (s : State) (j : Job) : Bool :=
  match j.stage with
  | none => false
  | some (r, i) =>
    match s.sched.routes.find? fun x => x.id == r with
    | none => false
    | some x => (x.statuses.drop (i + 1)).any Option.isNone

/-- A job cut as abandoned: a stage once every stage downstream has finished. -/
def State.cutAbandoned (s : State) (j : Job) : State :=
  if s.downstreamRuns j then s.onJob j.id fun x => { x with cutWanted := true } else s.cutJob j.id .abandonedCut

/-- One job's deadline acts, or a cascade reaches it; a grace of zero ends at the same tick, with a cut (R216, R223). -/
def State.actOn (s : State) (j : Job) : State :=
  if j.acted then s
  else
    let s1 := s.onJob j.id fun x => { x with acted := true }
    match j.state with
    | .queued => s1.onJob j.id fun x => { x with state := .finished, status := .abandonedUnstarted }
    | .preempted => s1.cutAbandoned j
    | .running =>
      if policyOf j.record = 0 ∨ graceOf j.record = 0 then s1.cutAbandoned j
      else (s1.notice j .deadline).onJob j.id fun x => { x with graceEnd := some (s.dev.time.toNat + graceOf j.record) }
    | _ => s1

/-- Whether a job may still be abandoned. -/
def Job.alive (j : Job) : Bool := j.state == .queued || j.state == .running || j.state == .preempted

/-- A job's descendants in its tree that may be abandoned (R222). -/
def State.descendants (s : State) (j : Job) : List Job :=
  s.sched.jobs.filter fun d => d.alive && d.tree == j.tree && d.ancestors.contains j.id

/-- The descendants whose words a job's word waits for: those abandoned now, and those abandoned before whose word is still to come (R222). -/
def State.wordsBelow (s : State) (j : Job) : List Nat :=
  (s.sched.jobs.filter fun d => d.tree == j.tree && d.ancestors.contains j.id &&
    (d.alive || ((d.state == .cutting || d.state == .finished) && (d.status == .abandonedCut || d.status == .abandonedUnstarted)))).map (·.id)

/-- The other stages of a job's route. -/
def State.coStages (s : State) (j : Job) : List Job :=
  match j.stage with
  | none => []
  | some (r, _) => s.sched.jobs.filter fun d =>
      d.id != j.id && d.alive && (match d.stage with | some (q, _) => q == r | none => false)

/-- The words of a job's ancestors wait for some words below them (R222). -/
def State.awaitBelow (s : State) (j : Job) (ws : List Nat) : State :=
  let await (a : Job) : Job := if a.tree == j.tree && j.ancestors.contains a.id then { a with waitsFor := a.waitsFor ++ ws } else a
  { s with sched := { s.sched with jobs := s.sched.jobs.map await } }

/-- A job abandoned with its descendants, words leaves first (R222). -/
def State.abandonOne (s : State) (j : Job) : State :=
  let ds := s.descendants j
  let s1 := ds.foldl (fun s d => s.onJob d.id fun x => { x with waitsFor := x.waitsFor ++ s.wordsBelow d }) s
  let s2 := (ds.foldl (fun s d => s.actOn d) s1).onJob j.id fun x => { x with waitsFor := x.waitsFor ++ s.wordsBelow j }
  (s2.awaitBelow j (j.id :: s.wordsBelow j)).actOn j

/-- A job abandoned, and with a stage every other stage of its route (R226). -/
def State.abandon (s : State) (j : Job) : State := (s.coStages j).foldl (fun s d => s.abandonOne d) (s.abandonOne j)

/-- A deadline that acts now: at the first tick at or after it, a fallback's not before the tick after it was queued (R220). -/
def State.deadlineDue (s : State) (j : Job) : Bool :=
  j.alive && !j.acted && decide (j.deadline ≤ s.tickTime) && decide (j.notBefore ≤ s.dev.time.toNat)

/-- DEADLINE_TICK (R216, R220). -/
def execDeadlineTick (s : State) : Res :=
  match s.job? s.input.job.toNat with
  | none => .next s
  | some j => if s.deadlineDue j then .next (s.abandon j) else .next s

/-- Whether a stage that is to be cut may be: every stage downstream has finished, and a channel operation of its own that can complete has, with
GONE if that is its answer (R226, R239). -/
def State.upstreamDue (s : State) (j : Job) : Bool :=
  j.alive && j.cutWanted && !(s.downstreamRuns j)
    && s.sched.held.all fun h => (s.ctxAt h.key).job != j.id || (s.serveHeld h).isNone

/-- A grace that has run out, off the device too (R223); or the cut of a stage whose turn has come. -/
def State.graceDue (s : State) (j : Job) : Bool :=
  s.upstreamDue j || ((j.state == .running || j.state == .preempted) && !j.cutWanted
    && match j.graceEnd with | some t => decide (t ≤ s.tickTime) | none => false)

/-- GRACE_EXPIRY (R223, R226). -/
def execGraceExpiry (s : State) : Res :=
  match s.job? s.input.job.toNat with
  | none => .next s
  | some j => if s.graceDue j then .next (s.cutAbandoned j) else .next s

/-! ### The watchdog (R224) -/

/-- The limits of a job's queue, in ns. -/
def State.limits (s : State) (j : Job) : Nat × Nat × Nat :=
  let q := s.dev.tables.jobQueues.getD (jqOf j.record) {}
  (q.run * 1000, q.kill * 1000, q.fence * 1000)

def State.runDue (s : State) (j : Job) : Bool :=
  let (run, _, _) := s.limits j
  j.state == .running && run != 0 && j.runAsked == none && decide (run ≤ j.ranFor)

/-- WATCHDOG_RUN (R224): the pre-emption request, and the notices. -/
def execWatchdogRun (s : State) : Res :=
  match s.job? s.input.job.toNat with
  | none => .next s
  | some j =>
    if s.runDue j then
      .next (((s.askPreempt j.id).notice j .watchdog).onJob j.id fun x => { x with runAsked := some s.dev.time.toNat })
    else .next s

def State.killDue (s : State) (j : Job) : Bool :=
  let (run, kill, _) := s.limits j
  (j.state == .running || j.state == .preempted) && run != 0 && kill != 0
    && match j.runAsked with | some t => decide (t + kill ≤ s.tickTime) | none => false

/-- WATCHDOG_KILL (R224). -/
def execWatchdogKill (s : State) : Res :=
  match s.job? s.input.job.toNat with
  | none => .next s
  | some j => if s.killDue j then .next (s.cutJob j.id .killed) else .next s

def State.fenceDue (s : State) (j : Job) : Bool :=
  let (run, kill, fence) := s.limits j
  j.state == .cutting && j.status == .killed && run != 0 && kill != 0 && fence != 0
    && match j.cutAt with | some t => decide (t + fence ≤ s.tickTime) | none => false

/-- The cores on which a job's cut is not complete. -/
def State.uncutCores (s : State) (j : Nat) : List Nat :=
  (List.range 256).filter fun m =>
    s.jobOnCore j m || (s.coreAt m).xfers.any (·.runs j) || (s.coreAt m).fh.any (·.runs j)
      || (s.coding.any fun p => p.2.any fun r => r.job == j && r.core == m)
      || (s.clusterAt (clusterOf m)).tenc.any fun t => t.job == j && t.core == m

/-- WATCHDOG_FENCE (R224, R400). -/
def execWatchdogFence (s : State) : Res :=
  match s.job? s.input.job.toNat with
  | none => .next s
  | some j =>
    if s.fenceDue j then
      let cores := s.uncutCores j.id
      .next (cores.foldl (fun s m => s.fenceCore m) (s.onJob j.id fun x => { x with cutAt := none }))
    else .next s

/-- STEWARD_ENDS_JOB (R216): a running job with a strand that has trapped is cut with FAULTED. -/
def execStewardEndsJob (s : State) : Res :=
  match s.job? s.input.job.toNat with
  | none => .next s
  | some j =>
    if j.state = .running ∧ j.live.any (fun k => (s.ctxAt k).hold == .trapped) then .next (s.cutJob j.id .faulted) else .next s

/-! ### COMPLETION (R21, R215, R216, R222, R223, R226, R302, R363) -/

/-- The status codes of R215. -/
def Status.code : Status → Nat
  | .done => 1
  | .abandonedUnstarted => 2
  | .abandonedCut => 3
  | .faulted => 4
  | .killed => 5

/-- The core through whose translation cache the scheduler reads and writes a job's addresses (log 7). -/
def schedCore : Nat := 7

/-- A double-word that the scheduler stores through a root; nothing where it does not translate. -/
def State.schedStore (s : State) (root : W64) (va : Nat) (v : W64) : State :=
  match s.engineWrite schedCore root va (leBytes 8 v.toNat) with
  | .ok s1 => s1.engineRequests schedCore schedulerStop root true [(va, 8)]
  | .error _ => s

/-- Whether a job may complete now: its commands are done, and the words of its abandoned descendants are written. -/
def State.completionDue (s : State) (j : Job) : Bool :=
  (j.state == .completing || j.state == .cutting || j.state == .finished) && !(s.outstanding j.id)
    && j.waitsFor.all fun d => (s.job? d).isNone

/-- The haul channels of a core that hold a fault of a job. -/
def Core.faultedChans (c : Core) (j : Nat) : List Nat :=
  (c.xfers.filter fun x => x.state == .faulted && x.job == j).map (·.chan)

/-- Whether a fault of a job is still held on an engine of a core. -/
def Core.holdsFault (c : Core) (j : Nat) : Bool := !(c.faultedChans j).isEmpty || (c.codeFault && c.codeJob == j)

/-- The steward clears a job's faults on a core (R302, R363), and its tile entries are freed (R295). -/
def State.clearCore (s : State) (m j : Nat) : State :=
  let s1 := ((s.coreAt m).faultedChans j).foldl (fun s ch => s.clearHaulFault m ch) s
  let s2 := if (s1.coreAt m).codeFault && (s1.coreAt m).codeJob == j then s1.setCstat m 0 else s1
  s2.onCore m fun c => { c with
    tiles := c.tiles.filter fun p => match p.2 with | some t => t.job != j | none => false
    xfers := c.xfers.filter fun x => x.job != j || x.state == .faulted || x.state == .discarded }

/-- The status a job ends with: one that would be DONE with a fault still held, or a struck command, ends FAULTED (R302, R325). -/
def State.finalStatus (s : State) (j : Job) : Status :=
  if j.state = .completing then (if j.struck || s.core.any fun p => p.2.holdsFault j.id then .faulted else .done) else j.status

/-- The completion value. -/
def wordOf (id : Nat) (st : Status) : W64 := BitVec.ofNat 64 (id * 2 ^ 32 + st.code)

/-- The deadline of a fallback record whose own is 0: the abandoned job's and its grace. DESIGN CHOICE: a sum beyond 64 bits, which R223 does not
speak of, is the latest deadline (log 35). -/
def fallbackDeadline (w3 : W64) (grace : Nat) : W64 := BitVec.ofNat 64 (min (w3.toNat + grace) (2 ^ 64 - 1))

/-- The fallback record of an abandoned job queued in its tree, if its policy asks for one (R223). DESIGN CHOICE: one that was abandoned and then ends
FAULTED or KILLED queues none (log 35). -/
def State.fallBack (s : State) (j : Job) (st : Status) : State :=
  if !(st == .abandonedUnstarted || st == .abandonedCut) || policyOf j.record != 2 || j.fallback then s
  else
    match s.engineRead schedCore j.root (fallbackVa j.record) 64 with
    | .error _ => s
    | .ok (bs, s1) =>
      let r := recordOf bs
      let s1 := s1.engineRequests schedCore schedulerStop j.root false [(fallbackVa j.record, 64)]
      match s1.prepare schedCore j.root r with
      | none => s1
      | some (list, s2) =>
        let r1 : JobRecord := { r with
          w3 := if r.w3 = 0 then fallbackDeadline j.record.w3 (graceOf j.record) else r.w3
          w6 := BitVec.ofNat 64 (j.tree * 2 ^ 32) }
        (s2.accept r1 j.root list j.ancestors j.tree).onJob s2.newId
          fun x => { x with fallback := true, notBefore := (s.dev.time.toNat / 32 + 1) * 32 }

/-- The value kept for a JDONE of the parent (R233). -/
def State.retain (s : State) (j : Job) (v : W64) : State :=
  s.onJob j.parent fun p => if p.retained.length < 256 then { p with retained := p.retained ++ [(j.id, v)] } else p

/-- The stage that a route's completion word reports, and its status (R226). -/
def RouteRun.report (r : RouteRun) : Nat × Status :=
  let bad := (r.statuses.zipIdx.filter fun x => x.1 != some Status.done).getLast?
  match bad with
  | some (some st, i) => (i, st)
  | _ => (r.statuses.length - 1, .done)

/-- The word of a route. -/
def routeWord (i : Nat) (st : Status) : W64 := BitVec.ofNat 64 (i * 256 + st.code)

/-- A stage has finished: its status is the route's, and the word of a route whose last stage this was is written (R226). DESIGN CHOICE: for a completion address of 0 there is no word, as R211 says of a job's (log 35). -/
def State.stageDone (s : State) (j : Job) (st : Status) : State :=
  match j.stage with
  | none => s
  | some (r, i) =>
    let s1 : State := { s with sched := { s.sched with routes := s.sched.routes.map fun x =>
      if x.id == r then { x with statuses := x.statuses.set i (some st) } else x } }
    match s1.sched.routes.find? fun x => x.id == r with
    | none => s1
    | some x =>
      if x.statuses.all Option.isSome then
        let s2 := if x.caddr = 0 then s1 else s1.schedStore x.root x.caddr (routeWord x.report.1 x.report.2)
        { s2 with sched := { s2.sched with routes := s2.sched.routes.filter fun y => y.id != r } }
      else s1

/-- A finished job's record freed; its id stays in use while its tree has an unfinished job (R212), and a slot no longer counts as its own (R87). -/
def State.freeJob (s : State) (j : Job) : State :=
  let rest := s.sched.jobs.filter fun x => x.id != j.id
  let past := if rest.any fun x => x.tree == j.tree then s.sched.past ++ [(j.tree, j.id)] else s.sched.past.filter fun p => p.1 != j.tree
  { s with
    sched := { s.sched with jobs := rest, past := past, choosing := true }
    core := s.core.map fun p => (p.1, { p.2 with slotJob := p.2.slotJob.filter fun x => x.2 != j.id }) }

/-- A job finishes: the release, its word, and what its end brings about. -/
def State.complete (s : State) (j : Job) : State :=
  let st := s.finalStatus j
  let v := wordOf j.id st
  let s1 := if caddrOf j.record = 0 then s else s.schedStore j.root (caddrOf j.record) v
  let s2 := (keysOf s1.core).foldl (fun s m => s.clearCore m j.id) s1
  (((s2.fallBack j st).retain j v).stageDone j st).freeJob j

/-- COMPLETION (R21). -/
def execCompletion (s : State) : Res :=
  match s.job? s.input.job.toNat with
  | none => .next s
  | some j => if s.completionDue j then .next (s.complete j) else .next s

end Sys2Proof.Machine
end

