-- ==== Sys2Proof/Machine/Sha.lean ====
section
/-! DEFINITION. SHAKE256 of a string of bytes, to 512 bits (30_system R397, R398): the sponge of FIPS 202, its lanes as numbers below 2^64 at
x + 5 y (log 11). -/

namespace Sys2Proof.Machine

/-- A lane rotated left. -/
def rotLane (v n : Nat) : Nat := (v <<< n) % 2 ^ 64 ||| v >>> (64 - n)

/-- How far each lane is rotated. -/
def laneTurns : List Nat := [0, 1, 62, 28, 27, 36, 44, 6, 55, 20, 3, 10, 43, 25, 39, 41, 45, 15, 21, 8, 18, 2, 61, 56, 14]

/-- The constants of the 24 rounds. -/
def roundConstants : List Nat :=
  [0x0000000000000001, 0x0000000000008082, 0x800000000000808A, 0x8000000080008000, 0x000000000000808B, 0x0000000080000001,
   0x8000000080008081, 0x8000000000008009, 0x000000000000008A, 0x0000000000000088, 0x0000000080008009, 0x000000008000000A]
  ++ [0x000000008000808B, 0x800000000000008B, 0x8000000000008089, 0x8000000000008003, 0x8000000000008002, 0x8000000000000080,
   0x000000000000800A, 0x800000008000000A, 0x8000000080008081, 0x8000000000008080, 0x0000000080000001, 0x8000000080008008]

/-- The first step of a round: each lane takes in the parities of two columns. -/
def mixColumns (a : List Nat) : List Nat :=
  let c := (List.range 5).map fun x => (List.range 5).foldl (fun v y => v ^^^ a.getD (x + 5 * y) 0) 0
  let d := (List.range 5).map fun x => c.getD ((x + 4) % 5) 0 ^^^ rotLane (c.getD ((x + 1) % 5) 0) 1
  a.zipIdx.map fun p => p.1 ^^^ d.getD (p.2 % 5) 0

/-- The second: each lane rotated, and moved to its place. -/
def moveLanes (a : List Nat) : List Nat :=
  (List.range 25).map fun t =>
    let i := (t % 5 + 3 * (t / 5)) % 5 + 5 * (t % 5)
    rotLane (a.getD i 0) (laneTurns.getD i 0)

/-- The third: each lane takes in the two that follow it in its row. -/
def mixRows (a : List Nat) : List Nat :=
  a.zipIdx.map fun p =>
    let at_ (n : Nat) : Nat := a.getD ((p.2 + n) % 5 + 5 * (p.2 / 5)) 0
    p.1 ^^^ ((2 ^ 64 - 1 ^^^ at_ 1) &&& at_ 2)

/-- The permutation: 24 rounds. -/
def permute (a : List Nat) : List Nat :=
  roundConstants.foldl (fun a rc =>
    match mixRows (moveLanes (mixColumns a)) with
    | [] => []
    | v :: vs => (v ^^^ rc) :: vs) a

/-- The bytes a block takes in. -/
def shakeRate : Nat := 136

/-- A message padded to whole blocks: the suffix of SHAKE256, and the last bit. -/
def shakePad (bs : List Byte) : List Byte :=
  let n := shakeRate - 1 - bs.length % shakeRate
  if n = 0 then bs ++ [0x9F] else bs ++ 0x1F :: List.replicate (n - 1) 0 ++ [0x80]

/-- Padded blocks taken in, as many as a number says. -/
def absorb : Nat → List Nat → List Byte → List Nat
  | 0, a, _ => a
  | n + 1, a, bs =>
    let lanes := (List.range 17).map fun i => leNat ((bs.drop (8 * i)).take 8)
    absorb n (permute (a.zipIdx.map fun p => p.1 ^^^ lanes.getD p.2 0)) (bs.drop shakeRate)

/-- SHAKE256, its first 64 bytes as a number, the first byte lowest. -/
def shake256 (bs : List Byte) : BitVec 512 :=
  let a := absorb (bs.length / shakeRate + 1) (List.replicate 25 0) (shakePad bs)
  BitVec.ofNat 512 ((List.range 8).foldr (fun i v => v * 2 ^ 64 + a.getD i 0) 0)

end Sys2Proof.Machine
end

