-- ==== Sys2Proof/Machine/HostEv.lean ====
section
/-! DEFINITION. The host link: command rings, packets, BAR0, the lock and the twin link (14 R225, R229; 30_system R391 to R396, R400). -/

namespace Sys2Proof.Machine

/-! ### Command rings (R391, R392) -/

/-- RBASE, RSIZE, RPROD and RCONS of a ring. -/
def Device.ringReg (d : Device) (r i : Nat) : W64 := Sparse.get 0 d.ring (4 * r + i)
def Device.setRingReg (d : Device) (r i : Nat) (v : W64) : Device := { d with ring := Sparse.set 0 d.ring (4 * r + i) v }

/-- The entries that a ring holds and the front end has not passed. -/
def Device.ringCount (d : Device) (r : Nat) : Nat := ((d.ringReg r 2).toNat + 2 ^ 32 - (d.ringReg r 3).toNat) % 2 ^ 32

/-- Word i of the packet at the head of a ring, in host memory (R98, R391). -/
def State.packetWord (s : State) (r i : Nat) : W64 :=
  let base := hostBase + bitsOf (s.dev.ringReg r 0) 6 41 * 64
  s.read64 (base + (((s.dev.ringReg r 3).toNat + i / 8) % 2 ^ bitsOf (s.dev.ringReg r 1) 0 5) * 64 + i % 8 * 8)

/-- NW of a packet. -/
def State.packetWords (s : State) (r : Nat) : Nat := bitsOf (s.packetWord r 0) 8 20

/-- The entries a packet takes. -/
def State.packetEntries (s : State) (r : Nat) : Nat := (1 + s.packetWords r + 7) / 8

/-- Whether a kind of packet permits its NW (R392). -/
def nwPermitted (kind nw : Nat) : Bool :=
  match kind with
  | 1 => nw == 4
  | 2 => nw == 8
  | 3 => decide (2 ≤ nw) && decide (nw ≤ 257)
  | 4 => decide (4 ≤ nw) && decide (nw ≤ 259)
  | 5 => nw == 1
  | _ => false

/-- Whether a ring holds a packet: all of it, or the first entry of one whose NW is not permitted, which is discarded (R392, log 37). -/
def State.hasPacket (s : State) (r : Nat) : Bool :=
  decide (0 < s.dev.ringCount r) &&
    (decide (s.packetEntries r ≤ s.dev.ringCount r) || !(nwPermitted (bitsOf (s.packetWord r 0) 0 8) (s.packetWords r)))

/-- The ring being served: the one whose slice it is, or the next that holds packets (R229). -/
def State.servedRing (s : State) : Option Nat :=
  ((List.range 16).map fun i => (s.dev.serving + i) % 16).find? s.hasPacket

/-- What the front end does with a packet. -/
inductive Packet where
  | route | job | write | signal | abandon | discard
deriving DecidableEq, Repr

/-- Whether some bytes lie wholly in LPDDR-6 and outside the locked carve-out (R392). -/
def State.writable (s : State) (pa n : Nat) : Bool :=
  pa % 8 == 0 && decide (pa + n ≤ lpddrTop) &&
    !(s.dev.locked && decide (0 < s.dev.csize.toNat % 1024)
      && decide (pa < bitsOf s.dev.cbase 21 27 * 2 ^ 21 + s.dev.csize.toNat % 1024 * 2 ^ 21)
      && decide (bitsOf s.dev.cbase 21 27 * 2 ^ 21 < pa + n))

/-- The data words of a WRITE or WRITE_SIGNAL packet. -/
def State.packetData (s : State) (r first : Nat) : Nat := s.packetWords r + 1 - first

/-- Whether a WRITE or WRITE_SIGNAL packet is as R392 allows. -/
def State.writeOk (s : State) (r first : Nat) : Bool :=
  let n := s.packetData r first
  let pa := s.packetWord r 1
  decide (first ≤ s.packetWords r) && decide (1 ≤ n) && decide (n ≤ 256) && bitsOf pa 48 16 == 0 && s.writable pa.toNat (8 * n)
    && (first == 2 || (bitsOf (s.packetWord r 2) 48 16 == 0 && s.writable (s.packetWord r 2).toNat 8))

/-- The record of a LAUNCH_JOB packet, and the root of the queue it names (R419). -/
def State.packetRecord (s : State) (r : Nat) : JobRecord := .ofWords fun i => s.packetWord r (1 + i)
def State.queueRoot (s : State) (r : JobRecord) : W64 := (s.dev.tables.jobQueues.getD (jqOf r) {}).root

/-- The fields of a template's header (R412). -/
def templateWord (t : Template) (i : Nat) : W64 := t.header.getD i 0
def templateCaddr (t : Template) : Nat := bitsOf (templateWord t 0) 17 47 * 8
def templateScope (t : Template) : Nat := bitsOf (templateWord t 0) 4 3
def templateStages (t : Template) : List JobRecord := t.records.take (bitsOf (templateWord t 0) 0 4 + 1)
def templateAllowances (t : Template) : List Nat := (List.range (bitsOf (templateWord t 0) 0 4)).map fun k => bitsOf (templateWord t (k + 1)) 0 6

/-- Whether words form a template: 1 to 8 stages, a scope from 1 to 4, allowances from 1 to 32 (R225, R412); DEDUCED that others are none (log 12). -/
def templateValid (t : Template) : Bool :=
  decide (bitsOf (templateWord t 0) 0 4 < 8) && decide (bitsOf (templateWord t 0) 0 4 < t.records.length) && decide (1 ≤ templateScope t) && decide (templateScope t ≤ 4)
    && (templateAllowances t).all fun a => decide (1 ≤ a) && decide (a ≤ 32)

/-- The template that a LAUNCH_ROUTE names. -/
def State.template (s : State) (r : Nat) : Option Template := (s.dev.tables.templates[(s.packetWord r 1).toNat]?).filter templateValid

/-- The packet's kind, where it is not discarded (R229, R392, R396). -/
def State.packet (s : State) (r : Nat) : Packet :=
  let w0 := s.packetWord r 0
  let nw := s.packetWords r
  if !(s.dev.locked && s.dev.ready) || bitsOf w0 28 36 != 0 then .discard
  else
    match bitsOf w0 0 8 with
    | 1 =>
      if nw = 4 ∧ bitsOf (s.packetWord r 1) 8 56 = 0 ∧ bitsOf (s.packetWord r 4) 32 32 = 0
          ∧ (s.template r).isSome then .route else .discard
    | 2 =>
      if nw = 8 ∧ !s.schedFull ∧ (s.prepare schedCore (s.queueRoot (s.packetRecord r)) (s.packetRecord r)).isSome then .job else .discard
    | 3 => if s.writeOk r 2 then .write else .discard
    | 4 => if s.writeOk r 4 then .signal else .discard
    | 5 => if nw = 1 ∧ bitsOf (s.packetWord r 1) 32 32 = 0 then .abandon else .discard
    | _ => .discard

/-- RCONS goes past a packet of n entries at the head of a ring, whose slice goes on. -/
def State.pastPacket (s : State) (r n : Nat) : State :=
  let cons := ((s.dev.ringReg r 3).toNat + n) % 2 ^ 32
  { s with dev := { s.dev.setRingReg r 3 (BitVec.ofNat 64 cons) with serving := r } }.freshen 1

/-- The packet at the head of the served ring, if it is of a kind: what it does, and RCONS past it. -/
def State.onPacket (s : State) (k : Packet) (go : Nat → State → State) : Res :=
  match s.servedRing with
  | none => .next s
  | some r => if s.packet r = k then .next ((go r s).pastPacket r (min (s.packetEntries r) (s.dev.ringCount r))) else .next s

/-! ### Packets (R225, R229) -/

/-- LAUNCH_JOB: the record accepted, with no parent. -/
def State.launchJob (s : State) (r : JobRecord) : State :=
  match s.prepare schedCore (s.queueRoot r) r with
  | none => s
  | some (list, s1) => (s1.accept r (s.queueRoot r) list [] 0).onJob s1.newId fun j => { j with hosted := true }

/-- LAUNCH_JOB (R229). -/
def execLaunchJob (s : State) : Res := s.onPacket .job fun r s => s.launchJob (s.packetRecord r)

/-- The stage records of a launch: the route's deadline and argument in each. -/
def stageRecords (t : Template) (deadline arg : W64) : List JobRecord := (templateStages t).map fun r => { r with w1 := arg, w3 := deadline }

/-- The lists of some records, or the index of the first invalid one. -/
def State.prepareAll (s : State) : Nat → List JobRecord → Except Nat (List (List Nat) × State)
  | _, [] => .ok ([], s)
  | i, r :: rs =>
    match s.prepare schedCore (s.queueRoot r) r with
    | none => .error i
    | some (l, s1) =>
      match s1.prepareAll (i + 1) rs with
      | .error e => .error e
      | .ok (ls, s2) => .ok (l :: ls, s2)

/-- The stages accepted in order, all in one tree. -/
def State.acceptStages (s : State) (route tree : Nat) : Nat → List (JobRecord × List Nat) → State
  | _, [] => s
  | i, (r, l) :: rs =>
    let t := if tree = 0 then s.newId else tree
    ((s.accept { r with w6 := BitVec.ofNat 64 (t * 2 ^ 32) } (s.queueRoot r) l [] t).onJob s.newId
      fun j => { j with hosted := true, stage := some (route, i) }).acceptStages route t (i + 1) rs

/-- LAUNCH_ROUTE: every stage is queued, or none when a record is invalid, and then the route's word holds FAULTED (R225, R226). -/
def State.launchRoute (s : State) (t : Template) (deadline arg : W64) (tree : Nat) : State :=
  let rs := stageRecords t deadline arg
  let root := s.queueRoot (rs.headD default)
  match s.prepareAll 0 rs with
  | .error i => if templateCaddr t = 0 then s else s.schedStore root (templateCaddr t) (routeWord i .faulted)
  | .ok (ls, s1) =>
    let id := s1.sched.nextRoute
    let r : RouteRun :=
      { id := id, stages := List.range rs.length, statuses := rs.map fun _ => none
        channels := (templateAllowances t).map fun a => { allowance := a }, caddr := templateCaddr t, scope := templateScope t, root := root }
    let s2 : State := { s1 with sched := { s1.sched with routes := s1.sched.routes ++ [r], nextRoute := id + 1 } }
    s2.acceptStages id tree 0 (rs.zip ls)

/-- LAUNCH_ROUTE (R225). -/
def execLaunchRoute (s : State) : Res :=
  s.onPacket .route fun r s =>
    match s.template r with
    | none => s
    | some t => s.launchRoute t (s.packetWord r 2) (s.packetWord r 3) (bitsOf (s.packetWord r 4) 0 32)

/-- The words of a WRITE stored. -/
def State.storeWords (s : State) (r first pa : Nat) : State :=
  (List.range (s.packetData r first)).foldl (fun t i => t.performNat (pa + 8 * i) 8 (s.packetWord r (first + i)).toNat) s

/-- WRITE (R229). -/
def execWritePacket (s : State) : Res := s.onPacket .write fun r s => s.storeWords r 2 (s.packetWord r 1).toNat

/-- WRITE_SIGNAL (R229): the data, then the signal. -/
def execWriteSignal (s : State) : Res :=
  s.onPacket .signal fun r s =>
    (s.storeWords r 4 (s.packetWord r 1).toNat).performNat (s.packetWord r 2).toNat 8 (s.packetWord r 3).toNat

/-- Every job of a tree abandoned (R222, R229). -/
def State.abandonTree (s : State) (tree : Nat) : State :=
  (s.sched.jobs.filter fun j => j.tree == tree && j.alive).foldl (fun s j =>
    match s.job? j.id with
    | some x => if x.alive then s.abandonOne x else s
    | none => s) s

/-- ABANDON_TREE (R229). -/
def execAbandonTree (s : State) : Res := s.onPacket .abandon fun r s => s.abandonTree (bitsOf (s.packetWord r 1) 0 32)

/-- Whether a discarded packet is a LAUNCH_JOB whose completion word is written all the same (R229). -/
def State.discardWord (s : State) (r : Nat) : Bool :=
  let j := s.packetRecord r
  s.dev.locked && s.dev.ready && bitsOf (s.packetWord r 0) 28 36 == 0 && bitsOf (s.packetWord r 0) 0 8 == 2 && s.packetWords r == 8
    && caddrOf j != 0 && decide (1 ≤ scopeOf j) && decide (scopeOf j ≤ 4)

/-- RERR counts a discarded packet (R391). -/
def Device.countError (d : Device) (r : Nat) : Device :=
  let n := min (bitsOf (Sparse.get 0 d.rerr r) 32 32 + 1) (2 ^ 32 - 1)
  { d with rerr := Sparse.set 0 d.rerr r (BitVec.ofNat 64 (n * 2 ^ 32 + (d.ringReg r 3).toNat % 2 ^ 32)) }

/-- DISCARDED_PACKET (R229). -/
def execDiscardedPacket (s : State) : Res :=
  s.onPacket .discard fun r s =>
    let j := s.packetRecord r
    let s1 := if s.discardWord r then s.schedStore (s.queueRoot j) (caddrOf j) (wordOf 0 .faulted) else s
    { s1 with dev := s1.dev.countError r }

/-- SLICE_EXPIRY (R229): the next ring is served. -/
def execSliceExpiry (s : State) : Res := .next ({ s with dev := { s.dev with serving := (s.dev.serving + 1) % 16 } }.freshen 1)

/-- RPROD written. -/
def State.ringBell (s : State) (r : Nat) (v : W64) : State := { s with dev := s.dev.setRingReg r 2 (BitVec.ofNat 64 (v.toNat % 2 ^ 32)) }

/-- DOORBELL (R391): the host's write of RPROD. -/
def execDoorbell (s : State) : Res := .next (s.ringBell (s.input.index.toNat % 16) s.input.value)

/-! ### Registers (R391, R395, R8) -/

/-- A host write at an offset of BAR0 to a register with no behaviour of its own. -/
def Device.barWrite (d : Device) (off : Nat) (v : W64) : Device :=
  if off = 0x28 then (if d.locked then d else { d with feaen := v &&& Config.feat0.setWidth 64 })
  else if off = 0x30 then (if d.locked then d else { d with cbase := BitVec.ofNat 64 (bitsOf v 21 27 * 2 ^ 21) })
  else if off = 0x38 then
    (if d.locked ∨ bitsOf v 0 10 = 0 ∨ 512 < bitsOf v 0 10 then d else { d with csize := BitVec.ofNat 64 (bitsOf v 0 10) })
  else if 0x1000 ≤ off ∧ off < 0x1200 ∧ off % 32 = 0 then d.setRingReg ((off - 0x1000) / 32) 0 (BitVec.ofNat 64 (bitsOf v 6 58 * 64))
  else if 0x1000 ≤ off ∧ off < 0x1200 ∧ off % 32 = 8 then
    (if 4 ≤ bitsOf v 0 5 ∧ bitsOf v 0 5 ≤ 16 then d.setRingReg ((off - 0x1000) / 32) 1 (BitVec.ofNat 64 (bitsOf v 0 5)) else d)
  else d

/-- What a host read of an aligned BAR0 register returns (R391). -/
def State.barRead (s : State) (off : Nat) : W64 :=
  let d := s.dev
  let map (w : Nat) : Nat := (List.range 64).foldl (fun v i => v + if (s.coreAt (64 * w + i)).fenced then 2 ^ i else 0) 0
  if off = 0 then BitVec.ofNat 64 ((if d.ready then 2 ^ 63 else 0) + (if d.recov then 2 ^ 62 else 0) + d.berr.toNat)
  else if off = 0x08 then Config.feat0.setWidth 64
  else if off = 0x28 then d.feaen
  else if off = 0x30 then d.cbase
  else if off = 0x38 then d.csize
  else if off = 0x40 then (if d.locked then 1 else 0)
  else if 0x48 ≤ off ∧ off ≤ 0x60 ∧ off % 8 = 0 then BitVec.ofNat 64 (map ((off - 0x48) / 8))
  else if 0x1000 ≤ off ∧ off < 0x1200 ∧ off % 8 = 0 then d.ringReg ((off - 0x1000) / 32) ((off - 0x1000) % 32 / 8)
  else if 0x2000 ≤ off ∧ off < 0x2080 ∧ off % 8 = 0 then Sparse.get 0 d.rerr ((off - 0x2000) / 8)
  else 0

/-- HSTAT_FAULT_CLEAR (R302). -/
def execHstatFaultClear (s : State) : Res := .next (s.clearHaulFault s.input.core.toNat (s.input.index.toNat % 4))

/-- CSTAT_FAULT_CLEAR (R363). -/
def execCstatFaultClear (s : State) : Res := .next (s.setCstat s.input.core.toNat 0)

/-- TFLAGS_CLEAR (R332): each of ERR and NV written 0. -/
def execTflagsClear (s : State) : Res := .next (s.setTflags s.input.core.toNat s.input.value)

/-! ### The lock, posted writes, fenced cores (R396, R398, R400) -/

/-- A hallmark extended with a digest (R398). -/
def Device.extend (d : Device) (k : Nat) (m : BitVec 512) : Device :=
  { d with hallmarks := Sparse.put d.hallmarks k (shake256 (leBytes 64 (Sparse.get 0 d.hallmarks k).toNat ++ leBytes 64 m.toNat)) }

/-- The carve-out locked: hallmarks 4 and 5 extended with the digests of its contents and of FEAEN, and the tables read. -/
def State.lock (s : State) : State :=
  let contents := s.readBytes (bitsOf s.dev.cbase 21 27 * 2 ^ 21) (s.dev.csize.toNat * 2 ^ 21)
  let d : Device := { s.dev with locked := true, tables := s.input.tables }
  { s with dev := (d.extend 4 (shake256 contents)).extend 5 (shake256 (leBytes 8 s.dev.feaen.toNat)) }

/-- A write to CLOCK: one of 0, or any once locked, is ignored. -/
def State.writeLock (s : State) (v : W64) : State := if s.dev.locked ∨ !(v.getLsbD 0) then s else s.lock

/-- LOCK (R396). -/
def execLock (s : State) : Res := .next (s.writeLock s.input.value)

/-- POSTED_WRITE (R396): applied before the lock; after it dropped, and reported. -/
def execPostedWrite (s : State) : Res :=
  if s.dev.locked then .next { s with dev := { s.dev with dropped := s.dev.dropped + 1 } }
  else if s.input.addr.toNat + s.input.bytes.length ≤ lpddrTop then .next (s.perform s.input.addr.toNat s.input.bytes)
  else .next s

/-- A fenced core acknowledged: it takes placements again. -/
def State.acknowledge (s : State) (m : Nat) : State :=
  if (s.coreAt m).fenced then
    { (s.onCore m fun c => { c with fenced := false }) with
      sched := { s.sched with choosing := true }
      dev := { s.dev with reported := s.dev.reported.filter (· != m) } }
  else s

/-- FENCED_ACKNOWLEDGE (R400). -/
def execFencedAcknowledge (s : State) : Res := .next (s.acknowledge s.input.core.toNat)

/-! ### Accesses to BAR0 (R391, R397) -/

/-- A host write of an aligned BAR0 register. -/
def State.barWrite (s : State) (off : Nat) (v : W64) : State :=
  if off = 0x40 then s.writeLock v
  else if 0x48 ≤ off ∧ off ≤ 0x60 then
    ((List.range 64).filter fun i => v.getLsbD i).foldl (fun s i => s.acknowledge (64 * ((off - 0x48) / 8) + i)) s
  else if 0x1000 ≤ off ∧ off < 0x1200 ∧ off % 32 = 16 then s.ringBell ((off - 0x1000) / 32) v
  else { s with dev := s.dev.barWrite off v }

/-- Whether an access to BAR0 is one that its registers take: of eight bytes, and aligned. -/
def barAligned (off size : Nat) : Bool := size == 8 && off % 8 == 0

/-- How a host's access completed. -/
def State.complete_ (s : State) (c : BarCompletion) : State := { s with dev := { s.dev with completion := c } }

/-- One image of the chain replaced: only while the device waits for one. -/
def Device.setImage (d : Device) (i : Nat) (f : Firmware) : Device :=
  if d.recov then { d with images := ((List.range 3).map fun k => d.images.getD k {}).set i f } else d

/-- REGISTER_WRITE (R391, R397, R53): the host's access through BAR0, or a steward's write of a control register of its core. -/
def execRegisterWrite (s : State) : Res :=
  match s.input.port with
  | .bar off n => .next (if barAligned off n then (s.barWrite off s.input.value).complete_ .written else s.complete_ .unsupported)
  | .barRead off n => .next (s.complete_ (if barAligned off n then .read (s.barRead off) else .unsupported))
  | .image i => .next { s with dev := s.dev.setImage i (s.input.boot.images.headD {}) }
  | .cr m n => if crAssigned n.toNat then .next (s.crWrite (4096 + m.toNat) n.toNat s.input.value) else .next s

/-! ### The twin link (R394) -/

/-- TWIN_LINK_UP. -/
def execTwinLinkUp (s : State) : Res := .next { s with dev := { s.dev with twinUp := true } }

/-- Whether a transfer is in flight through the twin window. -/
def Xfer.onTwin (x : Xfer) : Bool := x.state == .inFlight && x.spans.any fun r => inTwin r.1

/-- The cores that have an access through the window outstanding. -/
def State.twinCores (s : State) : List Nat :=
  let asks (m : Nat) : Bool := s.mesh.flight.any fun q => (q.src == m && q.dst == twinStop) || (q.src == twinStop && q.dst == m)
  (List.range 256).filter fun m => (s.coreAt m).xfers.any (·.onTwin) || asks m

/-- Loads of a context through the window whose results have not come return all ones. -/
def Ctx.loseTwin (c : Ctx) (now : Nat) : Ctx :=
  (c.late.filter fun l => decide (now < l.at_) && !(c.isCoord l.reg)).foldl (fun c l => match l.ones with | some v => c.wr l.reg v | none => c) c

/-- TWIN_LINK_DOWN (R394): what is outstanding through the window returns all ones, or performs or not, and each core's steward that had such an
access outstanding is sent a notice. -/
def execTwinLinkDown (s : State) : Res :=
  let hit := s.twinCores
  let s1 : State := { s with dev := { s.dev with twinUp := false } }
  let s2 := hit.foldl (fun s m => s.onCore m fun c =>
    { c with xfers := c.xfers.map fun x => if x.onTwin then { x with severed := true } else x }) s1
  let s3 := (s2.ctx.map (·.1)).foldl (fun s k => s.onCtx k fun c => c.loseTwin s.now) s2
  .next (hit.foldl (fun s m => s.sendFree { cls := .sys, kind := .twin, src := twinStop, dst := m, tag := s.mesh.tag }) s3)

end Sys2Proof.Machine
end

