-- ==== Sys2Proof/Machine/DevEv.lean ====
section
/-! DEFINITION. Reset and boot, measurements, power, and the mesh's own steps (05 R97, R104; 07 R118, R123, R124; 29 R385; 30_system R397 to
R402). -/

namespace Sys2Proof.Machine

/-! ### Reset and boot (R397, R398) -/

/-- The check of an image that fails first, by its BERR code: the signature, the digest, the rollback counter; 0 for none. DESIGN CHOICE: of several it is
the first in this order (log 11). -/
def firmwareFault (f : Firmware) (key : BitVec 456) (rollback : Nat) : Nat :=
  if f.signer ≠ key then 1 else if shake256 f.body ≠ f.digest then 2 else if f.version < rollback then 3 else 0

/-- The chain over some images, each signed by the key that the one before certified: how many pass, and the BERR code of the check that stops it. -/
def bootChain (rollback : Nat) : BitVec 456 → Nat → List Firmware → Nat × Nat
  | _, n, [] => (n, 0)
  | key, n, f :: fs => if firmwareFault f key rollback = 0 then bootChain rollback f.certifies (n + 1) fs else (n, firmwareFault f key rollback)

/-- The images that a reset finds: those that came with it, and where the chain has failed those that the device holds, with what has been written
through BAR0 since (R397). -/
def State.bootImages (s : State) : List Firmware :=
  (List.range 3).map fun i => (if s.dev.recov then s.dev.images else s.input.boot.images).getD i {}

/-- Hallmarks 0 to 3: the ROM's own digest, and those of the images that passed (R398). -/
def Device.measured (d : Device) (passed : Nat) : Device :=
  (Config.romDigest :: (d.images.take passed).map (·.digest)).zipIdx.foldl (fun d x => d.extend x.2 x.1) d

/-- A steward started by the boot chain. -/
def bootedSteward (b : BootImages) (m : Nat) : Ctx := { Ctx.steward m with hold := .ready, pc := b.entry.setWidth 50 }

/-- Every core's steward runs the steward image (R397). -/
def State.startStewards (s : State) (b : BootImages) : State :=
  (List.range 256).foldl (fun s m =>
    (s.setCtx (4096 + m) (bootedSteward b m)).onCore m fun c =>
      (c.crSet 0x807 (BitVec.ofNat 64 (bitsOf b.root 18 30 * 2 ^ 18))).crSet 0x800 (BitVec.ofNat 64 (bitsOf b.tvec 12 38 * 2 ^ 12))) s

/-- Every register at its reset value. Memory, the fuses, the steps to come and the free values stay (log 6). -/
def State.cleared (s : State) : State :=
  { State.reset with
    mem := s.mem, schedule := s.schedule, free := s.free, input := s.input
    dev := { State.reset.dev with rootKey := s.dev.rootKey, rollback := s.dev.rollback, images := s.bootImages } }

/-- RESET (R397): the boot chain runs, and starts the stewards, or stops at the first check that fails. -/
def execReset (s : State) : Res :=
  let s0 := s.cleared
  let (n, berr) := bootChain s.dev.rollback s.dev.rootKey 0 s.bootImages
  if berr ≠ 0 then .next { s0 with dev := { s0.dev.measured n with recov := true, berr := BitVec.ofNat 8 berr } }
  else .next { s0.startStewards s.input.boot with dev := { s0.dev.measured n with ready := true } }

/-! ### Measurements (R398, R399) -/

/-- GET_MEASUREMENTS: the eight hallmarks as one snapshot. -/
def execGetMeasurements (s : State) : Res :=
  .next { s with dev := { s.dev with spdm := (List.range 8).map fun k => Sparse.get 0 s.dev.hallmarks k } }

/-- SPDM_REQUEST (log 11). -/
def execSpdmRequest (s : State) : Res := .next { s with dev := { s.dev with spdm := Config.spdmAnswer s.input.bytes } }

/-- HALLMARK_EXTEND: the steward extends hallmark 6 or 7. -/
def execHallmarkExtend (s : State) : Res :=
  .next { s with dev := s.dev.extend (6 + s.input.index.toNat % 2) s.input.digest }

/-! ### Power (R218, R401, R402) -/

/-- The power that the running set would draw at the next higher tier: what is measured, with each running job's share at that tier in
place of its share now (log 30). -/
def State.projectedHigher (s : State) : Int :=
  let t := s.dev.tier.toNat
  let per (t : Nat) (j : Job) : Int := (((s.dev.tables.energy.getD t []).getD (eclassOf j.record) 0 * sizeOf_ j.record : Nat) : Int)
  (s.sched.jobs.filter fun j => j.state == .running).foldl (fun v j => v + per (t - 1) j - per t j) (s.dev.pmeas.toNat : Int)

/-- GOVERNOR_MEASUREMENT (R402): every 1 µs. -/
def execGovernorMeasurement (s : State) : Res :=
  let s1 : State := { s with dev := { s.dev with pmeas := s.input.num.setWidth 20 } }
  let within := decide (s1.projectedHigher ≤ (bitsOf (s1.dev.crGet 0x403) 0 20 : Int))
  .next { s1 with dev := { s1.dev with
    overruns := if 750000 < s1.dev.pmeas.toNat then s1.dev.overruns + 1 else 0
    within := if within then s1.dev.within + 1 else 0 } }

/-- The measured power has exceeded 750 W for 100 µs. -/
def State.powerExceeded (s : State) : Bool := decide (100 ≤ s.dev.overruns)

/-- POWER_EXCEEDED (R402). -/
def execPowerExceeded (s : State) : Res :=
  if s.powerExceeded then .next { s.dropTier with dev := { s.dropTier.dev with overruns := 0 } } else .next s

/-- The running set's power at the higher tier has stayed within the budget for 10 µs; no thermal hold stands. -/
def State.tierMayRise (s : State) : Bool :=
  decide (10 ≤ s.dev.within) && s.dev.tier != 0 && !s.dev.thermal && s.dev.switching == none

/-- TIER_RISE (R218). -/
def execTierRise (s : State) : Res :=
  if s.tierMayRise then .next { s with dev := { s.dev with switching := some (s.dev.tier - 1), within := 0 } } else .next s

/-- JUNCTION_TEMPERATURE (R402): 105 °C. -/
def execJunctionTemperature (s : State) : Res := .next { s with dev := { s.dev with thermal := true, switching := some 3 } }

/-- JUNCTION_COOLED (R402): below 95 °C. -/
def execJunctionCooled (s : State) : Res := .next { s with dev := { s.dev with thermal := false } }

/-- CLOCK_SWITCH (R401). -/
def execClockSwitch (s : State) : Res :=
  match s.dev.switching with
  | none => .next s
  | some t => .next { s with dev := { s.dev with tier := t, switching := none, within := 0 } }

/-- PATROL_SCRUB (R395): a line read and corrected, which software does not see. A struck one stands for an uncorrectable error that comes to a line in
its home cache, DESIGN CHOICE (log 22): it shows when the line is to be written back at a fence (R400). -/
def execPatrolScrub (s : State) : Res :=
  let line := s.input.addr.toNat / 32
  if s.input.struck && inLpddr (line * 32) then .next { s with dev := { s.dev with badLines := s.dev.badLines.filter (· != line) ++ [line] } }
  else .next s

/-! ### Invalidations (R104, R385) -/

/-- TRANSLATION_INVALIDATION (R104). DESIGN CHOICE: the SYS message that R118 gives an invalidation goes from the steward's core to the scheduler's
place (log 20). -/
def execTranslationInvalidation (s : State) : Res :=
  .next ((s.onCore s.input.core.toNat fun c => { c with tlb := [] }).send .sys s.input.core.toNat schedulerStop)

/-- INSTRUCTION_CACHE_INVALIDATION (R385): break bits are read again as lines are filled. -/
def execInstructionCacheInvalidation (s : State) : Res := .next (s.onCore s.input.core.toNat fun c => { c with breaks := [], lines := [] })

/-! ### Messages (R97, R118, R123, R124) -/

/-- Whether a mesh address is an L2 slice. -/
def isSlice (t : Nat) : Bool := decide (256 ≤ t) && decide (t < 320)

/-- Whether a line is being read from LPDDR-6. -/
def Mesh.awaits (m : Mesh) (line : Nat) : Bool := m.windows.any fun w => w.line == line

/-- A read that misses registers with the window of its line, or opens one; one that comes after a store to the line, or finds the window full,
is held and served as a hit (R97, R124). -/
def Mesh.register (m : Mesh) (line : Nat) (r : Message) : Mesh :=
  if m.awaits line then
    { m with windows := m.windows.map fun w =>
        if w.line != line then w
        else if w.joins && decide (w.readers.length < 32) then { w with readers := w.readers ++ [r] }
        else { w with held := w.held ++ [r] } }
  else { m with windows := m.windows ++ [{ line := line, readers := [r] }] }

/-- A store to a line closes its window (R97). -/
def Mesh.closeWindow (m : Mesh) (line : Nat) : Mesh :=
  { m with windows := m.windows.map fun w => if w.line == line then { w with joins := false } else w }

/-- The slice's read of a line from its LPDDR-6 channel (R96). -/
def State.readLine (s : State) (line : Nat) : State :=
  s.sendFree
    { kind := .line, src := edge (l2Slice (line * 256)), dst := channelStop (lpddrChannel (line * 256)), tag := s.mesh.tag, loc := line * 256 }

/-- Whether a channel has been asked for a line and its data are on their way. -/
def State.lineAsked (s : State) (line : Nat) : Bool := !(s.mesh.flight.any fun m => m.kind == .line && m.loc == line * 256)

/-- A line's written bytes go from its slice to its LPDDR-6 channel (R118). -/
def State.writeLine (s : State) (line mask : Nat) : State :=
  s.sendFree
    { kind := .command, src := edge (l2Slice (line * 256)), dst := channelStop (lpddrChannel (line * 256)), tag := s.mesh.tag
      loc := line * 256, wr := true, mask := mask }

/-- The bytes of a line that a store or a write-back brings to its slice merge by their mask (R97). DESIGN CHOICE: those of a line that the L2 neither
holds nor reads go on to LPDDR-6 (log 49). -/
def State.mergeLine (s : State) (m : Message) : State :=
  let line := m.loc / 256
  let mask := m.mask * 2 ^ (m.loc % 256)
  if s.mesh.present.contains line || s.mesh.awaits line then
    { s with mesh := { s.mesh.closeWindow line with dirty := Sparse.set 0 s.mesh.dirty line (Sparse.get 0 s.mesh.dirty line ||| mask) } }
  else s.writeLine line mask

/-- A request arrives: it is answered, or waits with its line at the L2 (R97, R118). Its access has performed (log 3). A command is not answered, nor
a slice's read of a line before its data return. -/
def State.takeRequest (s : State) (m : Message) : State :=
  let s1 := s.dropMsg m
  let line := m.loc / 256
  if m.kind ≠ .plain then s1
  else if isSlice m.dst && inLpddr m.loc && !m.wr && !(s.mesh.present.contains line) then
    let s2 : State := { s1 with mesh := s1.mesh.register line m }
    if s1.mesh.awaits line then s2 else s2.readLine line
  else (if m.wr && isSlice m.dst && inLpddr m.loc then s1.mergeLine m else s1).reply m

/-- REQ (R118). -/
def execReq (s : State) : Res :=
  match s.oldestOf .req with
  | none => .next s
  | some m => .next (s.takeRequest m)

/-- Whether a reply names readers on more cores than one. DESIGN CHOICE: a reply to the readers of one core is no multicast (log 20). -/
def Message.isMulticast (m : Message) : Bool := m.readers.any fun r => r.core != m.dst

/-- The sender of a pair receives a RETRY: it clears its copy and sends every MSG message of the pair whose receipt has not been acknowledged again, in
the order they were sent, the first with RST (R123). Those sent meanwhile were discarded by the receiver. -/
def State.resend (s : State) (src dst : Nat) : State :=
  let own (m : Message) : Bool := m.cls == .msg && m.src == src && m.dst == dst
  let again := s.mesh.flight.filter own
  let s1 : State := { s with mesh := { s.mesh with flight := s.mesh.flight.filter fun m => !(own m) } }
  again.foldl (fun s m => s.sendBytesMsg m.kind m.key src dst m.raw m.words)
    (s1.onDict src dst fun p => { p with sender := List.replicate 8 0, sendP := 0, rst := true })

/-- RSP (R118): consumed without waiting for anything; each copy of a multicast counts at its core (R124, R125), and a RETRY reaches the sender of its
pair (R123). -/
def execRsp (s : State) : Res :=
  match s.oldestOf .rsp with
  | none => .next s
  | some m =>
    .next (if m.kind = .retry then (s.dropMsg m).resend m.dst m.src
      else if m.isMulticast ∧ m.dst < 256 then (s.dropMsg m).onCore m.dst fun c => c.crAdd 0x309 1
      else s.dropMsg m)

/-- The lines an L2 slice holds: 1.5 MiB of 256 bytes (R16). -/
def sliceLines : Nat := 6144

/-- A line enters its slice, which gives up another when it is full, its written bytes to LPDDR-6: which one, the spec does not say, and it is free
(R16, log 49). -/
def State.enterLine (s : State) (line : Nat) : State :=
  let own := s.mesh.present.filter fun l => l2Slice (l * 256) == l2Slice (line * 256)
  if own.length < sliceLines then { s with mesh := { s.mesh with present := s.mesh.present ++ [line] } }
  else
    let old := own.getD (Config.victim s.free % sliceLines) line
    let mask := Sparse.get 0 s.mesh.dirty old
    let s1 : State := { s with mesh := { s.mesh with
      present := s.mesh.present.erase old ++ [line], dirty := Sparse.set 0 s.mesh.dirty old 0 } }
    (if mask = 0 then s1 else s1.writeLine old mask).freshen 1

/-- An access that LPDDR-6 has served, counted at its core as event 10 (R384). -/
def State.servedByLpddr (s : State) (r : Message) : State :=
  if r.src < 256 then s.tally r.src (r.key.getD (s.lastOn r.src)) 10 1 else s

/-- The data of a line return: one reply names every registered reader, the requests held meanwhile are served as hits, and the L2 holds the line
(R97, R124). -/
def State.returnLine (s : State) (w : MergeWindow) : State :=
  let s1 : State := { s with mesh := { s.mesh with windows := s.mesh.windows.filter fun v => v.line != w.line } }
  let s2 := w.readers.foldl (fun s r => s.servedByLpddr r) s1
  (w.held.foldl State.reply (s2.multicast w.readers)).enterLine w.line

/-- LPDDR6_READ_RETURN (R97). -/
def execLpddr6ReadReturn (s : State) : Res :=
  let line := s.input.addr.toNat / 256
  match s.mesh.windows.find? fun w => w.line == line with
  | some w => if s.lineAsked line then .next (s.returnLine w) else .next s
  | none => .next s

/-- A receiver found a parity error in the message it decodes: its copy is cleared, a RETRY goes back on RSP, and it discards every MSG message of
the pair until one with RST arrives (R123). The sender keeps the messages, which is why they stay in flight until the RETRY reaches it. -/
def State.retry (s : State) (src dst : Nat) : State :=
  ((s.onDict src dst fun p => { p with receiver := List.replicate 8 0, recvP := 0, discarding := true }).onCore dst
    fun c => c.crAdd 0x308 1).sendFree { cls := .rsp, kind := .retry, src := dst, dst := src, tag := s.mesh.tag }

/-- RETRY (R123): from the core of input.core to the sender of input.index, while it has a message of the pair to decode and does not discard. -/
def execRetry (s : State) : Res :=
  let src := s.input.index.toNat % 256
  let dst := s.input.core.toNat
  match s.firstMsg .msg src dst with
  | some m => if m.rst ∨ !(s.dict src dst).discarding then .next (s.retry src dst) else .next s
  | none => .next s

end Sys2Proof.Machine
end

