-- ==== Sys2Proof/Machine/Fh.lean ====
section
/-! DEFINITION. The fronthaul ports: records, windows, sends, and their instructions (24_fronthaul R342 to R353, R420). -/

namespace Sys2Proof.Machine

/-- Whether a record is as R345 allows. -/
def FhItem.valid (r : FhItem) : Bool :=
  let f := r.fields
  bitsOf (r.w 0) 0 10 == 0 && bitsOf (r.w 1) 0 12 == 0 && decide (f.subf ≤ 9) && decide (f.sym0 ≤ 13) && decide (1 ≤ f.nsym)
    && decide (f.sym0 + f.nsym ≤ 14) && decide (f.mode ≤ if r.isSend then 1 else 2)
    && (f.width == 0 || f.width == 9 || f.width == 12 || f.width == 14) && f.off % 64 == 0
    && (if r.isSend && f.mode == 1 then decide (1 ≤ f.nprb) && decide (f.nprb ≤ 4096)
        else decide (1 ≤ f.nprb) && decide (f.nprb ≤ 273) && decide (f.prb0 + f.nprb ≤ 273))
    && (if r.isSend then r.w 3 == 0 else decide (r.start < r.stop))

/-- Whether a port, or its half, is configured: its link is up (R420, R395). -/
def State.linkUp (s : State) (port half : Nat) : Bool :=
  match s.dev.tables.ports[port]? with
  | none => false
  | some p => p.enabled && (half == 0 || (p.split && s.dev.feaen.getLsbD 1))

/-- Whether the port, and its half, are configured, and for the record's width (R420). -/
def State.fhConfigured (s : State) (f : FhFields) : Bool :=
  s.linkUp f.port f.half
    && match (s.dev.tables.ports.getD f.port {}).widths.getD f.half none with
       | none => true
       | some w => w == f.width

/-- Whether a record's bytes lie within its tile (R351). -/
def State.fhFits (s : State) (r : FhItem) (t : Tile) : Bool :=
  let f := r.fields
  if r.isSend && f.mode == 1 then (s.rawFrames (tileLoc r.core t) t.len f.nprb f.off).1
  else decide (f.off + f.bytes r.isSend ≤ t.len)

/-- Whether a window can be matched at a time: until 1 ms after it closed (R347). -/
def FhItem.matchable (f : FhItem) (t : Nat) : Bool := !f.gone && (f.state != .closed || decide (t < f.closedAt + 1000000))

/-- The windows, or the sends, of a port that are in use (R351). -/
def State.portUse (s : State) (port : Nat) (isSend : Bool) : Nat :=
  s.core.foldl (fun n p => n + (p.2.fh.filter fun f =>
    f.isSend == isSend && f.fields.port == port && (if isSend then f.state != .sent else f.matchable s.dev.time.toNat)).length) 0

/-! ### FHARM and FHSEND (R351) -/

/-- The record of an FHARM or FHSEND. -/
def State.fhRecord (s : State) (p : Place) (isSend : Bool) (tile : Nat) : FhItem where
  core := s.myCore
  key := s.cur
  job := s.me.job
  handle := (s.coreAt s.myCore).fhNext
  isSend := isSend
  words := (List.range 4).map fun i => s.read64 (p.loc + 8 * i)
  tile := tile
  state := if isSend then .queued else .armed
  order := s.dev.fhOrder

/-- The window or send entered, with its tile taken. -/
def State.enterFh (s : State) (d : BitVec 5) (r : FhItem) : Res :=
  let pc := s.me.pc.toNat
  let s1 := s.onTile r.core r.tile fun t =>
    if r.isSend then { t.take .draining 2 with by_ := pc } else { t.take .filling 2 with arr := 0, by_ := pc }
  let s2 := s1.onCore r.core fun c => { c with fhNext := c.fhNext + 1, fh := c.fh ++ [r] }
  let s3 : State := { s2 with dev := { s2.dev with fhOrder := s2.dev.fhOrder + 1 } }
  (s3.command r.core (portStop r.fields.port)).done d (BitVec.ofNat 64 r.handle)

/-- FHARM and FHSEND. -/
def State.fh (s : State) (isSend : Bool) (d a b : BitVec 5) : Res :=
  let va := ea (s.rd a)
  let id := (s.rd b).toNat % 64
  if s.coordDest d then s.illegal
  else
    match s.tile? s.myCore id s.me.job with
    | none => s.trap .tileEmpty 0
    | some t =>
      if t.state = .empty then s.trap .tileEmpty 0
      else
        match s.request va 8 32 .read with
        | .error c => s.trapAt c va
        | .ok (p, s1) =>
          if t.busy then s1.waitTile t
          else
            match s1.anyVectorMemory with
            | some e => s1.waitOn e.pc.toNat
            | none =>
              let r := s1.fhRecord p isSend id
              let s2 := s1.requestLines r.core (some s1.cur) false [(p, 32)]
              if !r.valid ∨ !(s1.fhConfigured r.fields) ∨ !(s1.fhFits r t) then s2.done d (status 6)
              else if 64 ≤ s1.portUse r.fields.port isSend then s2.done d (status 2)
              else s2.enterFh d r

/-- FHARM (R351). -/
def execFharm (d a b : BitVec 5) (s : State) : Res := s.fh false d a b
/-- FHSEND (R351). -/
def execFhsend (d a b : BitVec 5) (s : State) : Res := s.fh true d a b

/-! ### FHSTAT (R352) -/

/-- The numbers of the states. -/
def FhState.number : FhState → Nat
  | .armed => 1
  | .opened => 2
  | .closed => 3
  | .queued => 4
  | .sending => 5
  | .sent => 6

/-- ARR of a window, or the bytes a send has sent. -/
def FhItem.count (f : FhItem) : Nat := if f.isSend then f.sent else f.slots.length * f.fields.z

/-- The status word. -/
def FhItem.word (f : FhItem) : W64 :=
  BitVec.ofNat 64 (f.state.number * 2 ^ 60 + (if f.late then 2 ^ 59 else 0) + f.count % 2 ^ 32)

/-- FHSTAT (R352): a core keeps its 128 most recent handles. -/
def execFhstat (d a : BitVec 5) (s : State) : Res :=
  if s.coordDest d then s.illegal
  else
    let c := s.coreAt s.myCore
    let h := (s.rd a).toNat
    match (if c.fhNext ≤ h + 128 then c.fh.find? fun f => f.handle == h else none) with
    | none => s.done d (status 7)
    | some f => s.done d f.word

/-- Items that nothing asks for any more are forgotten. -/
def Core.trimFh (c : Core) : Core :=
  { c with fh := c.fh.filter fun f => decide (c.fhNext ≤ f.handle + 128) || (if f.isSend then f.state != .sent else !f.gone) }

/-! ### Windows (R346 to R348) -/

/-- The number some bytes hold, big-endian. -/
def beNat (bs : List Byte) : Nat := bs.foldl (fun n b => 256 * n + b.toNat) 0

/-- Part i of the 24 parts of a PRB as received, its value and whether it was clamped (R346). The mantissas follow one another from the most
significant bit on (log 29). -/
def prbPart (width : Nat) (bs : List Byte) (i : Nat) : Int × Bool :=
  if width = 0 then (readInt true 16 (beNat ((bs.drop (2 * i)).take 2)), false)
  else
    let e := (bs.headD 0).toNat % 16
    let body := (bs.drop 1).take (3 * width)
    let code := beNat body / 2 ^ (width * (23 - i)) % 2 ^ width
    clampInt true 16 (readInt true width code * 2 ^ e)

/-- The bytes a slot receives, and how many parts were clamped. -/
def slotData (f : FhFields) (bs : List Byte) : List Byte × Nat :=
  if f.mode = 1 then (bs.take 64, 0)
  else
    let ps := (List.range 24).map (prbPart f.width bs)
    (ps.flatMap fun p => leBytes 2 (truncInt p.1 16), (ps.filter (·.2)).length)

/-- The receive timestamp of a frame, to the nanosecond: how far it stands past the last tick comes with the step (R342, R343). -/
def State.stamp (s : State) : Nat := s.dev.time.toNat + s.input.num.toNat % (32 - s.dev.time.toNat % 32)

/-- Whether a window takes a symbol and PRB of a section received at a time (R347). -/
def FhItem.matches (w : FhItem) (f : FhFields) (prb t : Nat) : Bool :=
  let g := w.fields
  !w.isSend && w.arrived && w.matchable t && g.port == f.port && g.half == f.half && g.eaxc == f.eaxc && g.frame == f.frame
    && g.subf == f.subf && g.slot == f.slot && decide (g.sym0 ≤ f.sym0) && decide (f.sym0 < g.sym0 + g.nsym)
    && decide (g.prb0 ≤ prb) && decide (prb < g.prb0 + g.nprb) && ((g.mode == 2) == (f.mode == 2))

/-- The window that takes a PRB: the one armed first. -/
def State.windowFor (s : State) (f : FhFields) (prb : Nat) : Option FhItem :=
  let all := (s.core.flatMap fun p => p.2.fh).filter fun w => w.matches f prb s.stamp
  match all with
  | [] => none
  | w :: ws => some (ws.foldl (fun b v => if v.order < b.order then v else b) w)

/-- A counter of R344 raised on a core. -/
def State.fhCount (s : State) (m n k : Nat) : State := s.onCore m fun c => c.crAdd n k

/-- A window closed at a time (R348). -/
def State.closeWindow (s : State) (w : FhItem) (t : Nat) : State :=
  (s.onFh w.core w.handle fun f =>
    { f with state := .closed, late := decide (f.slots.length * f.fields.z < f.fields.bytes false), closedAt := t }).onTile
    w.core w.tile Tile.release

/-- PRBs that match no window are reported to the steward (R347, step 1). -/
def State.reportPrbs (s : State) (n : Nat) : State := { s with dev := { s.dev with prbReports := s.dev.prbReports + n } }

/-- One PRB of a section that is not dropped (R347, steps 1 and 3 to 6). -/
def State.takePrb (s : State) (f : FhFields) (prb : Nat) (bs : List Byte) : State :=
  match s.windowFor f prb with
  | none => s.reportPrbs 1
  | some w =>
    let g := w.fields
    let slot := (f.sym0 - g.sym0) * g.nprb + (prb - g.prb0)
    let t := s.stamp
    if t < w.start then s.fhCount w.core 0x34A 1
    else if w.stop ≤ t then s.fhCount w.core 0x349 1
    else if w.slots.contains slot then s.fhCount w.core 0x34B 1
    else if w.state = .closed then s.fhCount w.core 0x349 1
    else
      match Sparse.get none (s.coreAt w.core).tiles w.tile with
      | none => s
      | some tile =>
        let (data, sat) := slotData g bs
        let s1 := (s.perform (tileLoc w.core tile + g.off + slot * g.z) data).onTile w.core w.tile
          fun t => { t with arr := arrAdd t.arr g.z }
        let s2 := ((s1.onFh w.core w.handle fun w => { w with slots := w.slots ++ [slot] }).fhCount w.core 0x348 1).fhCount w.core 0x34D sat
        if (w.slots.length + 1) * g.z < g.bytes false then s2
        else s2.closeWindow { w with slots := w.slots ++ [slot] } t

/-- The window of the lowest PRB whose width a section contradicts (R347, step 2). -/
def State.badHeader (s : State) (f : FhFields) (prbs : List Nat) : Option FhItem :=
  (prbs.filterMap fun p => match s.windowFor f p with | some w => if w.fields.width = f.width then none else some w | none => none).head?

/-- A received section (R347), on a link that is up: one that a window's width contradicts is dropped, but for the report of what matches none. -/
def State.section_ (s : State) (u : UPlane) : State :=
  let f := fhFields u.w0 u.w1
  let ps := u.prbs.zipIdx.map fun p => (f.prb0 + p.2, p.1)
  if !(s.linkUp f.port f.half) then s
  else match s.badHeader f (ps.map (·.1)) with
  | some w => (s.reportPrbs (ps.filter fun p => (s.windowFor f p.1).isNone).length).fhCount w.core 0x34C 1
  | none => ps.foldl (fun s p => s.takePrb f p.1 p.2) s

/-! ### Sends (R349) -/

/-- Whether a send is leaving on the line of another: a port, or a half of a split one, puts out one at a time. -/
def FhItem.sameLine (a b : FhItem) : Bool := a.isSend && b.isSend && a.fields.port == b.fields.port && a.fields.half == b.fields.half
def State.lineBusy (s : State) (f : FhItem) : Bool := s.core.any fun p => p.2.fh.any fun g => g.state == .sending && g.sameLine f

/-- PORT_ARRIVAL: the item reaches its port; sends of one LAUNCH leave in the order in which they do, and one whose LAUNCH has passed leaves at once,
or as soon as its line is free, and late (R349, R351). -/
def State.portArrival (s : State) (f : FhItem) : State :=
  let passed := f.isSend && f.start != 0 && decide (f.start < s.dev.time.toNat)
  let n := s.dev.fhOrder
  let s0 : State := { s with dev := { s.dev with fhOrder := n + 1 } }
  let s1 := s0.onFh f.core f.handle fun g =>
    if f.isSend then
      { g with arrived := true, late := passed, order := n, launchedAt := s.dev.time.toNat
               state := if passed ∧ !(s.lineBusy f) then .sending else g.state }
    else { g with arrived := true }
  if passed then s1.fhCount f.core 0x34E 1 else s1

/-- SEND_FINISH: the last byte has left, and the tile is READY; a frame of a bad length ends the send before it, with LATE clear. -/
def State.finishSend (s : State) (f : FhItem) : State :=
  let data := s.sendData f
  let cut := f.fields.mode == 1 && decide (data.length < f.fields.nprb)
  let s1 := (s.putOut f data).onFh f.core f.handle fun g => { g with state := .sent, late := g.late && !cut }
  (s1.onTile f.core f.tile Tile.release).onCore f.core Core.trimFh

end Sys2Proof.Machine
end

