-- ==== Sys2Proof/Machine/Haul.lean ====
section
/-! DEFINITION. The haul engine and the tile instructions (20_haul R295 to R308). -/

namespace Sys2Proof.Machine

/-! ### HAUL and HAULNB (R297, R306) -/

/-- Commands in the FIFO: those that have not started (R298). -/
def Core.fifo (c : Core) : Nat := (c.xfers.filter fun x => x.state == .waiting).length

/-- Whether a reserved bit of a request is set (R297). -/
def requestReserved (w0 w1 w2 w3 : W64) : Bool :=
  bitsOf w0 50 14 != 0 || bitsOf w1 6 58 != 0 || bitsOf w2 20 44 != 0 || bitsOf w3 16 16 != 0 || bitsOf w3 1 11 != 0

/-- A transfer with its request read, or the code of what is wrong with the request (R297, R301). A request that cannot be read has no class
and no tile. -/
def State.readRequest (s : State) (m : Nat) (x : Xfer) : Xfer × State :=
  if x.addr.toNat % 8 ≠ 0 then ({ x with code := 1, cls := 16, tile := 64 }, s)
  else
    match s.engineRead m x.root x.addr.toNat 32 with
    | .error c =>
      ({ x with code := faultCode c, cls := 16, tile := 64 }, s.walkFaulting m x.root .read (enginePieces (spanFuel 32) x.addr.toNat 32))
    | .ok (bs, s1) =>
      let w (i : Nat) : W64 := BitVec.ofNat 64 (leNat ((bs.drop (8 * i)).take 8))
      ({ x with
          mem := bitsOf (w 0) 0 50, tile := bitsOf (w 1) 0 6, len := bitsOf (w 2) 0 20, toff := bitsOf (w 3) 32 32
          cls := bitsOf (w 3) 12 4, drain := (w 3).getLsbD 0
          code := if requestReserved (w 0) (w 1) (w 2) (w 3) then 6 else 0 },
        s1.engineRequests m m x.root false (enginePieces (spanFuel 32) x.addr.toNat 32))

/-- A command entered, with the next id of its channel (R298, R306). The request is read now: nothing orders the read later (R299). -/
def State.enterXfer (s : State) (a b : BitVec 5) (d : BitVec 5) : Res :=
  let m := s.myCore
  let ch := (s.rd b).toNat % 4
  let id := (s.chanAt m ch).next
  let x : Xfer :=
    { chan := ch, id := id, addr := (s.rd a).setWidth 50, pc := s.me.pc.toNat, key := s.cur, job := s.me.job, root := s.rootOf s.cur }
  let (x1, s1) := s.readRequest m x
  let s2 := s1.onCore m fun c => { c with xfers := c.xfers ++ [x1] }
  (s2.onChan m ch fun c => { c with next := id + 1 }).done d (BitVec.ofNat 64 id)

/-- HAUL and HAULNB: they wait for every queued vector access (R131); on a full FIFO a HAUL is held at a pre-emption point and a HAULNB
returns FULL (R306). -/
def State.haul (s : State) (hold : Bool) (d a b : BitVec 5) : Res :=
  if s.coordDest d then s.illegal
  else
    match s.anyVectorMemory with
    | some e => s.waitOn e.pc.toNat
    | none =>
      if 16 ≤ (s.coreAt s.myCore).fifo then (if hold then s.waitPoint else s.done d (status 2)) else s.enterXfer a b d

/-- HAUL (R306). -/
def execHaul (d a b : BitVec 5) (s : State) : Res := s.haul true d a b
/-- HAULNB (R306). -/
def execHaulnb (d a b : BitVec 5) (s : State) : Res := s.haul false d a b

/-! ### HMILE and HWAIT (R307) -/

/-- HMILE (R307). -/
def execHmile (d a : BitVec 5) (s : State) : Res :=
  if s.coordDest d then s.illegal
  else
    let ch := (s.rd a).toNat % 4
    s.done d (BitVec.ofNat 64 ((if (s.chanAt s.myCore ch).fault then 2 ^ 63 else 0) + s.milestone s.myCore ch % 2 ^ 63))

/-- HWAIT (R307): HAUL for an id never issued, and at or above a faulting id. -/
def execHwait (a b : BitVec 5) (s : State) : Res :=
  let m := s.myCore
  let ch := (s.rd a).toNat % 4
  let i := (s.rd b).toNat
  let c := s.chanAt m ch
  if c.next ≤ i then s.trap .haul (s.rd b)
  else if c.fault && decide (c.fid ≤ i) then s.trap .haul (BitVec.ofNat 64 c.fid)
  else if i < s.milestone m ch then .next s.advance
  else s.waitPoint

/-! ### The tile instructions (R308) -/

/-- TDEF, TSET and TFREE wait until every HAUL of the strand before them has started (R308). -/
def State.afterHauls (s : State) (d : BitVec 5) (go : Res) : Res :=
  if s.coordDest d then s.illegal
  else if (s.coreAt s.myCore).xfers.any fun x => x.key == s.cur && x.job == s.me.job && x.state == .waiting then s.wait
  else go

/-- The offset of an address in the executing core's window, by that window or the own core alias. -/
def windowOffset (m : Nat) (va : Nat) : Option Nat :=
  if coreWindow + m * 2 ^ 24 ≤ va ∧ va < coreWindow + (m + 1) * 2 ^ 24 then some (va - (coreWindow + m * 2 ^ 24))
  else if coreAlias ≤ va ∧ va < coreAlias + 2 ^ 24 then some (va - coreAlias)
  else none

/-- Whether OFF and LEN are as R295 allows. -/
def tileFits (off len : Nat) : Bool :=
  decide (0x40000 ≤ off) && decide (off ≤ 0xBFFC0) && decide (off % 64 = 0) && decide (64 ≤ len) && decide (len ≤ 524288)
    && decide (len % 64 = 0) && decide (off + len ≤ 0xC0000)

/-- Whether a region overlaps a defined tile. -/
def Core.tileOverlaps (c : Core) (off len : Nat) : Bool :=
  c.tiles.any fun p => match p.2 with | some t => decide (off < t.off + t.len) && decide (t.off < off + len) | none => false

/-- The lowest id with no entry. -/
def Core.freeTile (c : Core) : Option Nat := (List.range 64).find? fun i => Sparse.get none c.tiles i == none

/-- TDEF (R308); an address in the private window traps PROT (R86). -/
def execTdef (d a b : BitVec 5) (s : State) : Res :=
  s.afterHauls d (
    let m := s.myCore
    let len := bitsOf (s.rd b) 0 20
    if privateVa (ea (s.rd a)) then s.trapAt .prot (ea (s.rd a))
    else
    match windowOffset m (ea (s.rd a)) with
    | none => s.done d (status 6)
    | some off =>
      if !(tileFits off len) || bitsOf (s.rd b) 20 43 != 0 || (s.coreAt m).tileOverlaps off len then s.done d (status 6)
      else
        match (s.coreAt m).freeTile with
        | none => s.done d (status 2)
        | some id =>
          let t : Tile := { off := off, len := len, state := if (s.rd b).getLsbD 63 then .ready else .empty, job := s.me.job }
          (s.setTile m id (some t)).done d (BitVec.ofNat 64 id))

/-- The numbers of the states (R295). -/
def TileState.number : TileState → Nat
  | .empty => 0
  | .filling => 1
  | .ready => 2
  | .draining => 3

/-- The state word (R308). -/
def Tile.word (t : Tile) : W64 :=
  BitVec.ofNat 64 (t.len * 2 ^ 32 + t.arr * 2 ^ 12 + t.owner * 2 ^ 4 + t.state.number)

/-- TSTAT (R308). -/
def execTstat (d a : BitVec 5) (s : State) : Res :=
  if s.coordDest d then s.illegal
  else
    match s.tile? s.myCore ((s.rd a).toNat % 64) s.me.job with
    | none => s.done d (status 7)
    | some t => s.done d t.word

/-- TSET (R308): a move to READY is a release, and waits for every queued vector access (R110). -/
def execTset (d a b : BitVec 5) (s : State) : Res :=
  s.afterHauls d (
    let m := s.myCore
    let id := (s.rd a).toNat % 64
    let new := (s.rd b).toNat % 4
    match s.tile? m id s.me.job with
    | none => s.done d (status 7)
    | some t =>
      if (new ≠ 0 ∧ new ≠ 2) ∨ t.state = .draining ∨ (t.state = .filling ∧ (t.owner ≠ 1 ∨ s.tileXfers m id false ≠ 0)) then
        s.done d (status 6)
      else
        match (if new = 2 then s.anyVectorMemory else none) with
        | some e => s.waitOn e.pc.toNat
        | none =>
        (s.setTile m id (some (if new = 0 then { t with state := .empty, owner := 0, arr := 0 } else t.release))).done d t.word)

/-- TFREE (R308). -/
def execTfree (d a : BitVec 5) (s : State) : Res :=
  s.afterHauls d (
    let m := s.myCore
    let id := (s.rd a).toNat % 64
    match s.tile? m id s.me.job with
    | none => s.done d (status 7)
    | some t => if t.busy then s.done d (status 6) else (s.setTile m id none).done d 0)

/-! ### Transfers at work (R296, R298, R300, R301) -/

/-- The transfers of a core before one, in order of issue. -/
def Core.earlier (c : Core) (x : Xfer) : List Xfer := c.xfers.takeWhile fun y => !(y.chan == x.chan && y.id == x.id)

/-- Whether class order lets a transfer start: every earlier one of the strand, of the same job, with its class, or with class 15, has completed
(R298). -/
def Core.classOrder (c : Core) (x : Xfer) : Bool :=
  (c.earlier x).all fun y => y.key != x.key || y.job != x.job || y.state == .finished || !(y.cls == x.cls || y.cls == 15 || x.cls == 15)

/-- What a start does with the tile (R296). -/
inductive TileStart where
  | none | waits | fill | joins | drain
  /-- a fault recorded later, with no tile moved -/
  | fault (code : Nat)
deriving DecidableEq, Repr

/-- The start of a transfer as its tile permits it. -/
def tileStart (t : Option Tile) (x : Xfer) : TileStart :=
  if x.code ≠ 0 ∧ x.code ≠ 6 then .none
  else
    match t with
    | none => .fault (if x.code = 0 then 4 else x.code)
    | some t =>
      let bad := x.code ≠ 0 ∨ t.len < x.toff + x.len
      if x.len = 0 ∧ bad then .fault (if x.code = 0 then 5 else x.code)
      else if x.drain then
        if t.state = .empty then .fault (if x.code = 0 then (if bad then 5 else 4) else x.code)
        else if t.state = .ready then .drain
        else if t.state = .draining ∧ t.owner = 1 then .joins
        else .waits
      else if t.state = .empty ∨ t.state = .ready then .fill
      else if t.state = .filling ∧ t.owner = 1 then .joins
      else .waits

/-- The tile of a transfer, defined for its job. -/
def State.xferTile (s : State) (m : Nat) (x : Xfer) : Option Tile := s.tile? m x.tile x.job

/-- Whether a transfer starts now (R298, R301). -/
def State.xferStarts (s : State) (m : Nat) (x : Xfer) : Bool :=
  let c := s.coreAt m
  x.state == .waiting && !(s.chanAt m x.chan).fault && ((c.earlier x).all fun y => y.chan != x.chan || y.state != .waiting)
    && decide ((c.xfers.filter fun y => y.state == .inFlight).length < 256) && c.classOrder x
    && tileStart (s.xferTile m x) x != .waits

/-- What a start finds (R301): the fault of the request, of the range or of a translation, else the memory side translated. -/
def State.startSpan (s : State) (m : Nat) (x : Xfer) : Except Nat (List (Nat × Nat) × State) :=
  match s.xferTile m x with
  | none => .error 4
  | some t =>
    if x.code ≠ 0 then .error x.code
    else if t.len < x.toff + x.len then .error 5
    else
      match s.engineSpan m x.root (if x.drain then .write else .read) (spanFuel x.len) x.mem x.len with
      | .error c => .error (faultCode c)
      | .ok r => .ok r

/-- The memory side of a transfer, by page. -/
def Xfer.pieces (x : Xfer) : List (Nat × Nat) := enginePieces (spanFuel x.len) x.mem x.len

/-- TRANSFER_START: the transfer leaves the FIFO and moves its tile; one of length 0 completes (R296, R297, R298). -/
def State.startXfer (s : State) (m : Nat) (x : Xfer) : State :=
  if !(s.xferStarts m x) then s
  else
    let go (code : Nat) (holds : Bool) (runs : List (Nat × Nat)) (s : State) : State :=
      s.onXfer m x.chan x.id fun y => { y with state := .inFlight, code := code, holds := holds, spans := runs }
    let start := tileStart (s.xferTile m x) x
    match start with
    | .none => go x.code false [] s
    | .fault code => go code false [] s
    | _ =>
      if x.len = 0 then (s.onXfer m x.chan x.id fun y => { y with state := .finished }).trimXfers m
      else
        let (code, runs, s1) := match s.startSpan m x with
          | .error code => (code, [], if code = 4 ∨ code = 5 ∨ code = x.code then s else s.walkFaulting m x.root (if x.drain then .write else .read) (x.pieces))
          | .ok (runs, s1) => (0, runs, s1.engineRequests m m x.root x.drain x.pieces)
        go code true runs (s1.onTile m x.tile fun t =>
          match start with
          | .fill => { t.take .filling 1 with arr := 0, by_ := x.pc }
          | .drain => { t.take .draining 1 with by_ := x.pc }
          | _ => t)

/-- The tile of a transfer that has completed (R296). -/
def State.xferDone (s : State) (m : Nat) (x : Xfer) : State :=
  s.onTile m x.tile fun t =>
    if x.drain then (if s.tileXfers m x.tile true = 0 ∧ t.state = .draining then t.release else t)
    else
      let t1 := { t with arr := arrAdd t.arr x.len }
      if t.len ≤ t1.arr ∧ s.tileXfers m x.tile false = 0 ∧ t.state = .filling then t1.release else t1

/-- TRANSFER_COMPLETE: the chunks perform, the tile and the milestone move (R296, R299, R300). -/
def State.completeXfer (s : State) (m : Nat) (x : Xfer) : State :=
  if x.state ≠ .inFlight ∨ x.code ≠ 0 then s
  else
    let s0 := s.performChunks (s.xferWrites m x)
    let s1 := (if x.severed then s0.freshen (2 ^ 44) else s0).onXfer m x.chan x.id fun y => { y with state := .finished }
    ((s1.xferDone m x).tally m x.key 14 x.len).trimXfers m

/-- Whether an uncorrectable error strikes a transfer: one that comes with the step, or a lost line. -/
def State.xferStruck (s : State) (x : Xfer) : Bool := s.input.struck || (s.xferLost x).isSome

/-- A transfer that an uncorrectable error strikes (R301): the chunks before the one it strikes perform, and the fault is still to be
recorded. How many those are comes with the step. -/
def State.strikeXfer (s : State) (m : Nat) (x : Xfer) : State :=
  if x.state ≠ .inFlight ∨ x.code ≠ 0 then s
  else
    let cs := s.xferWrites m x
    let n := match s.xferLost x with
      | some i => if s.input.struck then min (chunksBefore i cs) s.input.value.toNat else chunksBefore i cs
      | none => s.input.value.toNat
    ((s.performChunks (cs.take n)).tally m x.key 14 (chunkBytes (cs.take n))).onXfer m x.chan x.id
      fun y => { y with code := 7 }

/-- HAUL_FAULT: a fault found is recorded, and the tile moves (R296, R301). -/
def State.faultXfer (s : State) (m : Nat) (x : Xfer) : State :=
  if x.state ≠ .inFlight ∨ x.code = 0 then s else s.endXfer m x x.code

/-- The transfers of a core that could start, complete, or have a fault to record. -/
def State.startableXfer (s : State) (m : Nat) : Option Xfer := (s.coreAt m).xfers.find? fun x => s.xferStarts m x

def Core.completableXfer (c : Core) : Option Xfer := c.xfers.find? fun x => x.state == .inFlight && x.code == 0

def Core.faultableXfer (c : Core) : Option Xfer := c.xfers.find? fun x => x.state == .inFlight && x.code != 0

end Sys2Proof.Machine
end

