-- ==== Sys2Proof/Machine/Loops.lean ====
section
/-! DEFINITION. The loop instructions (09 R159 to R165; 08 R133 to R139). -/

namespace Sys2Proof.Machine

/-! ### Lines and their break bits (R385) -/

/-- The words of a cache line whose break bit the bitmap sets (R385). -/
def State.lineBreaks (s : State) (m : Nat) (va : Nat) : List Nat :=
  let c := s.coreAt m
  let base := bitsOf (c.crGet 0x481) 12 38 * 2 ^ 12
  let pages := bitsOf (c.crGet 0x480) 48 15
  let map := bitsOf (c.crGet 0x480) 12 36 * 2 ^ 12
  ((List.range 8).map fun i => va / 32 * 32 + 4 * i).filter fun a =>
    decide (base ≤ a) && decide (a - base < pages * 4096) && (s.readByte (map + (a - base) / 32)).getLsbD ((a - base) / 4 % 8)

/-- The instruction cache of a core holds the line of an address; filling it copies the break bits (R385). -/
def State.fillLine (s : State) (m : Nat) (va : Nat) : State :=
  if (s.coreAt m).lines.contains (va / 32) then s
  else
    let new := if ((s.coreAt m).crGet 0x480).getLsbD 63 then s.lineBreaks m va else []
    s.onCore m fun c => { c with lines := c.lines ++ [va / 32], breaks := c.breaks ++ new, unseen := c.unseen + 1 }

/-! ### The body of a level -/

/-- The word at an address, if the context could fetch it. -/
def State.peekWord (s : State) (k : Nat) (va : VA) : Option W32 :=
  match s.resolve k va.toNat .fetch with
  | .ok (p, _) => some (BitVec.ofNat 32 (s.readNat p.loc 4))
  | .error _ => none

/-- The n words of a body from its first word on. -/
def State.bodyWords (s : State) (k : Nat) : Nat → VA → List (Option W32)
  | 0, _ => []
  | n + 1, va => s.peekWord k va :: s.bodyWords k n (va + 4)

/-- The lines of a body of n words that can be fetched, filled as the level is handed over: their break bits are read then. -/
def State.fillBody (s : State) (start : VA) (n : Nat) : State :=
  (List.range n).foldl (fun s i =>
    match s.resolve s.cur (start.toNat + 4 * i) .fetch with
    | .ok (_, s1) => s1.fillLine s1.myCore (start.toNat + 4 * i)
    | .error _ => s) s

/-- Whether a word is a LOOP, LOOPM or LOOPS. DESIGN CHOICE: R159 does not say how a body word that cannot be fetched as the level opens counts; it
is taken for no loop word (log 55). -/
def loopWord (w : Option W32) : Bool :=
  match w with
  | none => false
  | some w =>
    match decodeWord w.toNat with
    | .ok (.loop _ _) => true
    | .ok (.loopm _ _) => true
    | .ok (.loops _ _) => true
    | _ => false

/-- A body word that the sequencer can take over: a vector instruction other than VSET, without a g destination (R139). -/
def handedWord (w : Option W32) : Option (W32 × VInstr) :=
  match w with
  | none => none
  | some w =>
    match vectorWord w with
    | none => none
    | some v => if v.m.syncs || v.m.malformed then none else some (w, v)

/-- All of a body's members, if every word is one. -/
def handedBody : List (Option W32) → Option (List (W32 × VInstr))
  | [] => some []
  | w :: ws =>
    match handedWord w, handedBody ws with
    | some v, some vs => some (v :: vs)
    | _, _ => none

/-- The largest stage tag over the positions of a body of n words (R133). -/
def LoopSettings.topTag (t : LoopSettings) (n : Nat) : Nat := (List.range (min n 16)).foldl (fun b q => max b (t.tag q)) 0

/-! ### Opening a level (R161) -/

/-- The active levels, those that the sequencer has taken over among them (R139). -/
def Ctx.depth (c : Ctx) : Nat := c.levels.length + (c.queue.filter fun q => match q with | .level _ => true | _ => false).length

/-- Whether the end of a new level lies beyond the end of the level around it. -/
def Ctx.pastEnclosing (c : Ctx) (stop : VA) : Bool :=
  match c.levels with
  | [] => false
  | l :: _ => l.holds c.pc && decide (l.stop.toNat < stop.toNat)

/-- The checks of R161, in order. -/
def Ctx.loopRefused (c : Ctx) (vec : Bool) (kind : LoopKind) (inner : Bool) (n : Nat) (stop : VA) : Bool :=
  let p := c.pending
  decide (6 ≤ c.depth) || c.pastEnclosing stop || (inner && decide (16 < n))
    || (!inner && (p.first != 0 || p.last != 0 || p.tags != 0))
    || (kind != .staged && p.tags != 0) || (kind == .masked && !vec) || (kind == .masked && p.last != 0)
    || p.binds.any fun b => c.isCoord b.1.toNat

/-- The level a loop instruction opens. -/
def Ctx.newLevel (c : Ctx) (kind : LoopKind) (inner : Bool) (n : Nat) (stop : VA) (trips : W64) (mreg : Nat) : Level where
  kind := kind
  n := trips
  start := c.pc + 4
  stop := stop
  stages := if kind = .staged then 1 + c.pending.topTag n else 1
  mreg := mreg
  set := c.pending
  inner := inner

/-- The level as the sequencer takes it over (R139): each body word with the g values of this moment. -/
def Ctx.handed (c : Ctx) (l : Level) (ws : List (W32 × VInstr)) : SeqLevel where
  lvl := l
  passes := l.passes
  rb0 := c.rb.toNat
  body := ws.zipIdx.map fun x =>
    let v := x.1.2
    ({ word := x.1.1, pc := l.start + BitVec.ofNat 50 (4 * x.2), opens := v.m.cb
       m := if l.kind != .staged && c.rotating then v.m.rotate c.rb.toNat else v.m
       g1 := c.capture v.r1, g2 := c.capture v.r2, set := c.settings }, v.r1, v.r2)

/-- The bound targets of a LOOP or LOOPS that is taken over receive their final values at once, and rb its final value (R137, R139). -/
def Ctx.handOver (c : Ctx) (l : Level) (ws : List (W32 × VInstr)) : Ctx :=
  let q := c.queue ++ [.level (c.handed l ws)]
  let c1 : Ctx := { c with queue := q, open_ := false, pending := {} }
  if l.kind = .masked then c1
  else
    let c2 := l.set.binds.foldl (fun c b => c.wr b.1.toNat (c.rd b.1.toNat + b.2 * BitVec.ofNat 64 l.passes)) c1
    if l.kind = .staged then { c2 with rb := c2.rb + BitVec.ofNat 4 l.passes } else c2

/-- The entries of a pass, cut into convoys. -/
def convoysOf : List Entry → List (List Entry)
  | [] => []
  | e :: es =>
    match convoysOf es with
    | (f :: fs) :: cs => if f.opens then [e] :: (f :: fs) :: cs else (e :: f :: fs) :: cs
    | cs => [e] :: cs

/-- Passes that between them show every set of words a level issues: the first and the last nine (R136, R137). -/
def SeqLevel.samplePasses (l : SeqLevel) : List Nat :=
  if l.lvl.kind = .masked then [0, 1]
  else (List.range (min l.passes 9)) ++ (List.range (min l.passes 9)).map fun i => l.passes - 1 - i

/-- Whether no pass of a level forms a convoy that R46 refuses. -/
def SeqLevel.sound (l : SeqLevel) (ty vl : Nat) : Bool :=
  l.samplePasses.all fun p =>
    let es := ({ l with lvl := { l.lvl with p := BitVec.ofNat 64 p } } : SeqLevel).pass
    (convoysOf es).all fun cs => convoyOk cs ty vl

/-- Whether the sequencer takes the level over: it is innermost, all its words are members, none carries a break bit (R139, R385), and no
convoy of it is refused: such a body runs in the scalar pipe and traps where it stands (R46, log 28). -/
def State.takesOver (s : State) (l : Level) (ws : List (Option W32)) : Option (List (W32 × VInstr)) :=
  if !l.inner || !s.me.vec then none
  else
    match (handedBody ws).filter fun vs => (s.me.handed l vs).sound s.me.strip.2 s.me.strip.1 with
    | none => none
    | some vs =>
      if (List.range ws.length).any fun i => ((s.fillBody l.start ws.length).coreAt s.myCore).breaks.contains (l.start.toNat + 4 * i) then none
      else some vs

/-- LOOP, LOOPM and LOOPS (R161, R139). -/
def State.openLoop (s : State) (kind : LoopKind) (e : BitVec 12) (trips : W64) (mreg : Nat) : Res :=
  let c := s.me
  let n := e.toNat - 1
  let stop : VA := c.pc + BitVec.ofNat 50 (4 * e.toNat)
  let ws := s.bodyWords s.cur n (c.pc + 4)
  let inner := !(ws.any loopWord)
  if e.toNat < 2 ∨ 8 ≤ mreg then s.illegal
  else if c.loopRefused c.vec kind inner n stop then s.illegal
  else if kind = .masked ∧ !c.drained then s.waitOn c.oldest
  else
    let l := c.newLevel kind inner n stop trips mreg
    if (if kind = .masked then c.maskEmpty mreg else decide (l.passes = 0)) then
      .next (s.setMe ({ c with pending := {} }.jump stop))
    else
      match s.takesOver l ws with
      | some vs =>
        if 16 < c.occupancy + n then s.waitOn c.oldest else .next ((s.fillBody l.start n).setMe ((c.handOver l vs).jump stop))
      | none => .next (s.setMe ({ c with levels := l :: c.levels, pending := {} }.jump (c.pc + 4)))

/-- LOOP (R161). -/
def execLoop (a : BitVec 5) (e : BitVec 12) (s : State) : Res := s.openLoop .counted e (s.rd a) 0

/-- LOOPM (R138, R161). -/
def execLoopm (a : BitVec 5) (e : BitVec 12) (s : State) : Res := s.openLoop .masked e 0 a.toNat

/-- LOOPS (R137, R161). -/
def execLoops (a : BitVec 5) (e : BitVec 12) (s : State) : Res := s.openLoop .staged e (s.rd a) 0

/-! ### The other loop instructions -/

/-- The pending settings changed. -/
def State.setPending (s : State) (f : LoopSettings → LoopSettings) : Res :=
  .next (s.onMe fun c => { c with pending := f c.pending }.advance)

/-- LSTG (R160): the tag of position q is g[a][3q+2:3q]. -/
def execLstg (a : BitVec 5) (s : State) : Res := s.setPending fun p => { p with tags := (s.rd a).setWidth 48 }

/-- LSTR (R160): a binding added, its stride read now. -/
def execLstr (a b : BitVec 5) (s : State) : Res :=
  let p := s.me.pending
  if decide (2 ≤ p.binds.length) || a == 0 || (p.binds.any fun x => x.1 == a) || s.coordDest a then s.illegal
  else s.setPending fun p => { p with binds := p.binds ++ [(a, s.rd b)] }

/-- LMASK (R160). -/
def execLmask (a b : BitVec 5) (s : State) : Res :=
  s.setPending fun p => { p with first := (s.rd a).setWidth 16, last := (s.rd b).setWidth 16 }

/-- LIDX (R164): the pass index of the active level k places out. DESIGN CHOICE: a level that the sequencer has taken over counts toward the six
(R139) and is none that LIDX or LBRK names (log 55). -/
def execLidx (d : BitVec 5) (k : BitVec 3) (s : State) : Res :=
  match s.me.levels[k.toNat]? with
  | none => s.illegal
  | some l => s.result d l.p

/-- LBRK (R165): the innermost level of the scalar pipe is left at once, with no end of its pass (log 55). -/
def execLbrk (a : BitVec 5) (s : State) : Res :=
  match s.me.levels with
  | [] => s.illegal
  | l :: ls =>
    if a = 0 ∨ s.rd a ≠ 0 then .next (s.onMe fun c => { c with levels := ls }.jump l.stop) else .next s.advance

end Sys2Proof.Machine
end

