-- ==== Sys2Proof/Machine/Anvil.lean ====
section
/-! DEFINITION. The ANVIL instructions, and the sequencing of their commands and leases (21_anvil R309 to R327). -/

namespace Sys2Proof.Machine

/-! ### Leases (R311, R312) -/

/-- The cluster whose anvil the issuing strand uses. -/
def State.myCluster (s : State) : Nat := clusterOf s.myCore

/-- Whether every command of a core's list has started. -/
def State.allStarted (s : State) (m : Nat) : Bool := (s.coreAt m).anvil.all fun c => c.started

/-- The holder's lease passes on: with its standing request kept, or given up (R311). -/
def Cluster.pass (y : Cluster) (j : Nat) : Cluster := { y with holder := none, used := 0, passing := false, last := j }

/-- A lease that is to pass does so once every command issued under it has started (R311). -/
def State.tryPass (s : State) (y : Nat) : State :=
  match (s.clusterAt y).holder with
  | none => s
  | some k =>
    if (s.clusterAt y).passing && s.allStarted (s.coreOf k) then s.onCluster y fun c => c.pass (indexInCluster (s.coreOf k)) else s

/-- Whether another strand has a standing request. -/
def Cluster.wanted (y : Cluster) (k : Nat) : Bool := y.requests.any (· != k)

/-- A strand's lease begins to pass, and the strand keeps a standing request. -/
def Cluster.askAgain (y : Cluster) (k : Nat) : Cluster :=
  { y with passing := true, requests := if y.requests.contains k then y.requests else y.requests ++ [k] }

/-- What the issuing strand is to the lease. -/
inductive Lease where
  | held | asked | none
deriving DecidableEq, Repr

def State.lease (s : State) : Lease :=
  let y := s.clusterAt s.myCluster
  if y.holder = some s.cur then (if y.passing then .asked else .held)
  else if y.requests.contains s.cur then .asked
  else .none

/-- Whether a strand may issue ANVIL instructions (R310). -/
def State.anvilStrand (s : State) : Bool := !(isSteward s.cur) && s.me.vec

/-- The check that every ANVIL instruction makes first. -/
def State.anvil (s : State) (go : Res) : Res := if s.anvilStrand then go else s.illegal

/-- ALEASE (R311). -/
def execAlease (s : State) : Res :=
  s.anvil (
    let y := s.clusterAt s.myCluster
    if y.holder = some s.cur then .next s.advance
    else if y.requests.contains s.cur then s.waitPoint
    else (s.onCluster s.myCluster fun y => { y with requests := y.requests ++ [s.cur] }).waitPoint)

/-- AFREE (R311). -/
def execAfree (s : State) : Res :=
  s.anvil (
    let s1 := s.onCluster s.myCluster fun y =>
      { y with requests := y.requests.filter (· != s.cur), passing := y.passing || y.holder == some s.cur }
    .next (s1.tryPass s.myCluster).advance)

/-! ### Slots (R313) -/

/-- Whether slots a to a + n - 1 are all free. -/
def Cluster.runFree (y : Cluster) (a n : Nat) : Bool := (List.range n).all fun i => Sparse.get none y.slots (a + i) == none

/-- The lowest run of n free slots. -/
def Cluster.findRun (y : Cluster) (n : Nat) : Option Nat := (List.range (257 - n)).find? fun a => y.runFree a n

/-- n slots from a on made owned, with tag NONE. -/
def Cluster.claim (y : Cluster) (k job a n : Nat) : Cluster :=
  { y with slots := (List.range n).foldl (fun m i => Sparse.put m (a + i) (some { owner := k, job := job })) y.slots }

/-- ACLAIM (R313). -/
def execAclaim (d a : BitVec 5) (s : State) : Res :=
  s.anvil (
    let n := max 1 (s.rd a).toNat
    if s.coordDest d then s.illegal
    else if 256 < n then s.done d (status 6)
    else
      match (s.clusterAt s.myCluster).findRun n with
      | none => s.done d (status 2)
      | some i => (s.onCluster s.myCluster fun y => y.claim s.cur s.me.job i n).done d (BitVec.ofNat 64 i))

/-- Whether a strand of a job owns a slot. -/
def Cluster.owns (y : Cluster) (k job i : Nat) : Bool :=
  match Sparse.get none y.slots i with
  | some o => decide (i < 256) && o.owner == k && o.job == job
  | none => false

/-- The slots a command reads or writes. -/
def AnvilCmd.slots (c : AnvilCmd) : List Nat :=
  match c.op with
  | .lda => [c.sa]
  | .ldb => [c.sb]
  | .mma => ((List.range c.ta.length).map (c.sa + ·)) ++ (List.range c.tb.length).map (c.sb + ·)
  | .mmz => ((List.range c.ta.length).map (c.sa + ·)) ++ (List.range c.tb.length).map (c.sb + ·)
  | .smma => ((List.range (2 * c.ta.length)).map (c.sa + ·)) ++ (List.range c.tb.length).map (c.sb + ·)
  | _ => []

/-- The slots a command names: with K = 0 a multiply reads none, and names the first of A and of B (R319). -/
def AnvilCmd.named (c : AnvilCmd) : List Nat :=
  match c.op with
  | .mma => c.sa :: c.sb :: c.slots
  | .mmz => c.sa :: c.sb :: c.slots
  | .smma => c.sa :: c.sb :: c.slots
  | _ => c.slots

/-- ARELS (R313). -/
def execArels (a b : BitVec 5) (s : State) : Res :=
  s.anvil (
    let first := (s.rd a).toNat % 256
    let n := max 1 (s.rd b).toNat
    if 256 < first + n then s.trap .slot 0
    else if !((List.range n).all fun i => (s.clusterAt s.myCluster).owns s.cur s.me.job (first + i)) then s.trap .slot 0
    else if (s.coreAt s.myCore).anvil.any fun c => c.key == s.cur && c.named.any fun i => decide (first ≤ i) && decide (i < first + n) then s.wait
    else
      .next (s.onCluster s.myCluster fun y =>
        { y with slots := y.slots.filter fun p => !(decide (first ≤ p.1) && decide (p.1 < first + n)) }).advance)

/-! ### ATILE (R317) -/

/-- ATILE (R317): the three grants, written in the order given. -/
def execAtile (d a b : BitVec 5) (s : State) : Res :=
  s.anvil (
    let f := bitsOf (s.me.crGet 0x200) 0 4
    if decide (13 ≤ f) || s.coordDest d || s.coordDest a || s.coordDest b then s.illegal
    else
      let m := min (s.rd d).toNat 32
      let n := min (s.rd a).toNat (if f = 11 ∨ f = 12 then 16 else 32)
      let k := min (s.rd b).toNat (8 * formatPass f)
      let s1 := s.onMe fun c => { c with tileM := m, tileN := n, tileK := k }
      (((s1.wr d (BitVec.ofNat 64 m)).wr a (BitVec.ofNat 64 n)).done b (BitVec.ofNat 64 k)))

/-! ### Commands (R310, R324) -/

/-- A command of the issuing strand, with what it reads at issue (R146). -/
def State.newCmd (s : State) (op : AnvilOp) : AnvilCmd :=
  let c := s.me
  { op := op, key := s.cur, m := c.tileM, n := c.tileN, k := c.tileK, promo := bitsOf (c.crGet 0x204) 0 3
    tlen := bitsOf (c.crGet 0x280) 0 5, tadv := bitsOf (c.crGet 0x281) 0 2 }

/-- A command entered in the list and counted under its lease; at MAX the lease passes, or the count begins again (R311). -/
def State.enterCmd (s : State) (cmd : AnvilCmd) : State :=
  let s1 := s.onCore s.myCore fun c => { c with anvil := c.anvil ++ [cmd] }
  s1.onCluster s.myCluster fun y =>
    let y1 := { y with used := y.used + 1, idleSince := s.now }
    if y1.used < bitsOf (s.me.crGet 0x205) 0 9 then y1
    else if y1.wanted s.cur then y1.askAgain s.cur
    else { y1 with used := 0 }

/-- A command that has passed its checks: SLOT with neither lease nor request, a hold for the lease (a pre-emption point), for a place in the
list, or behind the vector accesses that R131 orders first (R310, R311, R327). -/
def State.issueCmd (s : State) (touches : Bool) (go : Res) : Res :=
  match s.lease with
  | .none => s.trap .slot 0
  | .asked => s.waitPoint
  | .held =>
    match (if touches then s.anyVectorMemory else none) with
    | some e => s.waitOn e.pc.toNat
    | none => if 16 ≤ (s.coreAt s.myCore).anvil.length then s.wait else go

/-- A tile operand: its id and OFF (R309). -/
def tileId (v : W64) : Nat := v.toNat % 64
def tileOff (v : W64) : Nat := bitsOf v 32 20

/-- The tile of a command: TILE_EMPTY, a hold while it is busy, MISALIGN, and PROT where the bytes from OFF to an end pass its LEN (R24,
R318). -/
def State.tileCheck (s : State) (v : W64) (ends : List Nat) (go : Res) : Res :=
  match s.tile? s.myCore (tileId v) s.me.job with
  | none => s.trap .tileEmpty 0
  | some t =>
    if t.state = .empty then s.trap .tileEmpty 0
    else if t.busy then s.waitTile t
    else if tileOff v % 64 ≠ 0 then s.trap .misalign 0
    else if ends.any fun e => decide (t.len < e) then s.trap .prot 0
    else go

/-- The tile taken by the anvil. -/
def State.takeTile (s : State) (v : W64) (st : TileState) : State :=
  s.onTile s.myCore (tileId v) fun t => { t.take st 3 with by_ := s.me.pc.toNat }

/-- ALDA and ALDB (R318). -/
def State.loadOperand (s : State) (isB : Bool) (a b : BitVec 5) : Res :=
  s.anvil (
    let fr := s.me.crGet (if isB then 0x201 else 0x200)
    let f := bitsOf fr 0 4
    let mx := fr.getLsbD 4
    let sp := !isB && fr.getLsbD 5
    let slot := (s.rd a).toNat % 256
    let v := s.rd b
    let side := bitsOf (s.me.crGet (if isB then 0x203 else 0x202)) 0 20
    let cmd : AnvilCmd := s.newCmd (if isB then .ldb else .lda)
    if formatIllegal f mx sp isB then s.illegal
    else
      s.tileCheck v ((tileOff v + dataBytes f cmd.tadv) :: (if mx then [side + sideBytes f sp] else []))
        (if s.lease = .none ∨ !((s.clusterAt s.myCluster).owns s.cur s.me.job slot) then s.trap .slot 0
         else
          s.issueCmd true (
            let s1 := (s.takeTile v .draining).setTag s.myCluster slot (some (f, mx, sp))
            let cmd1 : AnvilCmd :=
              { cmd with
                sa := if isB then 0 else slot, sb := if isB then slot else 0, tile := tileId v, off := tileOff v
                fmt := f, mx := mx, sparse := sp, side := side }
            .next (s1.enterCmd cmd1).advance)))

/-- ALDA (R318). -/
def execAlda (a b : BitVec 5) (s : State) : Res := s.loadOperand false a b

/-- ALDB (R318). -/
def execAldb (a b : BitVec 5) (s : State) : Res := s.loadOperand true a b

/-- The tag of an owned slot. -/
def Cluster.tag (y : Cluster) (k job i : Nat) : Option (Nat × Bool × Bool) :=
  if y.owns k job i then (match Sparse.get none y.slots i with | some o => o.tag | none => none) else none

/-- The tags of n slots in a row, if every one is owned and tagged. -/
def Cluster.tags (y : Cluster) (k job i : Nat) : Nat → Option (List (Nat × Bool × Bool))
  | 0 => some []
  | n + 1 =>
    match y.tag k job i, y.tags k job (i + 1) n with
    | some t, some ts => some (t :: ts)
    | _, _ => none

/-- Whether two tags form the row and path of a multiply, dense or sparse (R315, R319, R321, R326). -/
def tagsFit (sparse : Bool) (row path : Nat) (a b : Nat × Bool × Bool) : Bool :=
  a.2.2 == sparse && pairRow a.1 b.1 == some row && pairPath row a.2.1 b.2.1 == path
    && !(sparse && (row == 8 || row == 9))

/-- The path tag of an accumulator of the issuing strand's core (R314). -/
def State.accPath (s : State) (t : Nat) : Nat := Sparse.get 0 (s.coreAt s.myCore).acc.tag t

def State.setAccPath (s : State) (t p : Nat) : State :=
  s.onCore s.myCore fun c => { c with acc := { c.acc with tag := Sparse.set 0 c.acc.tag t p } }

/-- What a multiply's checks find: the row, the path, and the tags of its A and B slots (R319, R321). -/
def State.multiplySlots (s : State) (sparse : Bool) (sa sb : Nat) :
    Option (Nat × Nat × List (Nat × Bool × Bool) × List (Nat × Bool × Bool)) :=
  let y := s.clusterAt s.myCluster
  match y.tag s.cur s.me.job sa, y.tag s.cur s.me.job sb with
  | some ta, some tb =>
    match pairRow ta.1 tb.1 with
    | none => none
    | some row =>
      let path := pairPath row ta.2.1 tb.2.1
      let kp := rowPass row
      let np := ceilDiv s.me.tileK (if sparse then 2 * kp else kp)
      let nb := if sparse then ceilDiv s.me.tileK kp else np
      if !(tagsFit sparse row path ta tb) then none
      else
        match y.tags s.cur s.me.job sa np, y.tags s.cur s.me.job sb nb,
          (if sparse then y.tags s.cur s.me.job (sa + np) np else some []) with
        | some as, some bs, some _ =>
          if (as.zipIdx.all fun p => if sparse then
                (match bs[2 * p.2]? with | some b => tagsFit true row path p.1 b | none => true)
                  && (match bs[2 * p.2 + 1]? with | some b => tagsFit true row path p.1 b | none => true)
              else match bs[p.2]? with | some b => tagsFit false row path p.1 b | none => true)
          then some (row, path, as, bs) else none
        | _, _, _ => none
  | _, _ => none

/-- AMMA, AMMZ and ASMMA (R319, R321). -/
def State.multiplyCmd (s : State) (op : AnvilOp) (d a b : BitVec 5) : Res :=
  s.anvil (
    let acc := d.toNat
    let sa := (s.rd a).toNat % 256
    let sb := (s.rd b).toNat % 256
    if 1 < acc then s.illegal
    else if s.lease = .none then s.trap .slot 0
    else
      match s.multiplySlots (op == .smma) sa sb with
      | none => s.trap .slot 0
      | some (_, path, ta, tb) =>
        let old := if op = .mmz then 0 else s.accPath acc
        if old ≠ 0 ∧ old ≠ path then s.trap .slot 0
        else
          s.issueCmd false (
            let y := s.clusterAt s.myCluster
            let fa := (y.tag s.cur s.me.job sa).getD (7, false, false)
            let fb := (y.tag s.cur s.me.job sb).getD (7, false, false)
            let cmd : AnvilCmd :=
              { s.newCmd op with
                acc := acc, sa := sa, sb := sb, fa := fa.1, fb := fb.1, mxa := fa.2.1, mxb := fb.2.1, ta := ta, tb := tb }
            .next ((s.setAccPath acc path).enterCmd cmd).advance))

/-- AMMA (R319). -/
def execAmma (d a b : BitVec 5) (s : State) : Res := s.multiplyCmd .mma d a b
/-- AMMZ (R319). -/
def execAmmz (d a b : BitVec 5) (s : State) : Res := s.multiplyCmd .mmz d a b
/-- ASMMA (R321). -/
def execAsmma (d a b : BitVec 5) (s : State) : Res := s.multiplyCmd .smma d a b

/-- ASTC (R322). -/
def execAstc (d a b : BitVec 5) (s : State) : Res :=
  s.anvil (
    let t := (s.rd b).toNat % 32
    let v := s.rd a
    if 1 < d.toNat ∨ storeBytes t = 0 then s.illegal
    else
      s.tileCheck v [tileOff v + 32 * storeBytes t * s.me.tileM]
        (if s.lease = .none ∨ !(storeFits (s.accPath d.toNat) t) then s.trap .slot 0
         else
          s.issueCmd true (
            let cmd : AnvilCmd := { s.newCmd .stc with acc := d.toNat, tile := tileId v, off := tileOff v, ty := t, fa := s.accPath d.toNat }
            .next ((s.takeTile v .filling).enterCmd cmd).advance)))

/-- AZERO (R323). -/
def execAzero (d : BitVec 5) (s : State) : Res :=
  s.anvil (
    if 1 < d.toNat then s.illegal
    else
      s.issueCmd false (.next ((s.setAccPath d.toNat 0).enterCmd { s.newCmd .zero with acc := d.toNat }).advance))

/-- AWAIT (R323). -/
def execAwait (s : State) : Res :=
  s.anvil (if (s.coreAt s.myCore).anvil.any fun c => c.key == s.cur then s.waitPoint else .next s.advance)

/-! ### Commands at work (R324, R325) -/

/-- The accumulator a command writes or reads. -/
def AnvilCmd.usesAcc (c : AnvilCmd) : Bool := c.op != .lda && c.op != .ldb

/-- Whether a command must await an earlier one: the earlier writes what it reads, or reads a slot it writes. A multiply into the accumulator
of the multiply before it does not wait (R324). -/
def AnvilCmd.after (c e : AnvilCmd) : Bool :=
  let loads (x : AnvilCmd) : Bool := x.op == .lda || x.op == .ldb
  ((loads e || loads c) && c.slots.any e.slots.contains)
    || (c.usesAcc && e.usesAcc && c.acc == e.acc && !(c.multiplies && e.multiplies))

/-- Whether the array of a core's cluster is free to a command: a multiply waits for one of any strand that has started, but for multiplies into
its own accumulator, from which it chains (R324). -/
def State.arrayFree (s : State) (m : Nat) (c : AnvilCmd) : Bool :=
  !c.multiplies || (keysOf s.core).all fun n =>
    clusterOf n != clusterOf m
      || (s.coreAt n).anvil.all fun e => !(e.started && e.multiplies) || (n == m && e.acc == c.acc)

/-- The next command of a core to start, if it may (R324): the first that has not started, under a held lease, with the array free. -/
def State.startable (s : State) (m : Nat) : Option AnvilCmd :=
  let list := (s.coreAt m).anvil
  let before := list.takeWhile fun c => c.started
  match list.dropWhile fun c => c.started with
  | [] => none
  | c :: _ =>
    if (s.clusterAt (clusterOf m)).holder == some c.key && !(before.any fun e => c.after e) && s.arrayFree m c then some c else none

/-- The cycles of a command's class (R50). -/
def AnvilCmd.cycles (c : AnvilCmd) : Nat :=
  match c.op with
  | .lda => 48
  | .ldb => if c.fmt = 13 then 64 else 48
  | .stc => 12 + ceilDiv (1024 * storeBytes c.ty) 64
  | .zero => 1
  | _ => c.passes + 12

/-- The cycle in which a command that starts now completes (R324): a multiply that chains begins after the last pass of the one before it, 12 cycles
before that one completes. -/
def State.anvilEnd (s : State) (m : Nat) (c : AnvilCmd) : Nat :=
  let before := (s.coreAt m).anvil.filter fun e => e.started && e.multiplies && c.multiplies
  before.foldl (fun t e => max t (e.endsAt - 12)) s.now + c.cycles

/-- The first command that has not started is marked started, to complete in a cycle. -/
def startFirst (t : Nat) : List AnvilCmd → List AnvilCmd
  | [] => []
  | c :: cs => if c.started then c :: startFirst t cs else { c with started := true, endsAt := t } :: cs

/-- A command of a core starts, and a lease that waited for it passes (R324, R311). -/
def State.startAnvil (s : State) (m : Nat) : State :=
  match s.startable m with
  | none => s
  | some x => (s.onCore m fun c => { c with anvil := startFirst (s.anvilEnd m x) c.anvil }).tryPass (clusterOf m)

/-- The flags of a command, ORed into its strand's (R77). -/
def State.anvilFlags (s : State) (k : Nat) (f : Flags) : State := s.onCtx k fun c => c.orFlags f

/-- The bytes and side bytes a load reads from its tile. -/
def State.loadBytes (s : State) (m : Nat) (cmd : AnvilCmd) : List Byte × List Byte :=
  match Sparse.get none (s.coreAt m).tiles cmd.tile with
  | none => ([], [])
  | some t =>
    (s.readBytes (tileLoc m t + cmd.off) (dataBytes cmd.fmt cmd.tadv),
      if cmd.mx then s.readBytes (tileLoc m t + cmd.side) (sideBytes cmd.fmt cmd.sparse) else [])

/-- The elements of an accumulator that a struck multiply writes are undefined (R325). -/
def State.blurAcc (s : State) (cmd : AnvilCmd) (c : Accs) : Accs :=
  let path := pairPath ((pairRow cmd.fa cmd.fb).getD 0) cmd.mxa cmd.mxb
  let cols := if path = pathCInt ∨ path = pathCFloat then 2 * multiplyCols path cmd.n else multiplyCols path cmd.n
  (elements cmd.m cols).foldl (fun c mn =>
    let key := accKey cmd.acc mn.1 mn.2
    let off := 16 * (32 * mn.1 + mn.2)
    if path = pathFloat ∨ path = pathCFloat then
      { c with run := Sparse.set 0 c.run key (s.freeNumber off 3), wide := Sparse.set 0 c.wide key (s.freeNumber (off + 3) 5) }
    else { c with wide := Sparse.set 0 c.wide key (s.freeNumber off 6) }) c

/-- The accumulators of a core replaced. -/
def State.setAcc (s : State) (m : Nat) (a : Accs) : State := s.onCore m fun c => { c with acc := a }

/-- The flags of a struck command: what its undefined elements raise is free. -/
def State.blurFlags (s : State) (struck : Bool) (f : Flags) : Flags :=
  if struck then f ||| (s.freeByte &&& (flagNV ||| flagOF ||| flagUF ||| flagNX ||| flagSAT)) else f

/-- What a command does when it completes (R318 to R323); one that an uncorrectable error strikes writes undefined elements (R325). -/
def State.runAnvil (s : State) (m : Nat) (cmd : AnvilCmd) (struck : Bool) : State :=
  let y := clusterOf m
  let load (slot : Nat) : State :=
    let (data, side) := s.loadBytes m cmd
    let (d1, s1) := slotImage cmd.fmt cmd.tadv cmd.tlen data side
    (s.onCluster y fun c => c.loadSlot slot (s.blur struck 0 d1) (s.blur struck 3072 s1)).onTile m cmd.tile Tile.release
  match cmd.op with
  | .lda => load cmd.sa
  | .ldb => load cmd.sb
  | .zero => s.setAcc m ((s.coreAt m).acc.clearAcc cmd.acc)
  | .stc =>
    match Sparse.get none (s.coreAt m).tiles cmd.tile with
    | none => s
    | some t =>
      let (a1, rows, f) := storeRows cmd cmd.fa (s.coreAt m).acc
      let s1 := (s.setAcc m a1).performChunks (rowChunks (tileLoc m t) (rows.map fun r => (r.1, s.blur struck r.1 r.2)))
      (s1.anvilFlags cmd.key (s.blurFlags struck f)).onTile m cmd.tile Tile.release
  | _ =>
    let (a1, f) := multiply (s.clusterAt y) cmd (s.coreAt m).acc
    ((s.setAcc m (if struck then s.blurAcc cmd a1 else a1)).anvilFlags cmd.key (s.blurFlags struck f)).tally m cmd.key 6 cmd.ta.length

/-- An uncorrectable error is marked in %astat.ERR of the strand, whose job is to end FAULTED (R325). -/
def State.strikeAnvil (s : State) (k : Nat) : State :=
  ((s.onCtx k fun c => { c with anvilErr := true }).onJob (s.ctxAt k).job fun j => { j with struck := true }).freshen (2 ^ 21)

/-- Whether an uncorrectable error strikes a command's reads: AZERO reads nothing. -/
def State.anvilStruck (s : State) (cmd : AnvilCmd) : Bool := s.input.struck && cmd.op != .zero

/-- The started command of a core that completes next: the one whose start and class give the earliest cycle, and of equals the one issued first
(R324). -/
def Core.finishing (c : Core) : Option AnvilCmd :=
  match c.anvil.filter (·.started) with
  | [] => none
  | x :: xs => some (xs.foldl (fun b e => if e.endsAt < b.endsAt then e else b) x)

/-- The next of a core's started commands completes (R324). -/
def State.completeAnvil (s : State) (m : Nat) : State :=
  match (s.coreAt m).finishing with
  | none => s
  | some c =>
    let s1 := (s.runAnvil m c (s.anvilStruck c)).onCore m fun d => { d with anvil := d.anvil.erase c }
    if s.anvilStruck c then s1.strikeAnvil c.key else s1

/-- The strand that wins a lease (R312): the earliest deadline, then cluster core order from the core after the last holder. -/
def State.leaseWinner (s : State) (y : Nat) : Option Nat :=
  let c := s.clusterAt y
  let deadline (k : Nat) : Nat := match s.job? (s.ctxAt k).job with | some j => j.deadline | none => 2 ^ 64
  let place (k : Nat) : Nat := (indexInCluster (s.coreOf k) + 7 - c.last) % 8
  match c.requests with
  | [] => none
  | k :: ks => some (ks.foldl (fun b k => if deadline k < deadline b ∨ (deadline k = deadline b ∧ place k < place b) then k else b) k)

/-- Whether a cluster's lease goes to a requester now. -/
def State.leaseFree (s : State) (y : Nat) : Bool := (s.clusterAt y).holder == none && !(s.clusterAt y).requests.isEmpty

/-- The lease goes to its winner. -/
def State.winLease (s : State) (y : Nat) : State :=
  match s.leaseFree y, s.leaseWinner y with
  | true, some k =>
    s.onCluster y fun c =>
      { c with holder := some k, used := 0, passing := false, idleSince := s.now, requests := c.requests.filter (· != k) }
  | _, _ => s

/-- Whether a holder has issued no command for 256 cycles while another requests (R311). -/
def State.leaseIdle (s : State) (y : Nat) : Bool :=
  let c := s.clusterAt y
  match c.holder with
  | none => false
  | some k => !c.passing && c.wanted k && decide (c.idleSince + 256 ≤ s.now)

/-- The idle holder's lease passes. -/
def State.passIdle (s : State) (y : Nat) : State :=
  match (s.clusterAt y).holder with
  | none => s
  | some k => if s.leaseIdle y then (s.onCluster y fun c => c.askAgain k).tryPass y else s

end Sys2Proof.Machine
end

