-- ==== Sys2Proof/Machine/Trel.lean ====
section
/-! DEFINITION. The trellis encoder's instructions and its queue (22_trellis R332 to R340). -/

namespace Sys2Proof.Machine

/-- The TENC that the registers of an instruction describe (R336). -/
def State.tencCmd (s : State) (d a b : BitVec 5) : TencCmd where
  key := s.cur
  core := s.myCore
  job := s.me.job
  id := (s.coreAt s.myCore).tencNext
  scale := bitsOf (s.rd d) 0 16
  src := tileId (s.rd a)
  soff := tileOff (s.rd a)
  bf := (s.rd a).getLsbD 16
  nseg := bitsOf (s.rd a) 8 6
  dst := tileId (s.rd b)
  doff := tileOff (s.rd b)
  tlen := bitsOf (s.me.crGet 0x280) 0 5
  tadv := bitsOf (s.me.crGet 0x281) 0 2

/-- One past the last byte a TENC reads of its source and writes of its destination. -/
def TencCmd.srcEnd (c : TencCmd) : Nat := c.soff + c.nseg * (96 * (if c.bf then 2 else 4))
def TencCmd.dstEnd (c : TencCmd) : Nat := c.doff + c.nseg * segmentBytes c.tadv

/-- TENC (R337). -/
def execTenc (d a b : BitVec 5) (s : State) : Res :=
  let c := s.tencCmd d a b
  let m := s.myCore
  let y := clusterOf m
  if s.coordDest d ∨ c.nseg = 0 ∨ 32 < c.nseg ∨ c.src = c.dst then s.illegal
  else
    match s.tile? m c.src c.job, s.tile? m c.dst c.job with
    | some ts, some td =>
      if ts.state = .empty ∨ td.state = .empty then s.trap .tileEmpty 0
      else if ts.busy then s.waitTile ts
      else if td.busy then s.waitTile td
      else if c.soff % 64 ≠ 0 ∨ c.doff % 64 ≠ 0 then s.trap .misalign 0
      else if ts.len < c.srcEnd ∨ td.len < c.dstEnd then s.trap .prot 0
      else
        match s.anyVectorMemory with
        | some e => s.waitOn e.pc.toNat
        | none =>
          if 8 ≤ (s.clusterAt y).tenc.length then s.waitPoint
          else
            let pc := s.me.pc.toNat
            let s1 := s.onTile m c.src fun t => { t.take .draining 5 with by_ := pc }
            let s2 := s1.onTile m c.dst fun t => { t.take .filling 5 with by_ := pc }
            let s3 := s2.onCore m fun k => { k with tencNext := k.tencNext + 1, tencOpen := k.tencOpen ++ [c.id] }
            (s3.onCluster y fun k => { k with tenc := k.tenc ++ [c] }).done d (BitVec.ofNat 64 c.id)
    | _, _ => s.trap .tileEmpty 0

/-- TWAIT (R338). -/
def execTwait (a : BitVec 5) (s : State) : Res :=
  let i := (s.rd a).toNat
  let c := s.coreAt s.myCore
  if c.tencNext ≤ i then s.illegal else if i < c.tmile then .next s.advance else s.waitPoint

/-! ### The encoder at work (R337) -/

/-- TENC_START: the command at the head of a cluster's queue starts. -/
def State.startTenc (s : State) (y : Nat) : State :=
  s.onCluster y fun c =>
    match c.tenc with
    | [] => c
    | t :: ts => { c with tenc := { t with started := true } :: ts }

/-- TENC_COMPLETE: the segments are written, the tiles turn READY, and the milestone passes the id; an uncorrectable error is marked in
%tflags.ERR, and the segments written from the reads it strikes, the bits of the step's value, are undefined (R337). -/
def State.completeTenc (s : State) (y : Nat) : State :=
  match (s.clusterAt y).tenc with
  | [] => s
  | t :: ts =>
    if t.started then
      let s1 := s.tencRun t (if s.input.struck then s.input.value.toNat else 0) t.nseg
      let s2 := if s.input.struck then (s1.onCore t.core fun c => { c with tflags := c.tflags ||| 2 }).freshen (2 ^ 21) else s1
      (((s2.onTile t.core t.src Tile.release).onTile t.core t.dst Tile.release).tencPass t).onCluster y fun c => { c with tenc := ts }
    else s

end Sys2Proof.Machine
end

