-- ==== Sys2Proof/Machine/Wait.lean ====
section
/-! DEFINITION. Waiting on memory and on crossings (10 R177 to R185; 13 R207 to R210). -/

namespace Sys2Proof.Machine

/-! ### WAITA (R177 to R181) -/

/-- The place a WAITA reads: MISALIGN, PAGE, PROT (host memory and the twin window among it), WATCH. -/
def State.waitPlace (s : State) (va : Nat) : Except Cause (Place × State) :=
  if va % 8 ≠ 0 then .error .misalign
  else
    match s.resolve s.cur va .read with
    | .error c => .error c
    | .ok (p, s1) =>
      if inHost p.loc || inTwin p.loc then .error .prot
      else if s.watched s.cur va 8 .read then .error .watch
      else .ok (p, s1)

/-- The issuing strand parks on a double-word, in one step with the load that read it (R177). -/
def State.park (s : State) (loc : Nat) (cmp : W64) (d : Nat) : State :=
  let s1 : State := { s with parks := s.parks ++ [{ key := s.cur, loc := loc, cmp := cmp, seen := s.read64 loc, d := d }] }
  s1.onMe fun c =>
    { c with hold := .waita, again := true, atPoint := true, since := s.now }

/-- WAITA (R177): its loads carry no class. DESIGN CHOICE: its load is performed remotely as an atomic's is, never moves the strand and leaves n
and hc unchanged, though R94 names only atomics (log 54). -/
def execWaita (d a b : BitVec 5) (s : State) : Res :=
  if s.coordDest d then s.illegal
  else
    let va := ea (s.rd a)
    match s.waitPlace va with
    | .error c => s.trapAt c va
    | .ok (p, s1) =>
      match s1.orderedAfter 16 p.loc 8 with
      | some e => s1.waitOn e.pc.toNat
      | none =>
        let s2 := s1.reach s1.cur p false
        if s2.read64 p.loc = s.rd b then .next (s2.park p.loc (s.rd b) d.toNat) else s2.done d (s2.read64 p.loc)

/-! ### Crossings (R182 to R185) -/

/-- The crossing the issuing strand's crew holds: its job. -/
def State.crossing (s : State) : Option Job :=
  match s.job? s.me.job with
  | none => none
  | some j => if j.channel = none ∨ isSteward s.cur then none else some j

/-- The status word of R183. -/
def crossWord (t na : Bool) (phase : BitVec 32) : W64 :=
  BitVec.ofNat 64 ((if t then 2 ^ 63 else 0) + (if na then 2 ^ 62 else 0) + phase.toNat)

/-- Whether a phase has been released when another is current (R183). -/
def released (current phase : BitVec 32) : Bool :=
  decide (1 ≤ (current - phase).toNat) && decide ((current - phase).toNat ≤ 2 ^ 31)

/-- The phase the instruction at pc waits on since an earlier issue (R185). -/
def Ctx.heldPhase (c : Ctx) : Option (BitVec 32) :=
  match c.crossPhase with
  | some (ph, pc) => if pc = c.pc then some ph else none
  | none => none

/-- The issuing strand waits on a phase; its count begins with the wait (R184). -/
def State.holdCross (s : State) (ph : BitVec 32) : Res :=
  .next (s.onMe fun c =>
    { c with
      hold := .cross, again := true, atPoint := true, crossPhase := some (ph, c.pc)
      since := if c.heldPhase = some ph then c.since else s.now })

/-- A wait on a phase goes on, or returns: with an acquire when it is released, with T when it has timed out (R183, R184). -/
def State.waitPhase (s : State) (d : BitVec 5) (j : Job) (ph : BitVec 32) : Res :=
  if s.me.expired then s.done d (crossWord true false ph)
  else if released j.phase ph then s.done d (crossWord false false ph)
  else s.holdCross ph

/-- The issuing strand arrives in the current phase. -/
def State.arrive (s : State) (j : Job) : State :=
  s.onJob j.id fun j =>
    { j with arrived := j.arrived ++ [s.cur], arrivedAt := Sparse.put j.arrivedAt s.cur s.now }

/-- Arriving: held until an arrival standing in the current phase is released, and until the vector accesses before it have performed, since
an arrival is a release (R183, R185). -/
def State.arriveThen (s : State) (j : Job) (go : State → Res) : Res :=
  if j.arrived.contains s.cur then s.waitPoint
  else
    match s.anyVectorMemory with
    | some e => s.waitOn e.pc.toNat
    | none => go (s.arrive j)

/-- CROSS (R183). -/
def execCross (d : BitVec 5) (s : State) : Res :=
  if s.coordDest d then s.illegal
  else
    match s.crossing with
    | none => s.illegal
    | some j =>
      match s.me.heldPhase with
      | some ph => s.waitPhase d j ph
      | none => s.arriveThen j fun s => s.holdCross j.phase

/-- CROSSA (R183). -/
def execCrossa (d : BitVec 5) (s : State) : Res :=
  if s.coordDest d then s.illegal
  else
    match s.crossing with
    | none => s.illegal
    | some j => s.arriveThen j fun s => s.done d (crossWord false false j.phase)

/-- CROSSW (R183). -/
def execCrossw (d a : BitVec 5) (s : State) : Res :=
  if s.coordDest d then s.illegal
  else
    match s.crossing with
    | none => s.illegal
    | some j =>
      let q : BitVec 32 := (s.rd a).setWidth 32
      match s.me.heldPhase with
      | some ph => s.waitPhase d j ph
      | none =>
        if released j.phase q then s.done d (crossWord false false q)
        else if q = j.phase ∧ j.arrived.contains s.cur then s.holdCross q
        else s.done d (crossWord false true q)

/-- Bit i of a CROSSP word for a core: no member there, or all of them arrived; an arrival of the last 12 cycles is reported or not
(R183, R207). -/
def State.arrivedBit (s : State) (j : Job) (m i : Nat) : Bool :=
  let here := j.live.filter fun k => s.coreOf k == m
  let recent (k : Nat) : Bool := decide (s.now < Sparse.get 0 j.arrivedAt k + 12)
  (here.all j.arrived.contains) && (!(here.any recent) || Config.choice (s.free + i))

/-- CROSSP (R183). -/
def execCrossp (d a : BitVec 5) (s : State) : Res :=
  if s.coordDest d then s.illegal
  else
    match s.crossing with
    | none => s.illegal
    | some j =>
      let w := (s.rd a).toNat % 4
      (s.freshen 64).done d (BitVec.ofNat 64
        ((List.range 64).foldl (fun v i => v + (if s.arrivedBit j (64 * w + i) i then 2 ^ i else 0)) 0))

end Sys2Proof.Machine
end

