-- ==== Sys2Proof/Machine/EngEv.lean ====
section
/-! DEFINITION. The steps of the engines beside the cores, and of strands that wait (08 R130; 10 R177 to R185; 11 R196; 13 R207, R210; 19 R293; 20
R296 to R301; 21 R311, R312, R324; 22 R337; 24 R346 to R351; 25 R358, R363; 29 R386). A step that is not due changes nothing (log 13). -/

namespace Sys2Proof.Machine

/-! ### Strands that wait (R178 to R180, R184, R185, R207, R210) -/

/-- The oldest wake notice reaches its strand: it returns the WAITA, or found the double-word unchanged, and the strand takes an issue slot when the
rotation reaches it and parks again. -/
def State.wakeOldest (s : State) : State :=
  match s.notices with
  | [] => s
  | (k, v) :: rest =>
    let s1 : State := { s with notices := rest }
    if (s.ctxAt k).hold = .waita then
      match v with
      | some (d, x) => (s1.tally (s1.coreOf k) k 11 1).release k d x
      | none => (s1.tally (s1.coreOf k) k 11 1).onCtx k fun c => { c with recheck := true }
    else s1

/-- WAKE_NOTICE (R180, R210). -/
def execWakeNotice (s : State) : Res := .next s.wakeOldest

/-- The park of a strand. -/
def State.parkOf (s : State) (k : Nat) : Option Park := s.parks.find? fun p => p.key == k

/-- A parked strand's WAITA returns with a value. -/
def State.unpark (s : State) (k d : Nat) (v : W64) : State := (s.unhold k).release k d v

/-- Whether a park has lasted %waitto cycles (R178). -/
def State.parkExpired (s : State) (k : Nat) : Bool :=
  let lim := bitsOf ((s.ctxAt k).crGet 0x031) 0 32
  (s.ctxAt k).hold == .waita && lim != 0 && decide ((s.ctxAt k).since + lim ≤ s.now)

/-- WAITA_TIMEOUT (R177, R178): the value last read, which equals g[b]. -/
def execWaitaTimeout (s : State) : Res :=
  let k := s.input.key.toNat
  match s.parkOf k with
  | none => .next s
  | some p => if s.parkExpired k then .next (s.unpark k p.d p.seen) else .next s

/-- WAITA_RELOAD (R180): a strand that a full table did not take reads its double-word again. -/
def execWaitaReload (s : State) : Res :=
  let k := s.input.key.toNat
  match s.parkOf k with
  | none => .next s
  | some p =>
    if (s.ctxAt k).hold = .waita ∧ s.parkValue p ≠ p.cmp then .next (s.unpark k p.d (s.parkValue p)) else .next s

/-- Whether every member of a crew has arrived in the current phase of its crossing. -/
def Job.allArrived (j : Job) : Bool := j.state == .running && j.channel.isSome && !j.live.isEmpty && j.live.all j.arrived.contains

/-- The cycles from the last arrival of a phase to its release (R207). -/
def releaseDelay (places : List Nat) : Nat :=
  let cs := places.map (· / 16)
  let one (f : Nat → Nat) : Bool := cs.all fun m => f m == f (cs.headD 0)
  if one (· / 16) || one (· % 16) then 6 else 12

/-- The cycle in which a phase is released once every member has arrived (R207): counted from the last arrival. DESIGN CHOICE: also where it was an
END that left no member to wait for, for which R207 gives no cycle (log 57). -/
def Job.releaseAt (j : Job) : Nat := (j.arrivedAt.foldl (fun n p => max n p.2) 0) + releaseDelay j.places

/-- Whether a phase is to be released now: every member has arrived, the last one long enough ago. -/
def State.releaseDue (s : State) (j : Job) : Bool := j.allArrived && decide (j.releaseAt ≤ s.now)

/-- The cycle in which a strand's wait on a crossing times out, if it does (R184). -/
def Ctx.crossEnd (c : Ctx) : Option Nat :=
  let lim := bitsOf (c.crGet 0x032) 0 32
  if c.hold == .cross && lim != 0 then some (c.since + lim) else none

/-- A phase released: the next one begins with nobody arrived, and the strands that wait go on together (R183, R207); one whose wait ended before the
release returns on its time-out. DEDUCED: of a release and a time-out in one cycle the release comes first, since the strand then no longer waits
(log 57). -/
def State.releasePhase (s : State) (j : Job) : State :=
  j.live.foldl (fun s k => s.onCtx k fun c =>
      if c.hold = .cross then
        { c with hold := .ready, expired := c.expired || match c.crossEnd with | some t => decide (t < j.releaseAt) | none => false }
      else c)
    (s.onJob j.id fun x => { x with phase := x.phase + 1, arrived := [], arrivedAt := [] })

/-- CROSSING_RELEASE (R185, R207). -/
def execCrossingRelease (s : State) : Res :=
  match s.job? s.input.job.toNat with
  | none => .next s
  | some j => if s.releaseDue j then .next (s.releasePhase j) else .next s

/-- Whether a crossing wait has lasted %crossto cycles (R184), and its phase is not released before or with its end. -/
def State.crossExpired (s : State) (k : Nat) : Bool :=
  match (s.ctxAt k).crossEnd with
  | none => false
  | some t => decide (t ≤ s.now) && match s.job? (s.ctxAt k).job with | some j => !(j.allArrived && decide (j.releaseAt ≤ t)) | none => true

/-- CROSSING_TIMEOUT (R184): the held instruction executes again and returns with T = 1. -/
def execCrossingTimeout (s : State) : Res :=
  let k := s.input.key.toNat
  if s.crossExpired k then .next (s.onCtx k fun c => { c with hold := .ready, expired := true }) else .next s

/-! ### Traps and strip stops (R194, R196, R386) -/

/-- The oldest notice to a strand taken as a trap, at the next instruction not yet issued (R192). -/
def State.raiseNotice (s : State) (k : Nat) : State :=
  match (s.ctxAt k).notices with
  | [] => s
  | c :: cs => (s.onCtx k fun x => { x with notices := cs }).raise { key := k, cause := c, tepc := (s.ctxAt k).resumePc }

/-- A held strand of a core that stands at an instruction boundary with a notice to take. -/
def State.noticed (s : State) (m : Nat) : Option Nat :=
  s.strands.find? fun k =>
    s.coreOf k == m && !(s.ctxAt k).notices.isEmpty && (s.ctxAt k).hold != .ready && s.standsAt k

/-- Whether a pending trap of a core can be delivered. -/
def State.deliverable (s : State) (m : Nat) : Bool := !(s.coreAt m).servicing && !(s.coreAt m).traps.isEmpty

/-- TRAP_DELIVERY (R196): a pending trap first, then a notice to a held strand. -/
def execTrapDelivery (s : State) : Res :=
  let m := s.input.core.toNat
  if s.deliverable m then .next (s.deliver m)
  else
    match s.noticed m with
    | some k => .next (s.raiseNotice k)
    | none => .next s

/-- Whether the word at a strand's pc is a VSET or an END, a strip boundary. -/
def State.atBoundary (s : State) (k : Nat) : Bool :=
  match s.peekWord k (s.ctxAt k).pc with
  | none => false
  | some w =>
    match decodeWord w.toNat with
    | .ok (.vset _ _ _) => (s.ctxAt k).vec
    | .ok .endStrand => true
    | _ => false

/-- A strand of a core whose strip stop is due. -/
def State.stripDue (s : State) (m : Nat) : Option Nat :=
  s.strands.find? fun k =>
    s.coreOf k == m && (s.ctxAt k).hold == .ready && s.stripStops k && s.settled k && s.atBoundary k

/-- STRIP_STOP (R386). -/
def execStripStop (s : State) : Res :=
  match s.stripDue s.input.core.toNat with
  | some k => .next (s.stripStop k)
  | none => .next s

/-! ### The vector sequencer (R130, R293) -/

/-- CONVOY_OPEN (R44). -/
def execConvoyOpen (s : State) : Res :=
  match s.vectorStrand s.input.core.toNat with
  | some k => .next (s.openConvoy k)
  | none => .next s

/-- CONVOY_DRAIN (R130). -/
def execConvoyDrain (s : State) : Res :=
  match s.vectorStrand s.input.core.toNat with
  | some k => .next (s.drainConvoy k)
  | none => .next s

/-- An image enters the inbox of the vector strand it is for: on the core, or kept with its pre-empted job once other work has the core; there is
none when the job has ended (R293, R204). -/
def State.putImage (s : State) (m : Nat) (i : Image) : State :=
  let mine (v : Saved) : Bool := v.ctx.vec && v.ctx.here / 16 == m
  match s.job? i.job with
  | none => s
  | some j =>
    if (match s.vectorStrand m with | some k => (s.ctxAt k).job == i.job | none => false)
        || j.saved.any fun v => mine v && v.lanes.isNone then
      s.onCore m fun c => { c with inbox := c.inbox ++ [i] }
    else s.onJob i.job fun j => { j with saved := j.saved.map fun v => if mine v then { v with inbox := v.inbox ++ [i] } else v }

/-- The oldest image on its way to a core whose message is the next of its pair (R119). -/
def State.imageNext (s : State) (m : Nat) : Option Image :=
  (s.coreAt m).arriving.find? fun i => i.src == m || s.nextMsgIs .image none i.src m

/-- The oldest image on its way to a core enters its inbox (R293). -/
def State.landImage (s : State) (m : Nat) : State :=
  match s.imageNext m with
  | none => s
  | some i =>
    ((if i.src = m then s else s.receiveMsg i.src m).onCore m fun c => { c with arriving := c.arriving.erase i }).putImage m i

/-- IMAGE_ARRIVAL (R293). -/
def execImageArrival (s : State) : Res := .next (s.landImage s.input.core.toNat)

/-! ### The haul engine (R296 to R301) -/

/-- The transfer that a step names by core, channel and id, acted on. -/
def State.onNamedXfer (s : State) (f : Nat → Xfer → State) : Res :=
  let m := s.input.core.toNat
  match (s.coreAt m).xfers.find? fun x => x.chan == s.input.index.toNat && x.id == s.input.num.toNat with
  | some x => .next (f m x)
  | none => .next s

/-- TRANSFER_START (R298). -/
def execTransferStart (s : State) : Res := s.onNamedXfer s.startXfer

/-- TRANSFER_COMPLETE (R296, R300), or the uncorrectable error that ends a transfer (R301). -/
def execTransferComplete (s : State) : Res :=
  s.onNamedXfer fun m x => if s.xferStruck x then s.strikeXfer m x else s.completeXfer m x

/-- HAUL_FAULT (R301). -/
def execHaulFault (s : State) : Res := s.onNamedXfer s.faultXfer

/-! ### The anvil (R311, R312, R324) -/

/-- LEASE_WIN (R312). -/
def execLeaseWin (s : State) : Res := .next (s.winLease (s.input.index.toNat % 32))

/-- LEASE_IDLE_PASS (R311). -/
def execLeaseIdlePass (s : State) : Res := .next (s.passIdle (s.input.index.toNat % 32))

/-- ANVIL_COMMAND_START (R324). -/
def execAnvilCommandStart (s : State) : Res := .next (s.startAnvil s.input.core.toNat)

/-- ANVIL_COMMAND_COMPLETE (R324). -/
def execAnvilCommandComplete (s : State) : Res := .next (s.completeAnvil s.input.core.toNat)

/-! ### The trellis encoder and the coding engines (R337, R358, R363) -/

/-- TENC_START (R337). -/
def execTencStart (s : State) : Res := .next (s.startTenc (s.input.index.toNat % 32))

/-- TENC_COMPLETE (R337). -/
def execTencComplete (s : State) : Res := .next (s.completeTenc (s.input.index.toNat % 32))

/-- CODING_REQUEST_START (R358). -/
def execCodingRequestStart (s : State) : Res := .next (s.startCode (s.input.index.toNat % 16))

/-- CODING_REQUEST_COMPLETE (R358, R361). -/
def execCodingRequestComplete (s : State) : Res := .next (s.completeCode (s.input.index.toNat % 16))

/-- CODING_FAULT (R363). -/
def execCodingFault (s : State) : Res := .next (s.failCode (s.input.index.toNat % 16))

/-! ### Fronthaul ports (R342, R346 to R351) -/

/-- The window or send that a step names by core and handle, acted on where its step is due. -/
def State.onNamedFh (s : State) (due : FhItem → Bool) (f : FhItem → State) : Res :=
  match (s.coreAt s.input.core.toNat).fh.find? fun x => x.handle == s.input.num.toNat with
  | some x => if due x then .next (f x) else .next s
  | none => .next s

/-- Whether an item is on its way to its port. -/
def FhItem.travels (f : FhItem) : Bool := !f.arrived && !f.gone && f.state != .sent

/-- PORT_ARRIVAL (R351). -/
def execPortArrival (s : State) : Res := s.onNamedFh FhItem.travels s.portArrival

/-- U_PLANE_MESSAGE (R347): one section, received now. -/
def execUPlaneMessage (s : State) : Res := .next (s.section_ s.input.section_)

/-- RECEIVED_FRAME (R342): a frame that is not eCPRI type 0 goes to the steward with its timestamp, from a link that is up (R420) and at most 9,216
bytes long. -/
def execReceivedFrame (s : State) : Res :=
  let port := s.input.index.toNat % 8
  let half := s.input.index.toNat / 8 % 2
  if s.linkUp port half ∧ s.input.bytes.length ≤ 9216 then
    .next { s with dev := { s.dev with
      frames := s.dev.frames ++ [({ port := port, half := half, stamp := s.stamp, bytes := s.input.bytes } : RxFrame)] } }
  else .next s

/-- Whether a window opens: from START on (R348). -/
def State.opensNow (s : State) (f : FhItem) : Bool := !f.isSend && f.state == .armed && decide (f.start ≤ s.dev.time.toNat)

/-- WINDOW_OPEN (R348). -/
def execWindowOpen (s : State) : Res :=
  s.onNamedFh s.opensNow fun f => s.onFh f.core f.handle fun g => { g with state := .opened }

/-- Whether a window closes: at the first tick at or after END (R348). -/
def State.closesNow (s : State) (f : FhItem) : Bool :=
  !f.isSend && (f.state == .armed || f.state == .opened) && decide (f.stop ≤ s.tickTime)

/-- WINDOW_CLOSE (R348). -/
def execWindowClose (s : State) : Res := s.onNamedFh s.closesNow fun f => s.closeWindow f s.dev.time.toNat

/-- Whether a window stops being matchable: 1 ms after it closed (R347). -/
def State.expiresNow (s : State) (f : FhItem) : Bool :=
  !f.isSend && f.state == .closed && !f.gone && decide (f.closedAt + 1000000 ≤ s.dev.time.toNat)

/-- WINDOW_EXPIRY (R347). -/
def execWindowExpiry (s : State) : Res :=
  s.onNamedFh s.expiresNow fun f => (s.onFh f.core f.handle fun g => { g with gone := true }).onCore f.core Core.trimFh

/-- Whether a send of the same line leaves before another: the earlier LAUNCH, then the earlier to be issued (R349). -/
def FhItem.leavesBefore (a b : FhItem) : Bool :=
  a.sameLine b && (decide (a.start < b.start) || (a.start == b.start && decide (a.order < b.order)))

/-- Whether a send leaves its port: its LAUNCH has come, its line is free, and none stands before it (R349). -/
def State.launchesNow (s : State) (f : FhItem) : Bool :=
  f.isSend && f.arrived && f.state == .queued && decide (f.start ≤ s.dev.time.toNat)
    && !(s.lineBusy f) && !(s.core.any fun p => p.2.fh.any fun g => g.arrived && g.state == .queued && g.leavesBefore f)

/-- SEND_LAUNCH (R349). -/
def execSendLaunch (s : State) : Res :=
  s.onNamedFh s.launchesNow fun f => s.onFh f.core f.handle fun g => { g with state := .sending, launchedAt := max f.start g.launchedAt }

/-- Whether a send is leaving. -/
def FhItem.leaving (f : FhItem) : Bool := f.isSend && f.state == .sending

/-- SEND_FINISH (R349). -/
def execSendFinish (s : State) : Res := s.onNamedFh FhItem.leaving s.finishSend

end Sys2Proof.Machine
end

