-- ==== Sys2Proof/Machine/Issue.lean ====
section
/-! DEFINITION. Issue: which context comes next, what it meets before its instruction, and the fetch of its word (08 R128, R129, R134 to R139; 03
R42, R44; 11 R191, R193, R194, R203; 29 R385). -/

namespace Sys2Proof.Machine

/-! ### Which context issues (R128, R129, log 4) -/

/-- Whether a core's steward may issue. -/
def State.stewardReady (s : State) (m : Nat) : Bool :=
  let c := s.coreAt m
  (s.ctxAt (4096 + m)).hold == .ready && !c.fenced && (c.servicing || decide (c.stUsed < bitsOf (c.crGet 0x801) 0 7))

/-- Whether the rotation stops at a strand: it may issue, or a spurious wake notice has come for it (R210). -/
def Ctx.mayIssue (c : Ctx) : Bool := c.hold == .ready || (c.hold == .waita && c.recheck)

/-- The context of a core whose turn comes first: the steward's, or the first strand's in the rotation. -/
def State.nextOn (s : State) (m : Nat) : Option Nat :=
  if s.stewardReady m then some (4096 + m) else s.firstInTurn m fun k => (s.ctxAt k).mayIssue

/-- How far a core stands behind the one whose turn it was. -/
def coreTurn (last m : Nat) : Nat := (m + 255 - last) % 256

/-- The core whose turn comes after a core's, among those of the listed contexts, and the context that issues there. -/
def State.nextTurn (s : State) (last : Nat) : Option (Nat × Nat) :=
  (s.ctx.map fun p => s.coreOf p.1).foldl (fun b m =>
    match b with
    | some (n, _) => if coreTurn last m < coreTurn last n then (match s.nextOn m with | some k => some (m, k) | none => b) else b
    | none => (s.nextOn m).map fun k => (m, k)) none

/-- The turn passes to the next core with a context to issue; a round that ends counts as a cycle. Requests for the tract map unit whose engines
have completed leave here. -/
def State.rotate (s : State) : State :=
  let last := s.coreOf s.cur
  let next := s.nextTurn last
  let s1 : State := ({ s with turn := .issue, served := s.served + 1 } : State).sendTract
  match next with
  | none => s1.nextRound
  | some (m, k) => if m ≤ last then { s1.nextRound with cur := k } else { s1 with cur := k }

/-- How many turns stand before the strands that follow the issuing context in its core's rotation: a steward comes before every strand. -/
def State.turnsGone (s : State) : Nat := if isSteward s.cur then 0 else s.strandTurn s.cur + 1

/-- The issuing context is passed over, and costs no cycle: the next strand of its core has the turn, or, when there is none, the agents (R128). -/
def State.passTurn (s : State) : State :=
  match s.firstInTurn s.myCore fun k => (s.ctxAt k).mayIssue && decide (s.turnsGone ≤ s.strandTurn k) with
  | some k => { s with turn := .issue, cur := k }
  | none => { s with turn := .engines }

/-! ### Before the instruction -/

/-- Whether the word at pc would join the open convoy: the stop comes after it (R203), but for a convoy that waits behind one that waits to open and
stays in the queue. -/
def State.joinsNext (s : State) (k : Nat) : Bool :=
  (s.ctxAt k).open_ && !(s.waitsToOpen k) && match s.peekWord k (s.ctxAt k).pc with
    | some w => decide (0x1C ≤ w.toNat / 2 ^ 25 % 64) && decide (w.toNat / 2 ^ 25 % 64 ≤ 0x26) && !(w.getLsbD 31)
    | none => false

/-- The mask of a LOOPM, read before a pass once every convoy has drained: an empty one ends the level (R138). -/
def Ctx.checkMask (c : Ctx) : Ctx :=
  match c.levels with
  | [] => c
  | l :: ls =>
    if l.checked || !c.drained then c
    else if c.maskEmpty l.mreg then Ctx.endPasses 6 { c with levels := ls, pc := l.stop }
    else { c with levels := { l with checked := true } :: ls }

/-- Whether the innermost level waits for its mask to be read. -/
def Ctx.unchecked (c : Ctx) : Bool := match c.levels with | [] => false | l :: _ => !l.checked

/-- Whether the issuing strand meets a break bit at its word (R385). -/
def State.breaksHere (s : State) : Bool :=
  !(isSteward s.cur) && (s.coreAt s.myCore).breaks.contains s.me.pc.toNat && !s.me.pastBreak

/-- BREAK at a break bit: the restart is the word itself. -/
def State.breakTrap (s : State) : State :=
  (s.onMe fun c => { c with breakAt := some c.pc }).raise { key := s.cur, cause := .brk, tepc := s.me.pc }

/-- What the decoder makes of a word (R42). -/
def instrOf (w : W32) : Instr :=
  match decodeWord w.toNat with
  | .ok i => i
  | .error _ => .notAnInstruction w

/-- Whether a word is a VSET or an END, before which a strip stop comes (R386). -/
def stripWord (w : W32) : Bool :=
  match instrOf w with
  | .vset _ _ _ => true
  | .endStrand => true
  | _ => false

/-- A break bit at a VSET or END whose strand is to stop at its strip boundary gives one trap, the strip stop's (R386). -/
def State.breakAtStrip (s : State) : State :=
  if !(s.settled s.cur) then (s.onMe fun c => { c with again := true, stall := none }).passTurn
  else if s.stripStops s.cur then s.stripStop s.cur
  else s.breakTrap

/-! ### The instruction -/

/-- Whether a word is of a vector major, and so may stand in a convoy. -/
def vectorMajor (w : W32) : Bool := decide (0x1C ≤ w.toNat / 2 ^ 25 % 64) && decide (w.toNat / 2 ^ 25 % 64 ≤ 0x26)

/-- A word begins to issue: a word that is no vector instruction closes the open convoy (R44). -/
def State.begin (s : State) (w : W32) : State :=
  let s1 : State := { s with turn := .engines, ir := w }
  if vectorMajor w || !s.me.open_ then s1 else s1.onMe fun c => { c with open_ := false }

/-- The word at pc as the loop buffer holds it: in a level that is innermost by construction, once it has been fetched there (R135). -/
def Ctx.replayed (c : Ctx) : Option W32 :=
  match c.levels with
  | [] => none
  | l :: _ => if l.inner && l.holds c.pc then (l.words.find? fun p => p.1 == l.position c.pc).map (·.2) else none

/-- A word fetched in such a level stands in the loop buffer from then on. -/
def Ctx.buffered (c : Ctx) (w : W32) : Ctx :=
  match c.levels with
  | [] => c
  | l :: ls => if l.inner && l.holds c.pc then { c with levels := { l with words := Sparse.put l.words (l.position c.pc) w } :: ls } else c

/-- The word at pc: replayed, or fetched as the four bytes at that address, DESIGN CHOICE where ERET has left bits [1:0] not 0 (log 50), with its line
filled. -/
def State.fetchWord (s : State) : Option (W32 × State) :=
  match s.me.replayed with
  | some w => some (w, s)
  | none =>
    match s.resolve s.cur s.me.pc.toNat .fetch with
    | .error _ => none
    | .ok (p, s1) =>
      let s2 := s1.fillLine s1.myCore s1.me.pc.toNat
      let w : W32 := BitVec.ofNat 32 (s2.readNat p.loc 4)
      some (w, s2.onMe fun c => c.buffered w)

/-- What the issuing context comes to: a state without an instruction, or an instruction to execute. -/
structure Issuing where
  s : State
  i : Option Instr := none

/-- The issuing context waits for a result, with the pair that R387 charges. -/
def State.awaitLate (s : State) (l : Late) : State :=
  (s.onMe fun c => { c with again := true, stall := if l.charged then c.stallOn l.pc.toNat else none }).passTurn

/-- The word at pc issues, if it can be fetched: held while a result it reads is on its way (R128) or a level the sequencer has taken over binds a
register it names (R139); then comes BREAK. -/
def State.fetchIssue (s : State) : Issuing :=
  match s.fetchWord with
  | none => { s := s, i := some .fetchFault }
  | some (w, s1) =>
    match s1.me.awaited s1.now w with
    | some l => { s := s1.awaitLate l }
    | none =>
      if s1.me.boundAway w then { s := (s1.onMe fun c => { c with again := true, stall := none }).passTurn }
      else if s1.breaksHere then { s := if stripWord w && s1.maySettle s1.cur then s1.breakAtStrip else s1.breakTrap }
      else { s := s1.begin w, i := some (instrOf w) }

/-- A position that does not issue is passed over and takes no cycle; a pass that has ended so gives the other strands of the core their turn. -/
def State.skipWord (s : State) : State :=
  let s1 := s.onMe Ctx.advance
  if s1.me.pc.toNat = s.me.pc.toNat + 4 then s1 else s1.passTurn

/-- The mask of a LOOPM is read, and the strand goes on; or it waits until its convoys have drained. -/
def State.maskTurn (s : State) : State :=
  if s.me.drained then { s.onMe Ctx.checkMask with turn := .issue } else (s.onMe fun c => { c with again := true, stall := none }).passTurn

/-- Whether the issuing wayfarer stands where its hand-over is to begin: its core's copy of the map has changed (R372, R381). -/
def State.stopsToMove (s : State) : Bool := s.handed s.cur && s.standsAt s.cur

/-- The issuing context's turn: hand-overs, notices, the mask of a LOOPM and positions that do not issue come before its word (R134 to R138, R194,
R203, R372). -/
def State.issuing (s : State) : Issuing :=
  let c := s.me
  if c.hold ≠ .ready then { s := s.passTurn }
  else if s.stopsToMove then { s := s.passTurn }
  else if !c.notices.isEmpty then { s := (s.raiseNotice s.cur).passTurn }
  else if c.unchecked then { s := s.maskTurn }
  else if c.skips then { s := s.skipWord }
  else ({ s with turn := .engines } : State).fetchIssue

/-! ### Counting (R128, R129, R189, R384) -/

/-- A strand of a core has issued: the other strands that have yielded count it (R189). -/
def State.countYield (s : State) (m k : Nat) : State :=
  (s.strands.filter fun j => j != k && s.coreOf j == m && (s.ctxAt j).yielded.isSome).foldl (fun s j =>
    s.onCtx j fun c => { c with yielded := c.yielded.map fun l => k :: l.filter (· != k) }) s

/-- The issuing context takes its issue slot: a strand's, from which the rotation goes on, or one of the steward's share, which an issue made while it
services a trap is not. Events 1 and 15 count it. -/
def State.takeSlot (s : State) : State :=
  let m := s.myCore
  if isSteward s.cur then
    s.onCore m fun c =>
      ({ c with issued := true, stUsed := if c.servicing then c.stUsed else c.stUsed + 1 }.count 1 16 1).count 15 16 1
  else
    ((s.countYield m s.cur).onCore m fun c => { c with issued := true, lastSlot := s.me.here % 16 }.count 1 (s.me.here % 16) 1).onMe
      fun c => { c with waited := true, yielded := none, late := c.late.filter fun l => decide (s.now < l.at_) }

/-- The sample records of the event that an issue counted, written when it has executed, so that they name the next instruction (R389). -/
def State.sampleIssue (s before : State) : State :=
  let k := before.cur
  let m := before.myCore
  let old := (before.counter m (before.coreAt m).sampled).toNat
  if before.samplesEvent m k 1 || (isSteward k && before.samplesEvent m k 15) then s.samples m k old 1 else s

/-- A WAITA whose spurious notice has come takes an issue slot and parks again, its count afresh (R178, R210). -/
def State.parkAgain (s : State) : State :=
  let s1 := s.takeSlot.onMe fun c => { c with recheck := false, since := s.now }
  { s1.sampleIssue s with turn := .engines }

end Sys2Proof.Machine
end

