-- ==== Sys2Proof/Machine/Load.lean ====
section
/-! DEFINITION. A program of one word placed where the next step fetches it: what a loader outside the machine does (log 5). -/

namespace Sys2Proof.Machine

/-- Where the placed word stands, and the table that maps it: one leaf of level 3 that maps the first 32 GiB to themselves (R100, R101). -/
def loadPc : Nat := 0x1000
def loadRoot : Nat := 0x40000
/-- V, leaf, W, X, U, A and D. -/
def loadPte : Nat := 0xDF

/-- Whether a word needs a vector strand: the vector majors and the anvil's (R40, R126). -/
def needsVec (w : Nat) : Bool := decide (0x1C ≤ w / 2 ^ 25 % 64) && decide (w / 2 ^ 25 % 64 ≤ 0x27)

/-- The strand that runs the word, on core 0 in slot 0. -/
def loadCtx (w : Nat) : Ctx :=
  { pc := BitVec.ofNat 50 loadPc, cr := Sparse.set 0 crStart 0x506 (BitVec.ofNat 64 loadRoot), job := 1, vec := needsVec w }

/-- Its job: one strand, and a deadline that never comes. -/
def loadJob : Job :=
  { id := 1, record := { (default : JobRecord) with w3 := BitVec.allOnes 64 }, root := BitVec.ofNat 64 loadRoot, state := .running
    places := [0], live := [0] }

/-- The state in which the next step fetches a word. -/
def State.load (s : State) (w : Nat) : State :=
  let mem := pokeBytes (pokeBytes s.mem loadRoot (leBytes 8 loadPte)) loadPc (leBytes 4 w)
  let s1 : State := { s with
    mem := mem, cur := 0, turn := .issue, schedule := []
    sched := { s.sched with jobs := loadJob :: s.sched.jobs } }
  (s1.setCtx 0 (loadCtx w)).onCore 0 fun c => { c with tlb := [], breaks := [], lines := [] }

end Sys2Proof.Machine
end

