-- ==== Sys2Proof/Machine/Alu.lean ====
section
/-! DEFINITION. Register-to-register arithmetic, multiplication and division, and the immediate forms (09 R147 to R154). -/

namespace Sys2Proof.Machine

/-! ### The functions -/

/-- 1 or 0. -/
def flagWord (c : Bool) : W64 := if c then 1 else 0

/-- A shift or rotate amount: the low six bits (R147). -/
def amount (v : W64) : Nat := v.toNat % 64

/-- The number of leading zero bits, 0 to 64. -/
def clz64 (v : W64) : W64 := BitVec.ofNat 64 (if v = 0 then 64 else 63 - Nat.log2 v.toNat)

/-- The number of trailing zero bits, 0 to 64. -/
def ctz64 (v : W64) : W64 := BitVec.ofNat 64 (((List.range 64).find? fun i => v.getLsbD i).getD 64)

/-- The number of one bits. -/
def popc64 (v : W64) : W64 := BitVec.ofNat 64 ((List.range 64).countP fun i => v.getLsbD i)

/-- Bits above k cleared (R147 ZEXT). -/
def zextFrom (v : W64) (k : Nat) : W64 := BitVec.ofNat 64 (v.toNat % 2 ^ (k + 1))

/-- Bits above k set to bit k (R147 SEXT). -/
def sextFrom (v : W64) (k : Nat) : W64 :=
  if v.getLsbD k then BitVec.ofNat 64 (v.toNat % 2 ^ (k + 1) + 2 ^ 64 - 2 ^ (k + 1)) else zextFrom v k

def minS (a b : W64) : W64 := if a.slt b then a else b
def maxS (a b : W64) : W64 := if a.slt b then b else a
def minU (a b : W64) : W64 := if a.ult b then a else b
def maxU (a b : W64) : W64 := if a.ult b then b else a

/-- Bits [127:64] of the i64 × i64 product (R148). -/
def mulHigh (a b : W64) : W64 := BitVec.ofInt 64 (a.toInt * b.toInt / 2 ^ 64)

/-- Bits [127:64] of the n64 × n64 product (R148). -/
def mulHighN (a b : W64) : W64 := BitVec.ofNat 64 (a.toNat * b.toNat / 2 ^ 64)

/-- Division toward zero; by zero −1, and −2^63 / −1 is −2^63 (R149). -/
def divS (a b : W64) : W64 := if b = 0 then BitVec.allOnes 64 else BitVec.ofInt 64 (Int.tdiv a.toInt b.toInt)
def remS (a b : W64) : W64 := if b = 0 then a else BitVec.ofInt 64 (Int.tmod a.toInt b.toInt)
def divU (a b : W64) : W64 := if b = 0 then BitVec.allOnes 64 else BitVec.ofNat 64 (a.toNat / b.toNat)
def remU (a b : W64) : W64 := if b = 0 then a else BitVec.ofNat 64 (a.toNat % b.toNat)

/-! ### ALU (R147) -/

def execAdd (d a b : BitVec 5) (s : State) : Res := s.result d (s.rd a + s.rd b)
def execSub (d a b : BitVec 5) (s : State) : Res := s.result d (s.rd a - s.rd b)
def execAnd (d a b : BitVec 5) (s : State) : Res := s.result d (s.rd a &&& s.rd b)
def execOr (d a b : BitVec 5) (s : State) : Res := s.result d (s.rd a ||| s.rd b)
def execXor (d a b : BitVec 5) (s : State) : Res := s.result d (s.rd a ^^^ s.rd b)
def execAndn (d a b : BitVec 5) (s : State) : Res := s.result d (s.rd a &&& ~~~(s.rd b))
def execShl (d a b : BitVec 5) (s : State) : Res := s.result d (s.rd a <<< amount (s.rd b))
def execShr (d a b : BitVec 5) (s : State) : Res := s.result d (s.rd a >>> amount (s.rd b))
def execSra (d a b : BitVec 5) (s : State) : Res := s.result d ((s.rd a).sshiftRight (amount (s.rd b)))
def execRol (d a b : BitVec 5) (s : State) : Res := s.result d ((s.rd a).rotateLeft (amount (s.rd b)))
def execSlt (d a b : BitVec 5) (s : State) : Res := s.result d (flagWord ((s.rd a).slt (s.rd b)))
def execSltn (d a b : BitVec 5) (s : State) : Res := s.result d (flagWord ((s.rd a).ult (s.rd b)))
def execSeq (d a b : BitVec 5) (s : State) : Res := s.result d (flagWord (s.rd a == s.rd b))
def execMin (d a b : BitVec 5) (s : State) : Res := s.result d (minS (s.rd a) (s.rd b))
def execMax (d a b : BitVec 5) (s : State) : Res := s.result d (maxS (s.rd a) (s.rd b))
def execMinn (d a b : BitVec 5) (s : State) : Res := s.result d (minU (s.rd a) (s.rd b))
def execMaxn (d a b : BitVec 5) (s : State) : Res := s.result d (maxU (s.rd a) (s.rd b))
def execClz (d a : BitVec 5) (s : State) : Res := s.result d (clz64 (s.rd a))
def execCtz (d a : BitVec 5) (s : State) : Res := s.result d (ctz64 (s.rd a))
def execPopc (d a : BitVec 5) (s : State) : Res := s.result d (popc64 (s.rd a))
def execSext (d a b : BitVec 5) (s : State) : Res := s.result d (sextFrom (s.rd a) (amount (s.rd b)))
def execZext (d a b : BitVec 5) (s : State) : Res := s.result d (zextFrom (s.rd a) (amount (s.rd b)))

/-! ### MULDIV (R148, R149) -/

def execMul (d a b : BitVec 5) (s : State) : Res := s.result d (s.rd a * s.rd b)
def execMulh (d a b : BitVec 5) (s : State) : Res := s.result d (mulHigh (s.rd a) (s.rd b))
def execMulhn (d a b : BitVec 5) (s : State) : Res := s.result d (mulHighN (s.rd a) (s.rd b))
def execDiv (d a b : BitVec 5) (s : State) : Res := s.result d (divS (s.rd a) (s.rd b))
def execDivn (d a b : BitVec 5) (s : State) : Res := s.result d (divU (s.rd a) (s.rd b))
def execRem (d a b : BitVec 5) (s : State) : Res := s.result d (remS (s.rd a) (s.rd b))
def execRemn (d a b : BitVec 5) (s : State) : Res := s.result d (remU (s.rd a) (s.rd b))

/-! ### Immediate forms (R151 to R154) -/

def execAddi (d a : BitVec 5) (i : BitVec 15) (s : State) : Res := s.result d (s.rd a + sx i)
def execAndi (d a : BitVec 5) (i : BitVec 15) (s : State) : Res := s.result d (s.rd a &&& sx i)
def execOri (d a : BitVec 5) (i : BitVec 15) (s : State) : Res := s.result d (s.rd a ||| sx i)
def execXori (d a : BitVec 5) (i : BitVec 15) (s : State) : Res := s.result d (s.rd a ^^^ sx i)
def execSlti (d a : BitVec 5) (i : BitVec 15) (s : State) : Res := s.result d (flagWord ((s.rd a).slt (sx i)))
def execSltni (d a : BitVec 5) (i : BitVec 15) (s : State) : Res := s.result d (flagWord ((s.rd a).ult (sx i)))
def execShli (d a : BitVec 5) (n : BitVec 6) (s : State) : Res := s.result d (s.rd a <<< n.toNat)
def execShri (d a : BitVec 5) (n : BitVec 6) (s : State) : Res := s.result d (s.rd a >>> n.toNat)
def execSrai (d a : BitVec 5) (n : BitVec 6) (s : State) : Res := s.result d ((s.rd a).sshiftRight n.toNat)
def execRoli (d a : BitVec 5) (n : BitVec 6) (s : State) : Res := s.result d ((s.rd a).rotateLeft n.toNat)

/-- LIH (R153). -/
def execLih (d : BitVec 5) (i : BitVec 20) (s : State) : Res := s.result d (sx i <<< 15)

/-- ADDPC (R154): the offset counts bytes. -/
def execAddpc (d : BitVec 5) (i : BitVec 20) (s : State) : Res := s.result d ((s.me.pc + i.signExtend 50).setWidth 64)

end Sys2Proof.Machine
end

