-- ==== Sys2Proof/Machine/Control.lean ====
section
/-! DEFINITION. Branches, jumps and the loop instructions (09 R155 to R165; 08 R133 to R139). -/

namespace Sys2Proof.Machine

/-! ### Branches and jumps (R155 to R158) -/

/-- Whether a branch or jump from the body of the innermost active level may go to a target: a word of the body, or its end (R135, R158).
A word outside the body is not checked. -/
def Ctx.mayGo (c : Ctx) (t : VA) : Bool :=
  match c.levels with
  | [] => true
  | l :: _ => !(l.holds c.pc) || ((l.holds t || t == l.stop) && t.toNat % 4 == l.start.toNat % 4)

/-- A taken branch or jump goes to its target; a strand then forgoes its next turn (R128, class SB). -/
def State.leap (s : State) (t : VA) : State := s.onMe fun c => { c.jump t with forgoes := !(isSteward s.cur) }

/-- A branch or jump to a target. -/
def State.goTo (s : State) (t : VA) : Res := if s.me.mayGo t then .next (s.leap t) else s.illegal

/-- Whether a branch synchronises: a synchronising instruction wrote one of its operands last, and convoys are queued (R48, R157). -/
def Ctx.branchSyncs (c : Ctx) (a b : BitVec 5) : Bool :=
  !c.drained && (c.syncRegs.contains a.toNat || c.syncRegs.contains b.toNat)

/-- A conditional branch on two registers: one that is not taken has no target to check (R158, log 25). -/
def State.branch (s : State) (test : W64 → W64 → Bool) (a b : BitVec 5) (o : BitVec 15) : Res :=
  if s.me.branchSyncs a b then s.waitOn s.me.oldest
  else if test (s.rd a) (s.rd b) then s.goTo (s.me.target o) else .next s.advance

/-- BEQ (R155). -/
def execBeq (a b : BitVec 5) (o : BitVec 15) (s : State) : Res := s.branch (fun x y => x == y) a b o
/-- BNE (R155). -/
def execBne (a b : BitVec 5) (o : BitVec 15) (s : State) : Res := s.branch (fun x y => x != y) a b o
/-- BLT (R155): signed. -/
def execBlt (a b : BitVec 5) (o : BitVec 15) (s : State) : Res := s.branch (fun x y => x.slt y) a b o
/-- BGE (R155): signed. -/
def execBge (a b : BitVec 5) (o : BitVec 15) (s : State) : Res := s.branch (fun x y => !(x.slt y)) a b o
/-- BLTN (R155): unsigned. -/
def execBltn (a b : BitVec 5) (o : BitVec 15) (s : State) : Res := s.branch (fun x y => x.ult y) a b o
/-- BGEN (R155): unsigned. -/
def execBgen (a b : BitVec 5) (o : BitVec 15) (s : State) : Res := s.branch (fun x y => !(x.ult y)) a b o

/-- Whether the word at pc lies in a level that is innermost by construction, which holds no call (R135, R158). -/
def Ctx.inInnermost (c : Ctx) : Bool :=
  match c.levels with
  | [] => false
  | l :: _ => l.inner && l.holds c.pc

/-- JAL (R156): d = 0 is a jump, any other d a call. DEDUCED: R158, which refines R135, lets a jump go to a word of its own body or its end, also in a
level that is innermost by construction, where R135 alone would trap (log 55). -/
def execJal (d : BitVec 5) (o : BitVec 20) (s : State) : Res :=
  if d = 0 then s.goTo (s.me.target o)
  else if s.coordDest d || s.me.inInnermost then s.illegal
  else .next ((s.wr d ((s.me.pc + 4).setWidth 64)).leap (s.me.target o))

/-- The target of a JALR, computed before d is written (R156). -/
def State.jalrTarget (s : State) (a : BitVec 5) (i : BitVec 15) : VA := BitVec.ofNat 50 (s.rd a + sx i).toNat

/-- JALR (R156), with the same choice for a jump in an innermost body (log 55). -/
def execJalr (d a : BitVec 5) (i : BitVec 15) (s : State) : Res :=
  let t := s.jalrTarget a i
  if (if d = 0 then !(s.me.mayGo t) else s.coordDest d || s.me.inInnermost) then s.illegal
  else if t.toNat % 4 ≠ 0 then s.trapAt .misalign t.toNat
  else .next ((s.wr d ((s.me.pc + 4).setWidth 64)).leap t)

end Sys2Proof.Machine
end

