-- ==== Sys2Proof/Machine/Dbg.lean ====
section
/-! DEFINITION. The debug instructions (29_debug R388 to R390). -/

namespace Sys2Proof.Machine

/-- TRACE (R390): a user record, when %dtctl.USER is set. -/
def execTrace (a b : BitVec 5) (s : State) : Res :=
  let m := s.myCore
  let s1 :=
    if ((s.coreAt m).crGet 0x484).getLsbD 6 then
      s.traceRecord m (s.traceHead m s.cur 2 s.me.grant s.me.pc ++ [s.traceData s.cur (s.rd a).toNat, s.rd b])
    else s
  .next s1.advance

/-- Field f of a stall entry (R388). -/
def StallEntry.field (e : StallEntry) (f : Nat) : Nat :=
  match f with
  | 0 => e.ppc
  | 1 => e.cpc
  | 2 => e.lost
  | 3 => e.maxlag
  | _ => e.count

/-- What CNTRD reads (R390). -/
def State.cntrd (s : State) (sel : W64) : W64 :=
  let c := s.coreAt s.myCore
  if bitsOf sel 12 4 = 0 ∧ bitsOf sel 3 9 = 0 then s.counter s.myCore (bitsOf sel 0 3)
  else if bitsOf sel 12 4 = 1 ∧ bitsOf sel 8 4 = 0 ∧ bitsOf sel 3 1 = 0 ∧ bitsOf sel 0 3 ≤ 4 then
    match c.stalls.getD (bitsOf sel 4 4) none with
    | some e => if e.job = s.me.job then BitVec.ofNat 64 (e.field (bitsOf sel 0 3)) else 0
    | none => 0
  else status 6

/-- CNTRD (R390). -/
def execCntrd (d a : BitVec 5) (s : State) : Res := if s.coordDest d then s.illegal else s.done d (s.cntrd (s.rd a))

/-- CNTCFG (R390). -/
def execCntcfg (d a b : BitVec 5) (s : State) : Res :=
  if s.coordDest d then s.illegal
  else
    let k := bitsOf (s.rd a) 0 3
    let v := s.rd b
    if 15 < bitsOf v 0 8 ∨ bitsOf v 13 51 ≠ 0 then s.done d (status 6)
    else
      (s.onCore s.myCore fun c => (c.crSet (0x498 + k) v).crSet (0x490 + k) 0).done d ((s.coreAt s.myCore).crGet (0x498 + k))

end Sys2Proof.Machine
end

