-- ==== Sys2Proof/Machine/Sys.lean ====
section
/-! DEFINITION. The system instructions, and what a strand meets where no instruction can issue (10 R186 to R191; 03 R40, R42, R46; 11
R193, R198). -/

namespace Sys2Proof.Machine

/-- ILL: no instruction (R40, R186). -/
def execIll (s : State) : Res := s.illegal

/-- NOP (R186). -/
def execNop (s : State) : Res := .next s.advance

/-- The steward may not execute the instruction: its core is fenced, and no strand's registers change (R191). -/
def State.stewardFault (s : State) : Res := .next (s.fenceCore (s.cur - 4096))

/-- TRAP (R187): SERVICE with the request word. -/
def execTrap (a : BitVec 5) (s : State) : Res := if isSteward s.cur then s.stewardFault else s.trap .service (s.rd a)

/-- YIELD (R189): it retires, and the strand is not ready until every other ready strand of its core has issued once. -/
def execYield (s : State) : Res :=
  if isSteward s.cur then s.stewardFault else .next (s.onMe fun c => { c.advance with yielded := some [] })

/-- IDLE (R189): the strand is held until the steward resumes it. -/
def execIdle (s : State) : Res :=
  if isSteward s.cur then s.stewardFault else .next (s.onMe fun c => { c.advance with hold := .idle })

/-- BKPT (R190): BREAK, with the restart past the word. -/
def execBkpt (s : State) : Res := s.trapTo .brk 0 (s.me.pc + 4)

/-! ### END (R188, R191, R216) -/

/-- The last strand of a running crew has ended: the job completes, and its crossing channel is free (R182). -/
def State.checkLast (s : State) (j : Nat) : State :=
  s.onJob j fun x => if x.state = .running ∧ x.live = [] then { x with state := .completing, preempt := false, channel := none } else x

/-- A strand retires its END, which its core reports to the scheduler (R118); a pre-emption asked of it is acknowledged with ENDED. -/
def State.retireEnd (s : State) (k : Nat) : State :=
  let j := (s.ctxAt k).job
  let asked := match s.job? j with | some x => x.preempt | none => false
  let s1 := ((s.send .sys (s.coreOf k) schedulerStop).endStrand k).checkLast j
  if asked then { s1 with sched := { s1.sched with endedAcks := s1.sched.endedAcks ++ [k] } } else s1

/-- END (R188): it waits until the strand's convoys have drained and its anvil commands have completed. -/
def execEndStrand (s : State) : Res :=
  if isSteward s.cur then s.stewardFault
  else s.atStrip (if s.settled s.cur then .next (s.retireEnd s.cur) else s.wait)

/-! ### ERET (R198, R47, R132) -/

/-- Queue entry i as the trap queue registers give it, where gone entries have been taken from the front: a word that was captured keeps its settings
(log 24), any other is decoded anew. -/
def State.requeued (s : State) (m k gone i : Nat) : Entry :=
  let c := s.ctxAt k
  let core := s.coreAt m
  let word : W32 := (core.crGet (0x820 + 3 * i)).setWidth 32
  let tvpc : VA := (core.crGet 0x806).setWidth 50
  let old := (flatItems false c.captured).getD (gone + i) { word := word + 1 }
  let e : Entry :=
    if old.word = word then { old with set := mergeSettings c.settings c.trapSet old.set }
    else
      match vectorWord word with
      | some v =>
        { word := word, pc := tvpc + BitVec.ofNat 50 (4 * i), opens := v.m.cb, set := c.settings
          m := if c.rotating then v.m.rotate c.rb.toNat else v.m }
      | none => { word := word, pc := tvpc + BitVec.ofNat 50 (4 * i), opens := false, set := c.settings, m := { op := .refused } }
  { e with
    g1 := core.crGet (0x821 + 3 * i), g2 := core.crGet (0x822 + 3 * i)
    opens := i == 0 || e.opens, pc := if i = 0 then tvpc else e.pc }

/-- An entry with the VL and type of its place. -/
def Entry.at_ (e : Entry) (x : Nat × Nat) : Entry := { e with set := { e.set with vl := x.1, ty := x.2 } }

/-- Queue items with the VL and type of their places, from those before them. -/
def placeStrips (x : Nat × Nat) : List QItem → List QItem
  | [] => []
  | .entry e :: q => .entry (e.at_ x) :: placeStrips (QItem.strip x (.entry e)) q
  | .level l :: q => .level { l with body := l.body.map fun b => (b.1.at_ x, b.2) } :: placeStrips x q

/-- The captured queue with its entries as the registers give them: gone entries are left out at the front, a handed level stays one, its body words
taken from the registers unless a pass of it is at hand, and entries that were not captured follow (R132, R198). -/
def rebuild : Bool → Nat → List Entry → List QItem → List QItem
  | _, _, es, [] => es.map .entry
  | b, 0, [], .entry e :: q => rebuild (b || e.lvl) 0 [] q
  | b, 0, e :: es, .entry old :: q => .entry e :: rebuild (b || old.lvl) 0 es q
  | b, gone + 1, es, .entry e :: q => rebuild (b || e.lvl) gone es q
  | true, gone, es, .level l :: q => .level l :: rebuild false gone es q
  | false, gone, es, .level l :: q =>
    let n := l.body.length
    if 0 < gone then es.take (n - gone) |>.map .entry |> (· ++ rebuild false (gone - n) (es.drop (n - gone)) q)
    else if es.length < n then es.map .entry ++ rebuild false 0 [] q
    else .level { l with body := l.body.zip es |>.map fun x => (x.2, x.1.2) } :: rebuild false 0 (es.drop n) q

/-- Entries 0 to QN requeued, when %tcause.VEC is set, at the VL and type in force: those that are fewer than were captured are the last of them, for
the steward steps over members from the front (R198). -/
def State.requeue (s : State) (m k : Nat) : List QItem :=
  let cause := (s.coreAt m).crGet 0x802
  let c := s.ctxAt k
  if cause.getLsbD 61 then
    let n := bitsOf cause 8 4 + 1
    let gone := (flatItems false c.captured).length - n
    placeStrips (({ c with queue := [] } : Ctx).strip) (rebuild false gone ((List.range n).map (s.requeued m k gone)) c.captured)
  else []

/-- The strand goes on at %tepc, with the entries back in its queue; a queued synchronising member holds the scalar pipe (R132). A boundary that
was a pre-emption point still is one. -/
def Ctx.resume (c : Ctx) (now : Nat) (t : VA) (es : List QItem) : Ctx :=
  -- the bit is passed over by this ERET only (R385)
  let past := c.breakAt == some t
  let c1 := c.jump t
  let c2 : Ctx := { c1 with queue := es ++ c1.queue }
  { c2 with
    hold := if c2.awaitsSync then .vsync else .ready
    atPoint := c2.atPoint || (c.pc == t && c.atPoint)
    reopen := true, pastBreak := past, breakAt := none, captured := []
    since := if c.crossPhase = none then c.since else now - c.since
    crossPhase := if c.pc = t then c.crossPhase else none
    expired := c.pc == t && c.expired }

/-- The steward goes on: with the next pending trap of its core, or where it was (R198). DESIGN CHOICE: where ERET delivers the next trap, %sepc keeps
the PC that the first trap of the service interrupted, which R196 calls the steward's PC (log 56). -/
def State.endService (s : State) (m : Nat) : State :=
  ((s.onCore m fun c => { c with servicing := false }).onCtx (4096 + m) fun c =>
    c.jump (((s.coreAt m).crGet 0x809).setWidth 50)).deliver m

/-- ERET (R198). -/
def State.eret (s : State) (m : Nat) : State :=
  let t : VA := ((s.coreAt m).crGet 0x803).setWidth 50
  match s.strandAt (m * 16 + ((s.coreAt m).crGet 0x805).toNat % 16) with
  | none => s.endService m
  | some k =>
    let es := s.requeue m k
    ((s.unhold k).onCtx k fun c => c.resume s.now t es).endService m

/-- ERET from a strand traps PRIV. -/
def execEret (s : State) : Res := if isSteward s.cur then .next (s.eret (s.cur - 4096)) else s.priv

/-! ### Words that are no instruction, and words that cannot be fetched -/

/-- Whether a word that no row of the table matches is a vector word all the same, which refuses the convoy it joins: a VSET with CB = 0
(R46), and a word of 18_vector_arith with a field that is not used and not 0 (R260). -/
def refusesConvoy (w : Nat) : Bool :=
  let major := w / 2 ^ 25 % 64
  let fn := w % 64
  (major == 0x1C && decide (w / 2 ^ 31 = 0) && decide (w % 2 ^ 15 ≤ 22))
    || (major == 0x1F && decide (fn ≤ 26)) || (major == 0x20 && decide (fn ≤ 18)) || (major == 0x21 && decide (fn ≤ 8))
    || (major == 0x25 && decide (fn ≤ 5))

/-- A word that is not an instruction (R42). -/
def execNotAnInstruction (w : BitVec 32) (s : State) : Res :=
  if refusesConvoy w.toNat && s.me.vec && !(isSteward s.cur) then
    s.issueMember { m := { op := .refused, cb := w.getLsbD 31 } }
  else s.illegal

/-- The fetch fault of the issuing context (R193). -/
def State.fetchTrap (s : State) (c : Cause) : State :=
  s.raise { key := s.cur, cause := c, fetch := true, tval := s.me.pc.setWidth 64, tepc := s.me.pc }

/-- FETCH_FAULT (R193): PAGE or PROT at a word that the context would issue; nothing where the word can be fetched. -/
def execFetchFault (s : State) : Res :=
  match s.resolve s.cur s.me.pc.toNat .fetch with
  | .error c => .next (s.fetchTrap c)
  | .ok _ => .next s

end Sys2Proof.Machine
end

