-- ==== Sys2Proof/Machine/VecArith.lean ====
section
/-! DEFINITION. The instructions of VINT, VFP, VCPLX and VCVT, as the scalar pipe issues them (18 R258 to R275): each enters
the sequencer's queue with the values it read. -/

namespace Sys2Proof.Machine

/-- VADD (R262). -/
def execVadd (c : BitVec 1) (d : BitVec 5) (a : BitVec 5) (b : BitVec 5) (k : BitVec 3) (x : BitVec 1) (s : State) : Res :=
  s.issueVector (.vadd c d a b k x)

/-- VSUB (R262). -/
def execVsub (c : BitVec 1) (d : BitVec 5) (a : BitVec 5) (b : BitVec 5) (k : BitVec 3) (x : BitVec 1) (s : State) : Res :=
  s.issueVector (.vsub c d a b k x)

/-- VMUL (R262). -/
def execVmul (c : BitVec 1) (d : BitVec 5) (a : BitVec 5) (b : BitVec 5) (k : BitVec 3) (x : BitVec 1) (s : State) : Res :=
  s.issueVector (.vmul c d a b k x)

/-- VMULH (R262). -/
def execVmulh (c : BitVec 1) (d : BitVec 5) (a : BitVec 5) (b : BitVec 5) (k : BitVec 3) (x : BitVec 1) (s : State) : Res :=
  s.issueVector (.vmulh c d a b k x)

/-- VMULHN (R262). -/
def execVmulhn (c : BitVec 1) (d : BitVec 5) (a : BitVec 5) (b : BitVec 5) (k : BitVec 3) (x : BitVec 1) (s : State) : Res :=
  s.issueVector (.vmulhn c d a b k x)

/-- VMIN (R262). -/
def execVmin (c : BitVec 1) (d : BitVec 5) (a : BitVec 5) (b : BitVec 5) (k : BitVec 3) (x : BitVec 1) (s : State) : Res :=
  s.issueVector (.vmin c d a b k x)

/-- VMAX (R262). -/
def execVmax (c : BitVec 1) (d : BitVec 5) (a : BitVec 5) (b : BitVec 5) (k : BitVec 3) (x : BitVec 1) (s : State) : Res :=
  s.issueVector (.vmax c d a b k x)

/-- VMINN (R262). -/
def execVminn (c : BitVec 1) (d : BitVec 5) (a : BitVec 5) (b : BitVec 5) (k : BitVec 3) (x : BitVec 1) (s : State) : Res :=
  s.issueVector (.vminn c d a b k x)

/-- VMAXN (R262). -/
def execVmaxn (c : BitVec 1) (d : BitVec 5) (a : BitVec 5) (b : BitVec 5) (k : BitVec 3) (x : BitVec 1) (s : State) : Res :=
  s.issueVector (.vmaxn c d a b k x)

/-- VAND (R262). -/
def execVand (c : BitVec 1) (d : BitVec 5) (a : BitVec 5) (b : BitVec 5) (k : BitVec 3) (x : BitVec 1) (s : State) : Res :=
  s.issueVector (.vand c d a b k x)

/-- VOR (R262). -/
def execVor (c : BitVec 1) (d : BitVec 5) (a : BitVec 5) (b : BitVec 5) (k : BitVec 3) (x : BitVec 1) (s : State) : Res :=
  s.issueVector (.vor c d a b k x)

/-- VXOR (R262). -/
def execVxor (c : BitVec 1) (d : BitVec 5) (a : BitVec 5) (b : BitVec 5) (k : BitVec 3) (x : BitVec 1) (s : State) : Res :=
  s.issueVector (.vxor c d a b k x)

/-- VSHL (R262). -/
def execVshl (c : BitVec 1) (d : BitVec 5) (a : BitVec 5) (b : BitVec 5) (k : BitVec 3) (x : BitVec 1) (s : State) : Res :=
  s.issueVector (.vshl c d a b k x)

/-- VSHR (R262). -/
def execVshr (c : BitVec 1) (d : BitVec 5) (a : BitVec 5) (b : BitVec 5) (k : BitVec 3) (x : BitVec 1) (s : State) : Res :=
  s.issueVector (.vshr c d a b k x)

/-- VSRA (R262). -/
def execVsra (c : BitVec 1) (d : BitVec 5) (a : BitVec 5) (b : BitVec 5) (k : BitVec 3) (x : BitVec 1) (s : State) : Res :=
  s.issueVector (.vsra c d a b k x)

/-- VSADD (R262). -/
def execVsadd (c : BitVec 1) (d : BitVec 5) (a : BitVec 5) (b : BitVec 5) (k : BitVec 3) (x : BitVec 1) (s : State) : Res :=
  s.issueVector (.vsadd c d a b k x)

/-- VSADDN (R262). -/
def execVsaddn (c : BitVec 1) (d : BitVec 5) (a : BitVec 5) (b : BitVec 5) (k : BitVec 3) (x : BitVec 1) (s : State) : Res :=
  s.issueVector (.vsaddn c d a b k x)

/-- VSSUB (R262). -/
def execVssub (c : BitVec 1) (d : BitVec 5) (a : BitVec 5) (b : BitVec 5) (k : BitVec 3) (x : BitVec 1) (s : State) : Res :=
  s.issueVector (.vssub c d a b k x)

/-- VSSUBN (R262). -/
def execVssubn (c : BitVec 1) (d : BitVec 5) (a : BitVec 5) (b : BitVec 5) (k : BitVec 3) (x : BitVec 1) (s : State) : Res :=
  s.issueVector (.vssubn c d a b k x)

/-- VWADD (R263). -/
def execVwadd (c : BitVec 1) (d : BitVec 5) (a : BitVec 5) (b : BitVec 5) (k : BitVec 3) (x : BitVec 1) (s : State) : Res :=
  s.issueVector (.vwadd c d a b k x)

/-- VWMUL (R263). -/
def execVwmul (c : BitVec 1) (d : BitVec 5) (a : BitVec 5) (b : BitVec 5) (k : BitVec 3) (x : BitVec 1) (s : State) : Res :=
  s.issueVector (.vwmul c d a b k x)

/-- VWMAC (R263). -/
def execVwmac (c : BitVec 1) (d : BitVec 5) (a : BitVec 5) (b : BitVec 5) (k : BitVec 3) (x : BitVec 1) (s : State) : Res :=
  s.issueVector (.vwmac c d a b k x)

/-- VNSHR (R263). -/
def execVnshr (c : BitVec 1) (d : BitVec 5) (a : BitVec 5) (b : BitVec 5) (k : BitVec 3) (x : BitVec 1) (s : State) : Res :=
  s.issueVector (.vnshr c d a b k x)

/-- VDOT4 (R263). -/
def execVdot4 (c : BitVec 1) (d : BitVec 5) (a : BitVec 5) (b : BitVec 5) (k : BitVec 3) (x : BitVec 1) (s : State) : Res :=
  s.issueVector (.vdot4 c d a b k x)

/-- VCMPEQ (R264). -/
def execVcmpeq (c : BitVec 1) (d : BitVec 5) (a : BitVec 5) (b : BitVec 5) (k : BitVec 3) (x : BitVec 1) (s : State) : Res :=
  s.issueVector (.vcmpeq c d a b k x)

/-- VCMPLT (R264). -/
def execVcmplt (c : BitVec 1) (d : BitVec 5) (a : BitVec 5) (b : BitVec 5) (k : BitVec 3) (x : BitVec 1) (s : State) : Res :=
  s.issueVector (.vcmplt c d a b k x)

/-- VCMPLTN (R264). -/
def execVcmpltn (c : BitVec 1) (d : BitVec 5) (a : BitVec 5) (b : BitVec 5) (k : BitVec 3) (x : BitVec 1) (s : State) : Res :=
  s.issueVector (.vcmpltn c d a b k x)

/-- VFADD (R265). -/
def execVfadd (c : BitVec 1) (d : BitVec 5) (a : BitVec 5) (b : BitVec 5) (k : BitVec 3) (x : BitVec 1) (s : State) : Res :=
  s.issueVector (.vfadd c d a b k x)

/-- VFSUB (R265). -/
def execVfsub (c : BitVec 1) (d : BitVec 5) (a : BitVec 5) (b : BitVec 5) (k : BitVec 3) (x : BitVec 1) (s : State) : Res :=
  s.issueVector (.vfsub c d a b k x)

/-- VFMUL (R265). -/
def execVfmul (c : BitVec 1) (d : BitVec 5) (a : BitVec 5) (b : BitVec 5) (k : BitVec 3) (x : BitVec 1) (s : State) : Res :=
  s.issueVector (.vfmul c d a b k x)

/-- VFMA (R265). -/
def execVfma (c : BitVec 1) (d : BitVec 5) (a : BitVec 5) (b : BitVec 5) (k : BitVec 3) (x : BitVec 1) (s : State) : Res :=
  s.issueVector (.vfma c d a b k x)

/-- VFNMA (R265). -/
def execVfnma (c : BitVec 1) (d : BitVec 5) (a : BitVec 5) (b : BitVec 5) (k : BitVec 3) (x : BitVec 1) (s : State) : Res :=
  s.issueVector (.vfnma c d a b k x)

/-- VFDIV (R265). -/
def execVfdiv (c : BitVec 1) (d : BitVec 5) (a : BitVec 5) (b : BitVec 5) (k : BitVec 3) (x : BitVec 1) (s : State) : Res :=
  s.issueVector (.vfdiv c d a b k x)

/-- VFSQRT (R265). -/
def execVfsqrt (c : BitVec 1) (d : BitVec 5) (a : BitVec 5) (k : BitVec 3) (x : BitVec 1) (s : State) : Res :=
  s.issueVector (.vfsqrt c d a k x)

/-- VFREC (R265). -/
def execVfrec (c : BitVec 1) (d : BitVec 5) (a : BitVec 5) (k : BitVec 3) (x : BitVec 1) (s : State) : Res :=
  s.issueVector (.vfrec c d a k x)

/-- VFRSQ (R265). -/
def execVfrsq (c : BitVec 1) (d : BitVec 5) (a : BitVec 5) (k : BitVec 3) (x : BitVec 1) (s : State) : Res :=
  s.issueVector (.vfrsq c d a k x)

/-- VFMIN (R67). -/
def execVfmin (c : BitVec 1) (d : BitVec 5) (a : BitVec 5) (b : BitVec 5) (k : BitVec 3) (x : BitVec 1) (s : State) : Res :=
  s.issueVector (.vfmin c d a b k x)

/-- VFMAX (R67). -/
def execVfmax (c : BitVec 1) (d : BitVec 5) (a : BitVec 5) (b : BitVec 5) (k : BitVec 3) (x : BitVec 1) (s : State) : Res :=
  s.issueVector (.vfmax c d a b k x)

/-- VFMINP (R67). -/
def execVfminp (c : BitVec 1) (d : BitVec 5) (a : BitVec 5) (b : BitVec 5) (k : BitVec 3) (x : BitVec 1) (s : State) : Res :=
  s.issueVector (.vfminp c d a b k x)

/-- VFMAXP (R67). -/
def execVfmaxp (c : BitVec 1) (d : BitVec 5) (a : BitVec 5) (b : BitVec 5) (k : BitVec 3) (x : BitVec 1) (s : State) : Res :=
  s.issueVector (.vfmaxp c d a b k x)

/-- VFABS (R265). -/
def execVfabs (c : BitVec 1) (d : BitVec 5) (a : BitVec 5) (k : BitVec 3) (x : BitVec 1) (s : State) : Res :=
  s.issueVector (.vfabs c d a k x)

/-- VFNEG (R265). -/
def execVfneg (c : BitVec 1) (d : BitVec 5) (a : BitVec 5) (k : BitVec 3) (x : BitVec 1) (s : State) : Res :=
  s.issueVector (.vfneg c d a k x)

/-- VFCMPEQ (R266). -/
def execVfcmpeq (c : BitVec 1) (d : BitVec 5) (a : BitVec 5) (b : BitVec 5) (k : BitVec 3) (x : BitVec 1) (s : State) : Res :=
  s.issueVector (.vfcmpeq c d a b k x)

/-- VFCMPLT (R266). -/
def execVfcmplt (c : BitVec 1) (d : BitVec 5) (a : BitVec 5) (b : BitVec 5) (k : BitVec 3) (x : BitVec 1) (s : State) : Res :=
  s.issueVector (.vfcmplt c d a b k x)

/-- VFCMPLE (R266). -/
def execVfcmple (c : BitVec 1) (d : BitVec 5) (a : BitVec 5) (b : BitVec 5) (k : BitVec 3) (x : BitVec 1) (s : State) : Res :=
  s.issueVector (.vfcmple c d a b k x)

/-- VFCLASS (R266). -/
def execVfclass (c : BitVec 1) (d : BitVec 5) (a : BitVec 5) (k : BitVec 3) (x : BitVec 1) (s : State) : Res :=
  s.issueVector (.vfclass c d a k x)

/-- VCMUL (R267). -/
def execVcmul (c : BitVec 1) (d : BitVec 5) (a : BitVec 5) (b : BitVec 5) (k : BitVec 3) (x : BitVec 1) (s : State) : Res :=
  s.issueVector (.vcmul c d a b k x)

/-- VCMAC (R267). -/
def execVcmac (c : BitVec 1) (d : BitVec 5) (a : BitVec 5) (b : BitVec 5) (k : BitVec 3) (x : BitVec 1) (s : State) : Res :=
  s.issueVector (.vcmac c d a b k x)

/-- VCMACJ (R267). -/
def execVcmacj (c : BitVec 1) (d : BitVec 5) (a : BitVec 5) (b : BitVec 5) (k : BitVec 3) (x : BitVec 1) (s : State) : Res :=
  s.issueVector (.vcmacj c d a b k x)

/-- VCCONJ (R267). -/
def execVcconj (c : BitVec 1) (d : BitVec 5) (a : BitVec 5) (k : BitVec 3) (x : BitVec 1) (s : State) : Res :=
  s.issueVector (.vcconj c d a k x)

/-- VCABS2 (R267). -/
def execVcabs2 (c : BitVec 1) (d : BitVec 5) (a : BitVec 5) (k : BitVec 3) (x : BitVec 1) (s : State) : Res :=
  s.issueVector (.vcabs2 c d a k x)

/-- VCROT (R267). -/
def execVcrot (c : BitVec 1) (d : BitVec 5) (a : BitVec 5) (n : BitVec 5) (k : BitVec 3) (x : BitVec 1) (s : State) : Res :=
  s.issueVector (.vcrot c d a n k x)

/-- VCSCL (R267). -/
def execVcscl (c : BitVec 1) (d : BitVec 5) (a : BitVec 5) (b : BitVec 5) (k : BitVec 3) (x : BitVec 1) (s : State) : Res :=
  s.issueVector (.vcscl c d a b k x)

/-- VCINV2 (R269). -/
def execVcinv2 (c : BitVec 1) (d : BitVec 5) (a : BitVec 5) (k : BitVec 3) (x : BitVec 1) (s : State) : Res :=
  s.issueVector (.vcinv2 c d a k x)

/-- VGJP (R270). -/
def execVgjp (c : BitVec 1) (d : BitVec 5) (a : BitVec 5) (b : BitVec 5) (k : BitVec 3) (x : BitVec 1) (s : State) : Res :=
  s.issueVector (.vgjp c d a b k x)

/-- VCVT (R271). -/
def execVcvt (c : BitVec 1) (d : BitVec 5) (a : BitVec 5) (t : BitVec 5) (k : BitVec 3) (x : BitVec 1) (s : State) : Res :=
  s.issueVector (.vcvt c d a t k x)

/-- VCVTSAT (R271). -/
def execVcvtsat (c : BitVec 1) (d : BitVec 5) (a : BitVec 5) (t : BitVec 5) (k : BitVec 3) (x : BitVec 1) (s : State) : Res :=
  s.issueVector (.vcvtsat c d a t k x)

/-- VCVTZ (R271). -/
def execVcvtz (c : BitVec 1) (d : BitVec 5) (a : BitVec 5) (t : BitVec 5) (k : BitVec 3) (x : BitVec 1) (s : State) : Res :=
  s.issueVector (.vcvtz c d a t k x)

/-- VQUANT (R273). -/
def execVquant (c : BitVec 1) (d : BitVec 5) (a : BitVec 5) (b : BitVec 5) (k : BitVec 3) (x : BitVec 1) (s : State) : Res :=
  s.issueVector (.vquant c d a b k x)

/-- VDEQ (R274). -/
def execVdeq (c : BitVec 1) (d : BitVec 5) (a : BitVec 5) (b : BitVec 5) (k : BitVec 3) (x : BitVec 1) (s : State) : Res :=
  s.issueVector (.vdeq c d a b k x)

/-- VTDEC (R275). -/
def execVtdec (c : BitVec 1) (d : BitVec 5) (a : BitVec 5) (k : BitVec 3) (x : BitVec 1) (s : State) : Res :=
  s.issueVector (.vtdec c d a k x)

end Sys2Proof.Machine
end

