-- ==== Sys2Proof/Machine/VecMem.lean ====
section
/-! DEFINITION. The instructions of VLOAD and VSTORE, as the scalar pipe issues them (19 R277 to R284): each enters
the sequencer's queue with the values it read. -/

namespace Sys2Proof.Machine

/-- VLD (R277). -/
def execVld (c : BitVec 1) (v : BitVec 5) (b : BitVec 5) (k : BitVec 3) (q : BitVec 4) (s : State) : Res :=
  s.issueVector (.vld c v b k q)

/-- VLDS (R277). -/
def execVlds (c : BitVec 1) (v : BitVec 5) (b : BitVec 5) (i : BitVec 5) (k : BitVec 3) (q : BitVec 4) (s : State) : Res :=
  s.issueVector (.vlds c v b i k q)

/-- VLDX (R277). -/
def execVldx (c : BitVec 1) (v : BitVec 5) (b : BitVec 5) (i : BitVec 5) (k : BitVec 3) (q : BitVec 4) (s : State) : Res :=
  s.issueVector (.vldx c v b i k q)

/-- VLDFF (R280). -/
def execVldff (c : BitVec 1) (v : BitVec 5) (b : BitVec 5) (k : BitVec 3) (q : BitVec 4) (s : State) : Res :=
  s.issueVector (.vldff c v b k q)

/-- VLSEG (R281). -/
def execVlseg (c : BitVec 1) (v : BitVec 5) (b : BitVec 5) (i : BitVec 5) (k : BitVec 3) (q : BitVec 4) (s : State) : Res :=
  s.issueVector (.vlseg c v b i k q)

/-- VLDT (R283). -/
def execVldt (c : BitVec 1) (v : BitVec 5) (b : BitVec 5) (i : BitVec 5) (k : BitVec 3) (q : BitVec 4) (s : State) : Res :=
  s.issueVector (.vldt c v b i k q)

/-- VLDL (R284). -/
def execVldl (c : BitVec 1) (v : BitVec 5) (b : BitVec 5) (k : BitVec 3) (q : BitVec 4) (s : State) : Res :=
  s.issueVector (.vldl c v b k q)

/-- VST (R277). -/
def execVst (c : BitVec 1) (v : BitVec 5) (b : BitVec 5) (k : BitVec 3) (q : BitVec 4) (s : State) : Res :=
  s.issueVector (.vst c v b k q)

/-- VSTS (R277). -/
def execVsts (c : BitVec 1) (v : BitVec 5) (b : BitVec 5) (i : BitVec 5) (k : BitVec 3) (q : BitVec 4) (s : State) : Res :=
  s.issueVector (.vsts c v b i k q)

/-- VSTX (R277). -/
def execVstx (c : BitVec 1) (v : BitVec 5) (b : BitVec 5) (i : BitVec 5) (k : BitVec 3) (q : BitVec 4) (s : State) : Res :=
  s.issueVector (.vstx c v b i k q)

/-- VSSEG (R281). -/
def execVsseg (c : BitVec 1) (v : BitVec 5) (b : BitVec 5) (i : BitVec 5) (k : BitVec 3) (q : BitVec 4) (s : State) : Res :=
  s.issueVector (.vsseg c v b i k q)

/-- VSTT (R283). -/
def execVstt (c : BitVec 1) (v : BitVec 5) (b : BitVec 5) (i : BitVec 5) (k : BitVec 3) (q : BitVec 4) (s : State) : Res :=
  s.issueVector (.vstt c v b i k q)

/-- VSTL (R284). -/
def execVstl (c : BitVec 1) (v : BitVec 5) (b : BitVec 5) (k : BitVec 3) (q : BitVec 4) (s : State) : Res :=
  s.issueVector (.vstl c v b k q)

end Sys2Proof.Machine
end

