-- ==== Sys2Proof/Machine/VecMove.lean ====
section
/-! DEFINITION. The instructions of VX, VDIST, VMASK and VMOV, as the scalar pipe issues them (19 R285 to R292): each enters
the sequencer's queue with the values it read. -/

namespace Sys2Proof.Machine

/-- VPERM (R285). -/
def execVperm (c : BitVec 1) (d : BitVec 5) (a : BitVec 5) (b : BitVec 5) (k : BitVec 3) (s : State) : Res :=
  s.issueVector (.vperm c d a b k)

/-- VSLUP (R285). -/
def execVslup (c : BitVec 1) (d : BitVec 5) (a : BitVec 5) (b : BitVec 5) (k : BitVec 3) (s : State) : Res :=
  s.issueVector (.vslup c d a b k)

/-- VSLDN (R285). -/
def execVsldn (c : BitVec 1) (d : BitVec 5) (a : BitVec 5) (b : BitVec 5) (k : BitVec 3) (s : State) : Res :=
  s.issueVector (.vsldn c d a b k)

/-- VREV (R285). -/
def execVrev (c : BitVec 1) (d : BitVec 5) (a : BitVec 5) (k : BitVec 3) (s : State) : Res :=
  s.issueVector (.vrev c d a k)

/-- VPACK (R285). -/
def execVpack (c : BitVec 1) (d : BitVec 5) (a : BitVec 5) (b : BitVec 5) (s : State) : Res :=
  s.issueVector (.vpack c d a b)

/-- VZIP (R285). -/
def execVzip (c : BitVec 1) (d : BitVec 5) (a : BitVec 5) (k : BitVec 3) (s : State) : Res :=
  s.issueVector (.vzip c d a k)

/-- VUNZIP (R285). -/
def execVunzip (c : BitVec 1) (d : BitVec 5) (a : BitVec 5) (k : BitVec 3) (s : State) : Res :=
  s.issueVector (.vunzip c d a k)

/-- VXCH (R286). -/
def execVxch (c : BitVec 1) (d : BitVec 5) (a : BitVec 5) (k : BitVec 3) (l : BitVec 4) (s : State) : Res :=
  s.issueVector (.vxch c d a k l)

/-- VBFLY (R286). -/
def execVbfly (c : BitVec 1) (d : BitVec 5) (a : BitVec 5) (b : BitVec 5) (k : BitVec 3) (x : BitVec 1) (l : BitVec 4) (s : State) : Res :=
  s.issueVector (.vbfly c d a b k x l)

/-- VIBFLY (R286). -/
def execVibfly (c : BitVec 1) (d : BitVec 5) (a : BitVec 5) (b : BitVec 5) (k : BitVec 3) (x : BitVec 1) (l : BitVec 4) (s : State) : Res :=
  s.issueVector (.vibfly c d a b k x l)

/-- VPLAN (R286). -/
def execVplan (c : BitVec 1) (d : BitVec 5) (a : BitVec 5) (b : BitVec 5) (k : BitVec 3) (x : BitVec 1) (l : BitVec 4) (s : State) : Res :=
  s.issueVector (.vplan c d a b k x l)

/-- VMAND (R287). -/
def execVmand (c : BitVec 1) (d : BitVec 5) (a : BitVec 5) (b : BitVec 5) (k : BitVec 3) (s : State) : Res :=
  s.issueVector (.vmand c d a b k)

/-- VMOR (R287). -/
def execVmor (c : BitVec 1) (d : BitVec 5) (a : BitVec 5) (b : BitVec 5) (k : BitVec 3) (s : State) : Res :=
  s.issueVector (.vmor c d a b k)

/-- VMXOR (R287). -/
def execVmxor (c : BitVec 1) (d : BitVec 5) (a : BitVec 5) (b : BitVec 5) (k : BitVec 3) (s : State) : Res :=
  s.issueVector (.vmxor c d a b k)

/-- VMNOT (R287). -/
def execVmnot (c : BitVec 1) (d : BitVec 5) (a : BitVec 5) (k : BitVec 3) (s : State) : Res :=
  s.issueVector (.vmnot c d a k)

/-- VMFIRST (R287). -/
def execVmfirst (c : BitVec 1) (d : BitVec 5) (a : BitVec 5) (k : BitVec 3) (s : State) : Res :=
  s.issueVector (.vmfirst c d a k)

/-- VMUPTO (R287). -/
def execVmupto (c : BitVec 1) (d : BitVec 5) (a : BitVec 5) (k : BitVec 3) (s : State) : Res :=
  s.issueVector (.vmupto c d a k)

/-- VMPOP (R287). -/
def execVmpop (c : BitVec 1) (d : BitVec 5) (a : BitVec 5) (k : BitVec 3) (s : State) : Res :=
  s.issueVector (.vmpop c d a k)

/-- VREDSUM (R288). -/
def execVredsum (c : BitVec 1) (d : BitVec 5) (a : BitVec 5) (b : BitVec 5) (k : BitVec 3) (x : BitVec 1) (s : State) : Res :=
  s.issueVector (.vredsum c d a b k x)

/-- VREDMIN (R288). -/
def execVredmin (c : BitVec 1) (d : BitVec 5) (a : BitVec 5) (b : BitVec 5) (k : BitVec 3) (x : BitVec 1) (s : State) : Res :=
  s.issueVector (.vredmin c d a b k x)

/-- VREDMAX (R288). -/
def execVredmax (c : BitVec 1) (d : BitVec 5) (a : BitVec 5) (b : BitVec 5) (k : BitVec 3) (x : BitVec 1) (s : State) : Res :=
  s.issueVector (.vredmax c d a b k x)

/-- VREDMINN (R288). -/
def execVredminn (c : BitVec 1) (d : BitVec 5) (a : BitVec 5) (b : BitVec 5) (k : BitVec 3) (x : BitVec 1) (s : State) : Res :=
  s.issueVector (.vredminn c d a b k x)

/-- VREDMAXN (R288). -/
def execVredmaxn (c : BitVec 1) (d : BitVec 5) (a : BitVec 5) (b : BitVec 5) (k : BitVec 3) (x : BitVec 1) (s : State) : Res :=
  s.issueVector (.vredmaxn c d a b k x)

/-- VFREDSUM (R288). -/
def execVfredsum (c : BitVec 1) (d : BitVec 5) (a : BitVec 5) (b : BitVec 5) (k : BitVec 3) (x : BitVec 1) (s : State) : Res :=
  s.issueVector (.vfredsum c d a b k x)

/-- VFREDMIN (R288). -/
def execVfredmin (c : BitVec 1) (d : BitVec 5) (a : BitVec 5) (b : BitVec 5) (k : BitVec 3) (x : BitVec 1) (s : State) : Res :=
  s.issueVector (.vfredmin c d a b k x)

/-- VFREDMAX (R288). -/
def execVfredmax (c : BitVec 1) (d : BitVec 5) (a : BitVec 5) (b : BitVec 5) (k : BitVec 3) (x : BitVec 1) (s : State) : Res :=
  s.issueVector (.vfredmax c d a b k x)

/-- VCREDSUM (R288). -/
def execVcredsum (c : BitVec 1) (d : BitVec 5) (a : BitVec 5) (b : BitVec 5) (k : BitVec 3) (x : BitVec 1) (s : State) : Res :=
  s.issueVector (.vcredsum c d a b k x)

/-- VSCAN (R289). -/
def execVscan (c : BitVec 1) (d : BitVec 5) (a : BitVec 5) (k : BitVec 3) (x : BitVec 1) (s : State) : Res :=
  s.issueVector (.vscan c d a k x)

/-- VLTRIP (R290). -/
def execVltrip (c : BitVec 1) (d : BitVec 5) (a : BitVec 5) (b : BitVec 5) (x : BitVec 1) (s : State) : Res :=
  s.issueVector (.vltrip c d a b x)

/-- VLSTEP (R290). -/
def execVlstep (c : BitVec 1) (d : BitVec 5) (b : BitVec 5) (x : BitVec 1) (s : State) : Res :=
  s.issueVector (.vlstep c d b x)

/-- VMV (R291). -/
def execVmv (c : BitVec 1) (d : BitVec 5) (a : BitVec 5) (k : BitVec 3) (s : State) : Res :=
  s.issueVector (.vmv c d a k)

/-- VMVS (R291). -/
def execVmvs (c : BitVec 1) (d : BitVec 5) (a : BitVec 5) (k : BitVec 3) (s : State) : Res :=
  s.issueVector (.vmvs c d a k)

/-- VEXT (R291). -/
def execVext (c : BitVec 1) (d : BitVec 5) (a : BitVec 5) (b : BitVec 5) (k : BitVec 3) (s : State) : Res :=
  s.issueVector (.vext c d a b k)

/-- VINS (R291). -/
def execVins (c : BitVec 1) (d : BitVec 5) (a : BitVec 5) (b : BitVec 5) (k : BitVec 3) (s : State) : Res :=
  s.issueVector (.vins c d a b k)

/-- VID (R291). -/
def execVid (c : BitVec 1) (d : BitVec 5) (k : BitVec 3) (s : State) : Res :=
  s.issueVector (.vid c d k)

/-- VPUSH (R292). -/
def execVpush (c : BitVec 1) (a : BitVec 5) (b : BitVec 5) (s : State) : Res :=
  s.issueVector (.vpush c a b)

/-- VTAKE (R292). -/
def execVtake (c : BitVec 1) (d : BitVec 5) (b : BitVec 5) (s : State) : Res :=
  s.issueVector (.vtake c d b)

/-- VPOLL (R292). -/
def execVpoll (c : BitVec 1) (d : BitVec 5) (b : BitVec 5) (s : State) : Res :=
  s.issueVector (.vpoll c d b)

end Sys2Proof.Machine
end

