-- ==== Sys2Proof/Machine/Dispatch.lean ====
section
/-! DEFINITION. The one place where an instruction meets its meaning: one arm per constructor. -/

namespace Sys2Proof.Machine

/-- What one step does (R40 and the table of steps), arm by arm. -/
def exec (i : Instr) (s : State) : Host.Outcome State Fault Refusal :=
  match i with
  | .trap a => Sys2Proof.Machine.execTrap a s
  | .crrd d n => Sys2Proof.Machine.execCrrd d n s
  | .crwr a n => Sys2Proof.Machine.execCrwr a n s
  | .crset d a n => Sys2Proof.Machine.execCrset d a n s
  | .crclr d a n => Sys2Proof.Machine.execCrclr d a n s
  | .add d a b => Sys2Proof.Machine.execAdd d a b s
  | .sub d a b => Sys2Proof.Machine.execSub d a b s
  | .and d a b => Sys2Proof.Machine.execAnd d a b s
  | .or d a b => Sys2Proof.Machine.execOr d a b s
  | .xor d a b => Sys2Proof.Machine.execXor d a b s
  | .andn d a b => Sys2Proof.Machine.execAndn d a b s
  | .shl d a b => Sys2Proof.Machine.execShl d a b s
  | .shr d a b => Sys2Proof.Machine.execShr d a b s
  | .sra d a b => Sys2Proof.Machine.execSra d a b s
  | .rol d a b => Sys2Proof.Machine.execRol d a b s
  | .slt d a b => Sys2Proof.Machine.execSlt d a b s
  | .sltn d a b => Sys2Proof.Machine.execSltn d a b s
  | .seq d a b => Sys2Proof.Machine.execSeq d a b s
  | .min d a b => Sys2Proof.Machine.execMin d a b s
  | .max d a b => Sys2Proof.Machine.execMax d a b s
  | .minn d a b => Sys2Proof.Machine.execMinn d a b s
  | .maxn d a b => Sys2Proof.Machine.execMaxn d a b s
  | .clz d a => Sys2Proof.Machine.execClz d a s
  | .ctz d a => Sys2Proof.Machine.execCtz d a s
  | .popc d a => Sys2Proof.Machine.execPopc d a s
  | .sext d a b => Sys2Proof.Machine.execSext d a b s
  | .zext d a b => Sys2Proof.Machine.execZext d a b s
  | .mul d a b => Sys2Proof.Machine.execMul d a b s
  | .mulh d a b => Sys2Proof.Machine.execMulh d a b s
  | .mulhn d a b => Sys2Proof.Machine.execMulhn d a b s
  | .div d a b => Sys2Proof.Machine.execDiv d a b s
  | .divn d a b => Sys2Proof.Machine.execDivn d a b s
  | .rem d a b => Sys2Proof.Machine.execRem d a b s
  | .remn d a b => Sys2Proof.Machine.execRemn d a b s
  | .addi d a im => Sys2Proof.Machine.execAddi d a im s
  | .andi d a im => Sys2Proof.Machine.execAndi d a im s
  | .ori d a im => Sys2Proof.Machine.execOri d a im s
  | .xori d a im => Sys2Proof.Machine.execXori d a im s
  | .slti d a im => Sys2Proof.Machine.execSlti d a im s
  | .sltni d a im => Sys2Proof.Machine.execSltni d a im s
  | .shli d a n => Sys2Proof.Machine.execShli d a n s
  | .shri d a n => Sys2Proof.Machine.execShri d a n s
  | .srai d a n => Sys2Proof.Machine.execSrai d a n s
  | .roli d a n => Sys2Proof.Machine.execRoli d a n s
  | .lih d im => Sys2Proof.Machine.execLih d im s
  | .addpc d im => Sys2Proof.Machine.execAddpc d im s
  | .beq a b o => Sys2Proof.Machine.execBeq a b o s
  | .bne a b o => Sys2Proof.Machine.execBne a b o s
  | .blt a b o => Sys2Proof.Machine.execBlt a b o s
  | .bge a b o => Sys2Proof.Machine.execBge a b o s
  | .bltn a b o => Sys2Proof.Machine.execBltn a b o s
  | .bgen a b o => Sys2Proof.Machine.execBgen a b o s
  | .jal d o => Sys2Proof.Machine.execJal d o s
  | .jalr d a im => Sys2Proof.Machine.execJalr d a im s
  | .loop a e => Sys2Proof.Machine.execLoop a e s
  | .loopm a e => Sys2Proof.Machine.execLoopm a e s
  | .loops a e => Sys2Proof.Machine.execLoops a e s
  | .lstg a => Sys2Proof.Machine.execLstg a s
  | .lstr a b => Sys2Proof.Machine.execLstr a b s
  | .lmask a b => Sys2Proof.Machine.execLmask a b s
  | .lidx d k => Sys2Proof.Machine.execLidx d k s
  | .lbrk a => Sys2Proof.Machine.execLbrk a s
  | .ld d b c sz im => Sys2Proof.Machine.execLd d b c sz im s
  | .ldn d b c sz im => Sys2Proof.Machine.execLdn d b c sz im s
  | .st sz b c z im => Sys2Proof.Machine.execSt sz b c z im s
  | .amoadd d a b c o => Sys2Proof.Machine.execAmoadd d a b c o s
  | .amoand d a b c o => Sys2Proof.Machine.execAmoand d a b c o s
  | .amoor d a b c o => Sys2Proof.Machine.execAmoor d a b c o s
  | .amoxor d a b c o => Sys2Proof.Machine.execAmoxor d a b c o s
  | .amomin d a b c o => Sys2Proof.Machine.execAmomin d a b c o s
  | .amomax d a b c o => Sys2Proof.Machine.execAmomax d a b c o s
  | .amominn d a b c o => Sys2Proof.Machine.execAmominn d a b c o s
  | .amomaxn d a b c o => Sys2Proof.Machine.execAmomaxn d a b c o s
  | .amoswp d a b c o => Sys2Proof.Machine.execAmoswp d a b c o s
  | .amocas d a b c o => Sys2Proof.Machine.execAmocas d a b c o s
  | .arrive d a b c o => Sys2Proof.Machine.execArrive d a b c o s
  | .fence sz m => Sys2Proof.Machine.execFence sz m s
  | .waita d a b => Sys2Proof.Machine.execWaita d a b s
  | .cross d => Sys2Proof.Machine.execCross d s
  | .crossa d => Sys2Proof.Machine.execCrossa d s
  | .crossw d a => Sys2Proof.Machine.execCrossw d a s
  | .crossp d a => Sys2Proof.Machine.execCrossp d a s
  | .vset d a t => Sys2Proof.Machine.execVset d a t s
  | .vld c v b k q => Sys2Proof.Machine.execVld c v b k q s
  | .vlds c v b im k q => Sys2Proof.Machine.execVlds c v b im k q s
  | .vldx c v b im k q => Sys2Proof.Machine.execVldx c v b im k q s
  | .vldff c v b k q => Sys2Proof.Machine.execVldff c v b k q s
  | .vlseg c v b im k q => Sys2Proof.Machine.execVlseg c v b im k q s
  | .vldt c v b im k q => Sys2Proof.Machine.execVldt c v b im k q s
  | .vldl c v b k q => Sys2Proof.Machine.execVldl c v b k q s
  | .vst c v b k q => Sys2Proof.Machine.execVst c v b k q s
  | .vsts c v b im k q => Sys2Proof.Machine.execVsts c v b im k q s
  | .vstx c v b im k q => Sys2Proof.Machine.execVstx c v b im k q s
  | .vsseg c v b im k q => Sys2Proof.Machine.execVsseg c v b im k q s
  | .vstt c v b im k q => Sys2Proof.Machine.execVstt c v b im k q s
  | .vstl c v b k q => Sys2Proof.Machine.execVstl c v b k q s
  | .vadd c d a b k x => Sys2Proof.Machine.execVadd c d a b k x s
  | .vsub c d a b k x => Sys2Proof.Machine.execVsub c d a b k x s
  | .vmul c d a b k x => Sys2Proof.Machine.execVmul c d a b k x s
  | .vmulh c d a b k x => Sys2Proof.Machine.execVmulh c d a b k x s
  | .vmulhn c d a b k x => Sys2Proof.Machine.execVmulhn c d a b k x s
  | .vmin c d a b k x => Sys2Proof.Machine.execVmin c d a b k x s
  | .vmax c d a b k x => Sys2Proof.Machine.execVmax c d a b k x s
  | .vminn c d a b k x => Sys2Proof.Machine.execVminn c d a b k x s
  | .vmaxn c d a b k x => Sys2Proof.Machine.execVmaxn c d a b k x s
  | .vand c d a b k x => Sys2Proof.Machine.execVand c d a b k x s
  | .vor c d a b k x => Sys2Proof.Machine.execVor c d a b k x s
  | .vxor c d a b k x => Sys2Proof.Machine.execVxor c d a b k x s
  | .vshl c d a b k x => Sys2Proof.Machine.execVshl c d a b k x s
  | .vshr c d a b k x => Sys2Proof.Machine.execVshr c d a b k x s
  | .vsra c d a b k x => Sys2Proof.Machine.execVsra c d a b k x s
  | .vsadd c d a b k x => Sys2Proof.Machine.execVsadd c d a b k x s
  | .vsaddn c d a b k x => Sys2Proof.Machine.execVsaddn c d a b k x s
  | .vssub c d a b k x => Sys2Proof.Machine.execVssub c d a b k x s
  | .vssubn c d a b k x => Sys2Proof.Machine.execVssubn c d a b k x s
  | .vwadd c d a b k x => Sys2Proof.Machine.execVwadd c d a b k x s
  | .vwmul c d a b k x => Sys2Proof.Machine.execVwmul c d a b k x s
  | .vwmac c d a b k x => Sys2Proof.Machine.execVwmac c d a b k x s
  | .vnshr c d a b k x => Sys2Proof.Machine.execVnshr c d a b k x s
  | .vdot4 c d a b k x => Sys2Proof.Machine.execVdot4 c d a b k x s
  | .vcmpeq c d a b k x => Sys2Proof.Machine.execVcmpeq c d a b k x s
  | .vcmplt c d a b k x => Sys2Proof.Machine.execVcmplt c d a b k x s
  | .vcmpltn c d a b k x => Sys2Proof.Machine.execVcmpltn c d a b k x s
  | .vfadd c d a b k x => Sys2Proof.Machine.execVfadd c d a b k x s
  | .vfsub c d a b k x => Sys2Proof.Machine.execVfsub c d a b k x s
  | .vfmul c d a b k x => Sys2Proof.Machine.execVfmul c d a b k x s
  | .vfma c d a b k x => Sys2Proof.Machine.execVfma c d a b k x s
  | .vfnma c d a b k x => Sys2Proof.Machine.execVfnma c d a b k x s
  | .vfdiv c d a b k x => Sys2Proof.Machine.execVfdiv c d a b k x s
  | .vfsqrt c d a k x => Sys2Proof.Machine.execVfsqrt c d a k x s
  | .vfrec c d a k x => Sys2Proof.Machine.execVfrec c d a k x s
  | .vfrsq c d a k x => Sys2Proof.Machine.execVfrsq c d a k x s
  | .vfmin c d a b k x => Sys2Proof.Machine.execVfmin c d a b k x s
  | .vfmax c d a b k x => Sys2Proof.Machine.execVfmax c d a b k x s
  | .vfminp c d a b k x => Sys2Proof.Machine.execVfminp c d a b k x s
  | .vfmaxp c d a b k x => Sys2Proof.Machine.execVfmaxp c d a b k x s
  | .vfabs c d a k x => Sys2Proof.Machine.execVfabs c d a k x s
  | .vfneg c d a k x => Sys2Proof.Machine.execVfneg c d a k x s
  | .vfcmpeq c d a b k x => Sys2Proof.Machine.execVfcmpeq c d a b k x s
  | .vfcmplt c d a b k x => Sys2Proof.Machine.execVfcmplt c d a b k x s
  | .vfcmple c d a b k x => Sys2Proof.Machine.execVfcmple c d a b k x s
  | .vfclass c d a k x => Sys2Proof.Machine.execVfclass c d a k x s
  | .vcmul c d a b k x => Sys2Proof.Machine.execVcmul c d a b k x s
  | .vcmac c d a b k x => Sys2Proof.Machine.execVcmac c d a b k x s
  | .vcmacj c d a b k x => Sys2Proof.Machine.execVcmacj c d a b k x s
  | .vcconj c d a k x => Sys2Proof.Machine.execVcconj c d a k x s
  | .vcabs2 c d a k x => Sys2Proof.Machine.execVcabs2 c d a k x s
  | .vcrot c d a n k x => Sys2Proof.Machine.execVcrot c d a n k x s
  | .vcscl c d a b k x => Sys2Proof.Machine.execVcscl c d a b k x s
  | .vcinv2 c d a k x => Sys2Proof.Machine.execVcinv2 c d a k x s
  | .vgjp c d a b k x => Sys2Proof.Machine.execVgjp c d a b k x s
  | .vperm c d a b k => Sys2Proof.Machine.execVperm c d a b k s
  | .vslup c d a b k => Sys2Proof.Machine.execVslup c d a b k s
  | .vsldn c d a b k => Sys2Proof.Machine.execVsldn c d a b k s
  | .vrev c d a k => Sys2Proof.Machine.execVrev c d a k s
  | .vpack c d a b => Sys2Proof.Machine.execVpack c d a b s
  | .vzip c d a k => Sys2Proof.Machine.execVzip c d a k s
  | .vunzip c d a k => Sys2Proof.Machine.execVunzip c d a k s
  | .vxch c d a k l => Sys2Proof.Machine.execVxch c d a k l s
  | .vbfly c d a b k x l => Sys2Proof.Machine.execVbfly c d a b k x l s
  | .vibfly c d a b k x l => Sys2Proof.Machine.execVibfly c d a b k x l s
  | .vplan c d a b k x l => Sys2Proof.Machine.execVplan c d a b k x l s
  | .vmand c d a b k => Sys2Proof.Machine.execVmand c d a b k s
  | .vmor c d a b k => Sys2Proof.Machine.execVmor c d a b k s
  | .vmxor c d a b k => Sys2Proof.Machine.execVmxor c d a b k s
  | .vmnot c d a k => Sys2Proof.Machine.execVmnot c d a k s
  | .vmfirst c d a k => Sys2Proof.Machine.execVmfirst c d a k s
  | .vmupto c d a k => Sys2Proof.Machine.execVmupto c d a k s
  | .vmpop c d a k => Sys2Proof.Machine.execVmpop c d a k s
  | .vredsum c d a b k x => Sys2Proof.Machine.execVredsum c d a b k x s
  | .vredmin c d a b k x => Sys2Proof.Machine.execVredmin c d a b k x s
  | .vredmax c d a b k x => Sys2Proof.Machine.execVredmax c d a b k x s
  | .vredminn c d a b k x => Sys2Proof.Machine.execVredminn c d a b k x s
  | .vredmaxn c d a b k x => Sys2Proof.Machine.execVredmaxn c d a b k x s
  | .vfredsum c d a b k x => Sys2Proof.Machine.execVfredsum c d a b k x s
  | .vfredmin c d a b k x => Sys2Proof.Machine.execVfredmin c d a b k x s
  | .vfredmax c d a b k x => Sys2Proof.Machine.execVfredmax c d a b k x s
  | .vcredsum c d a b k x => Sys2Proof.Machine.execVcredsum c d a b k x s
  | .vscan c d a k x => Sys2Proof.Machine.execVscan c d a k x s
  | .vltrip c d a b x => Sys2Proof.Machine.execVltrip c d a b x s
  | .vlstep c d b x => Sys2Proof.Machine.execVlstep c d b x s
  | .vcvt c d a t k x => Sys2Proof.Machine.execVcvt c d a t k x s
  | .vcvtsat c d a t k x => Sys2Proof.Machine.execVcvtsat c d a t k x s
  | .vcvtz c d a t k x => Sys2Proof.Machine.execVcvtz c d a t k x s
  | .vquant c d a b k x => Sys2Proof.Machine.execVquant c d a b k x s
  | .vdeq c d a b k x => Sys2Proof.Machine.execVdeq c d a b k x s
  | .vtdec c d a k x => Sys2Proof.Machine.execVtdec c d a k x s
  | .vmv c d a k => Sys2Proof.Machine.execVmv c d a k s
  | .vmvs c d a k => Sys2Proof.Machine.execVmvs c d a k s
  | .vext c d a b k => Sys2Proof.Machine.execVext c d a b k s
  | .vins c d a b k => Sys2Proof.Machine.execVins c d a b k s
  | .vid c d k => Sys2Proof.Machine.execVid c d k s
  | .vpush c a b => Sys2Proof.Machine.execVpush c a b s
  | .vtake c d b => Sys2Proof.Machine.execVtake c d b s
  | .vpoll c d b => Sys2Proof.Machine.execVpoll c d b s
  | .aclaim d a => Sys2Proof.Machine.execAclaim d a s
  | .arels a b => Sys2Proof.Machine.execArels a b s
  | .atile d a b => Sys2Proof.Machine.execAtile d a b s
  | .alda a b => Sys2Proof.Machine.execAlda a b s
  | .aldb a b => Sys2Proof.Machine.execAldb a b s
  | .amma d a b => Sys2Proof.Machine.execAmma d a b s
  | .ammz d a b => Sys2Proof.Machine.execAmmz d a b s
  | .asmma d a b => Sys2Proof.Machine.execAsmma d a b s
  | .astc d a b => Sys2Proof.Machine.execAstc d a b s
  | .azero d => Sys2Proof.Machine.execAzero d s
  | .haul d a b => Sys2Proof.Machine.execHaul d a b s
  | .haulnb d a b => Sys2Proof.Machine.execHaulnb d a b s
  | .hmile d a => Sys2Proof.Machine.execHmile d a s
  | .hwait a b => Sys2Proof.Machine.execHwait a b s
  | .tdef d a b => Sys2Proof.Machine.execTdef d a b s
  | .tstat d a => Sys2Proof.Machine.execTstat d a s
  | .tset d a b => Sys2Proof.Machine.execTset d a b s
  | .tfree d a => Sys2Proof.Machine.execTfree d a s
  | .tenc d a b => Sys2Proof.Machine.execTenc d a b s
  | .twait a => Sys2Proof.Machine.execTwait a s
  | .csub d a b => Sys2Proof.Machine.execCsub d a b s
  | .cmile d => Sys2Proof.Machine.execCmile d s
  | .cwait a => Sys2Proof.Machine.execCwait a s
  | .fharm d a b => Sys2Proof.Machine.execFharm d a b s
  | .fhsend d a b => Sys2Proof.Machine.execFhsend d a b s
  | .fhstat d a => Sys2Proof.Machine.execFhstat d a s
  | .wjoin d a b => Sys2Proof.Machine.execWjoin d a b s
  | .wnear d a b => Sys2Proof.Machine.execWnear d a b s
  | .wpub a => Sys2Proof.Machine.execWpub a s
  | .wget d a b => Sys2Proof.Machine.execWget d a b s
  | .wtract d a => Sys2Proof.Machine.execWtract d a s
  | .spawn d a => Sys2Proof.Machine.execSpawn d a s
  | .jdone d a => Sys2Proof.Machine.execJdone d a s
  | .qpush d a b => Sys2Proof.Machine.execQpush d a b s
  | .qpop d a b => Sys2Proof.Machine.execQpop d a b s
  | .qlen d b => Sys2Proof.Machine.execQlen d b s
  | .chsend d a b => Sys2Proof.Machine.execChsend d a b s
  | .chrecv d a b => Sys2Proof.Machine.execChrecv d a b s
  | .chrel d => Sys2Proof.Machine.execChrel d s
  | .time d => Sys2Proof.Machine.execTime d s
  | .slack d a => Sys2Proof.Machine.execSlack d a s
  | .trace a b => Sys2Proof.Machine.execTrace a b s
  | .cntrd d a => Sys2Proof.Machine.execCntrd d a s
  | .cntcfg d a b => Sys2Proof.Machine.execCntcfg d a b s
  | .notAnInstruction w => Sys2Proof.Machine.execNotAnInstruction w s
  | .ill => Sys2Proof.Machine.execIll s
  | .nop => Sys2Proof.Machine.execNop s
  | .eret => Sys2Proof.Machine.execEret s
  | .endStrand => Sys2Proof.Machine.execEndStrand s
  | .yield => Sys2Proof.Machine.execYield s
  | .idle => Sys2Proof.Machine.execIdle s
  | .bkpt => Sys2Proof.Machine.execBkpt s
  | .alease => Sys2Proof.Machine.execAlease s
  | .afree => Sys2Proof.Machine.execAfree s
  | .await => Sys2Proof.Machine.execAwait s
  | .wleave => Sys2Proof.Machine.execWleave s
  | .doorbell => Sys2Proof.Machine.execDoorbell s
  | .launchRoute => Sys2Proof.Machine.execLaunchRoute s
  | .launchJob => Sys2Proof.Machine.execLaunchJob s
  | .writePacket => Sys2Proof.Machine.execWritePacket s
  | .writeSignal => Sys2Proof.Machine.execWriteSignal s
  | .abandonTree => Sys2Proof.Machine.execAbandonTree s
  | .discardedPacket => Sys2Proof.Machine.execDiscardedPacket s
  | .sliceExpiry => Sys2Proof.Machine.execSliceExpiry s
  | .lock => Sys2Proof.Machine.execLock s
  | .fencedAcknowledge => Sys2Proof.Machine.execFencedAcknowledge s
  | .registerWrite => Sys2Proof.Machine.execRegisterWrite s
  | .hstatFaultClear => Sys2Proof.Machine.execHstatFaultClear s
  | .cstatFaultClear => Sys2Proof.Machine.execCstatFaultClear s
  | .tflagsClear => Sys2Proof.Machine.execTflagsClear s
  | .reset => Sys2Proof.Machine.execReset s
  | .getMeasurements => Sys2Proof.Machine.execGetMeasurements s
  | .hallmarkExtend => Sys2Proof.Machine.execHallmarkExtend s
  | .twinLinkDown => Sys2Proof.Machine.execTwinLinkDown s
  | .governorMeasurement => Sys2Proof.Machine.execGovernorMeasurement s
  | .powerExceeded => Sys2Proof.Machine.execPowerExceeded s
  | .tierRise => Sys2Proof.Machine.execTierRise s
  | .junctionTemperature => Sys2Proof.Machine.execJunctionTemperature s
  | .junctionCooled => Sys2Proof.Machine.execJunctionCooled s
  | .clockSwitch => Sys2Proof.Machine.execClockSwitch s
  | .patrolScrub => Sys2Proof.Machine.execPatrolScrub s
  | .schedulerTick => Sys2Proof.Machine.execSchedulerTick s
  | .firstInstruction => Sys2Proof.Machine.execFirstInstruction s
  | .preemptionAck => Sys2Proof.Machine.execPreemptionAck s
  | .deadlineTick => Sys2Proof.Machine.execDeadlineTick s
  | .graceExpiry => Sys2Proof.Machine.execGraceExpiry s
  | .watchdogRun => Sys2Proof.Machine.execWatchdogRun s
  | .watchdogKill => Sys2Proof.Machine.execWatchdogKill s
  | .watchdogFence => Sys2Proof.Machine.execWatchdogFence s
  | .stewardEndsJob => Sys2Proof.Machine.execStewardEndsJob s
  | .completion => Sys2Proof.Machine.execCompletion s
  | .sys => Sys2Proof.Machine.execSys s
  | .refill => Sys2Proof.Machine.execRefill s
  | .timeout => Sys2Proof.Machine.execTimeout s
  | .req => Sys2Proof.Machine.execReq s
  | .rsp => Sys2Proof.Machine.execRsp s
  | .retry => Sys2Proof.Machine.execRetry s
  | .migration => Sys2Proof.Machine.execMigration s
  | .lpddr6ReadReturn => Sys2Proof.Machine.execLpddr6ReadReturn s
  | .wakeNotice => Sys2Proof.Machine.execWakeNotice s
  | .waitaTimeout => Sys2Proof.Machine.execWaitaTimeout s
  | .waitaReload => Sys2Proof.Machine.execWaitaReload s
  | .crossingRelease => Sys2Proof.Machine.execCrossingRelease s
  | .crossingTimeout => Sys2Proof.Machine.execCrossingTimeout s
  | .trapDelivery => Sys2Proof.Machine.execTrapDelivery s
  | .stripStop => Sys2Proof.Machine.execStripStop s
  | .convoyOpen => Sys2Proof.Machine.execConvoyOpen s
  | .convoyDrain => Sys2Proof.Machine.execConvoyDrain s
  | .imageArrival => Sys2Proof.Machine.execImageArrival s
  | .transferStart => Sys2Proof.Machine.execTransferStart s
  | .transferComplete => Sys2Proof.Machine.execTransferComplete s
  | .haulFault => Sys2Proof.Machine.execHaulFault s
  | .leaseWin => Sys2Proof.Machine.execLeaseWin s
  | .leaseIdlePass => Sys2Proof.Machine.execLeaseIdlePass s
  | .anvilCommandStart => Sys2Proof.Machine.execAnvilCommandStart s
  | .anvilCommandComplete => Sys2Proof.Machine.execAnvilCommandComplete s
  | .tencStart => Sys2Proof.Machine.execTencStart s
  | .tencComplete => Sys2Proof.Machine.execTencComplete s
  | .codingRequestStart => Sys2Proof.Machine.execCodingRequestStart s
  | .codingRequestComplete => Sys2Proof.Machine.execCodingRequestComplete s
  | .codingFault => Sys2Proof.Machine.execCodingFault s
  | .portArrival => Sys2Proof.Machine.execPortArrival s
  | .uPlaneMessage => Sys2Proof.Machine.execUPlaneMessage s
  | .receivedFrame => Sys2Proof.Machine.execReceivedFrame s
  | .windowOpen => Sys2Proof.Machine.execWindowOpen s
  | .windowClose => Sys2Proof.Machine.execWindowClose s
  | .windowExpiry => Sys2Proof.Machine.execWindowExpiry s
  | .sendLaunch => Sys2Proof.Machine.execSendLaunch s
  | .sendFinish => Sys2Proof.Machine.execSendFinish s
  | .tractMapRequest => Sys2Proof.Machine.execTractMapRequest s
  | .tractMapAnswer => Sys2Proof.Machine.execTractMapAnswer s
  | .handover => Sys2Proof.Machine.execHandover s
  | .mapCopyUpdate => Sys2Proof.Machine.execMapCopyUpdate s
  | .tractFull => Sys2Proof.Machine.execTractFull s
  | .haloUpdate => Sys2Proof.Machine.execHaloUpdate s
  | .translationInvalidation => Sys2Proof.Machine.execTranslationInvalidation s
  | .instructionCacheInvalidation => Sys2Proof.Machine.execInstructionCacheInvalidation s
  | .fetchFault => Sys2Proof.Machine.execFetchFault s
  | .twinLinkUp => Sys2Proof.Machine.execTwinLinkUp s
  | .postedWrite => Sys2Proof.Machine.execPostedWrite s
  | .spdmRequest => Sys2Proof.Machine.execSpdmRequest s

end Sys2Proof.Machine
end

