-- ==== Sys2Proof/Machine/Due.lean ====
section
/-! DEFINITION. The agents beside the cores: which of their steps is due, and in which order the model takes them (log 4). -/

namespace Sys2Proof.Machine

/-! ### What a step is told -/

def toCore (i : Instr) (m : Nat) : Instr × Input := (i, { core := BitVec.ofNat 8 m })
def toKey (i : Instr) (k : Nat) : Instr × Input := (i, { key := BitVec.ofNat 13 k })
def toJob (i : Instr) (j : Nat) : Instr × Input := (i, { job := BitVec.ofNat 32 j })
def toIndex (i : Instr) (y : Nat) : Instr × Input := (i, { index := BitVec.ofNat 16 y })
def toXfer (i : Instr) (m : Nat) (x : Xfer) : Instr × Input :=
  (i, { core := BitVec.ofNat 8 m, index := BitVec.ofNat 16 x.chan, num := BitVec.ofNat 64 x.id })
def toFh (i : Instr) (m : Nat) (f : FhItem) : Instr × Input := (i, { core := BitVec.ofNat 8 m, num := BitVec.ofNat 64 f.handle })
def plain (i : Instr) : Instr × Input := (i, {})

/-- A list from its n-th element on, and then the elements before it. -/
def turnFrom (n : Nat) (xs : List α) : List α := xs.drop (n % xs.length) ++ xs.take (n % xs.length)

/-- The first step that is due in a list of agents, asked in turn. -/
def firstDue (n : Nat) (xs : List α) (f : α → Option β) : Option β := (turnFrom n xs).findSome? f

/-- An instruction with what it is told, where a condition holds. -/
def when_ (c : Bool) (x : Instr × Input) : Option (Instr × Input) := if c then some x else none

/-! ### Jobs and the clock (R203, R207, R216 to R224) -/

/-- The step of a job that is due: of all jobs a completion first, and so on, since of one tick what ends a job comes before the deadlines and these
before the watchdog (R220, R416). -/
def State.jobDue (s : State) : Option (Instr × Input) :=
  let due (f : Job → Bool) (i : Instr) : Option (Instr × Input) := (s.sched.jobs.find? f).map fun j => toJob i j.id
  [due s.completionDue .completion, due (fun j => s.ackReady j || s.stopsLate j) .preemptionAck, due s.releaseDue .crossingRelease,
    due s.deadlineDue .deadlineTick, due s.graceDue .graceExpiry, due s.runDue .watchdogRun, due s.killDue .watchdogKill,
    due s.fenceDue .watchdogFence].findSome? id

/-- The cycles of a tick at T0 (R10). -/
def tickCycles : Nat := 54

/-- SCHEDULER_TICK: a choice that is to be made, or time when the rounds of a tick have gone by. -/
def State.tickDue (s : State) : Option (Instr × Input) :=
  when_ (s.sched.choosing || decide (tickCycles ≤ s.rounds)) (.schedulerTick, { num := BitVec.ofNat 64 s.rounds })

/-! ### Strands (R140, R178 to R184, R216, R236, R371, R372) -/

/-- The step of a strand that is due. -/
def State.strandDue (s : State) (k : Nat) : Option (Instr × Input) :=
  let due (c : Bool) (i : Instr) : Option (Instr × Input) := when_ c (toKey i k)
  let moves := (s.ctxAt k).bound.any (s.arrives k)
  [due ((s.ctxAt k).hold == .placed) .firstInstruction, due moves .migration, due (s.handOverReady k) .handover,
    due (s.parkExpired k) .waitaTimeout, due (s.crossExpired k) .crossingTimeout, due (s.holdExpired k) .timeout,
    due (s.tractFullDue k) .tractFull].findSome? id

/-- The step of a core's vector sequencer that is due. -/
def State.vectorDue (s : State) (k : Nat) : Option (Instr × Input) :=
  if !(s.ctxAt k).vec then none
  else if (s.ctxAt k).running.isSome then some (toCore .convoyDrain (s.coreOf k))
  else when_ (s.opening k).isSome (toCore .convoyOpen (s.coreOf k))

/-! ### Cores, clusters and coding engines -/

/-- The step of a window or send that is due (R347 to R351). -/
def State.fhDue (s : State) (m : Nat) (f : FhItem) : Option (Instr × Input) :=
  let due (c : Bool) (i : Instr) : Option (Instr × Input) := when_ c (toFh i m f)
  [due f.travels .portArrival, due (s.closesNow f) .windowClose, due (s.opensNow f) .windowOpen, due (s.expiresNow f) .windowExpiry,
    due (s.launchesNow f) .sendLaunch, due f.leaving .sendFinish].findSome? id

/-- The step of a core's agents that is due: its steward's traps, its inbox, its engines. -/
def State.coreDue (s : State) (n m : Nat) : Option (Instr × Input) :=
  let c := s.coreAt m
  firstDue n [when_ (s.deliverable m || (s.noticed m).isSome) (toCore .trapDelivery m),
    when_ (s.imageNext m).isSome (toCore .imageArrival m),
    c.faultableXfer.map (toXfer .haulFault m), c.completableXfer.map (toXfer .transferComplete m),
    (s.startableXfer m).map (toXfer .transferStart m),
    when_ (c.anvil.any (·.started)) (toCore .anvilCommandComplete m), when_ (s.startable m).isSome (toCore .anvilCommandStart m),
    c.fh.findSome? (s.fhDue m)] id

/-- The step of a cluster that is due (R311, R312, R337). -/
def State.clusterDue (s : State) (y : Nat) : Option (Instr × Input) :=
  [when_ (s.leaseFree y) (toIndex .leaseWin y), when_ (s.leaseIdle y) (toIndex .leaseIdlePass y),
    match (s.clusterAt y).tenc with
    | [] => none
    | t :: _ => some (toIndex (if t.started then .tencComplete else .tencStart) y)].findSome? id

/-- The step of a coding engine that is due (R358, R363). -/
def State.codingDue (s : State) (y : Nat) : Option (Instr × Input) :=
  match Sparse.get [] s.coding y with
  | [] => none
  | r :: _ =>
    some (toIndex (if !r.started then .codingRequestStart else if (s.codeFault r).isSome then .codingFault else .codingRequestComplete) y)

/-! ### The tract map unit, the scheduler's queues, the mesh, the host link -/

/-- The step of the tract map unit that is due (R381, R382). -/
def State.wayDue (s : State) : Option (Instr × Input) :=
  [when_ (!s.way.left.isEmpty || s.nextRequest.isSome) (plain .tractMapRequest),
    (s.way.answers.find? s.answerReady).map (toKey .tractMapAnswer)].findSome? id

/-- The change of a halo or of a map copy that is on its way: it lands a few cycles after its cause (R373, R381), sooner than anything else the
agents do. -/
def State.copyDue (s : State) : Option (Instr × Input) :=
  [(s.way.halo.find? fun h => (s.haloNext h.dst).isSome).map fun h => toCore .haloUpdate h.dst, s.way.updates.head?.map (toCore .mapCopyUpdate)].findSome? id

/-- The step of the front end on the packet at the head of the served ring (R229). -/
def State.packetDue (s : State) : Option (Instr × Input) :=
  s.servedRing.map fun r =>
    plain (match s.packet r with
      | .route => .launchRoute
      | .job => .launchJob
      | .write => .writePacket
      | .signal => .writeSignal
      | .abandon => .abandonTree
      | .discard => .discardedPacket)

/-- The step of the power governor that is due, ahead of the choice of the same tick (R218, R401, R402). -/
def State.powerDue (s : State) : Option (Instr × Input) :=
  [when_ s.dev.switching.isSome (plain .clockSwitch), when_ s.powerExceeded (plain .powerExceeded),
    when_ s.tierMayRise (plain .tierRise)].findSome? id

/-- The step of the scheduler's queues that is due (R236, R244). -/
def State.queueDue (s : State) : Option (Instr × Input) :=
  [((s.sched.queues.map (·.1)).find? s.refillDue).map fun q => (.refill, { num := BitVec.ofNat 64 q }),
    when_ (s.oldestOf .sys).isSome (plain .sys),
    -- a held operation is looked at only while there is one
    when_ ((!s.sched.held.isEmpty || s.sched.queues.any fun q => !q.2.held.isEmpty) && s.serveOne.isSome) (plain .sys)].findSome? id

/-- The step of the mesh that is due (R97, R118, R140). -/
def State.meshDue (s : State) : Option (Instr × Input) :=
  [when_ (s.oldestOf .rsp).isSome (plain .rsp),
    (s.mesh.windows.find? fun w => s.lineAsked w.line).map fun w => (.lpddr6ReadReturn, { addr := BitVec.ofNat 48 (w.line * 256) }),
    when_ (s.oldestOf .req).isSome (plain .req),
    (s.mesh.flight.find? fun m => m.kind == .state && (m.key.bind s.strayState).isSome).bind fun m => m.key.map (toKey .migration)].findSome? id

/-! ### Together -/

/-- The agents beside the cores, by kind: each is asked first once in nine engine steps, and within a kind each agent in turn, so that none keeps
another from its step for ever (log 4). -/
def State.agentDue (s : State) (n : Nat) : Nat → Option (Instr × Input)
  | 0 => firstDue n s.strands s.strandDue
  | 1 => firstDue n s.strands s.vectorDue
  | 2 => firstDue n (keysOf s.core) (s.coreDue (n / (keysOf s.core).length))
  | 3 => firstDue n (keysOf s.cluster) s.clusterDue
  | 4 => firstDue n (keysOf s.coding) s.codingDue
  | 5 => s.wayDue
  | 6 => s.queueDue
  | 7 => s.packetDue
  | _ => s.meshDue

/-- The step that is due, if any: copies of records and of the map first, then what ends or stops jobs, then the governor, then the choice and the clock,
then everything else. -/
def State.due (s : State) : Option (Instr × Input) :=
  match s.copyDue with
  | some x => some x
  | none =>
  match s.jobDue with
  | some x => some x
  | none =>
    match s.powerDue.or s.tickDue with
    | some x => some x
    | none =>
      match (if s.notices.isEmpty then none else some (plain .wakeNotice)) with
      | some x => some x
      | none =>
        firstDue s.served (List.range 9) (s.agentDue (s.served / 9))

end Sys2Proof.Machine
end

