-- ==== Sys2Proof/Machine/Turn.lean ====
section
/-! DEFINITION. The turn of a context: whether its instruction issues or is held, what an issue leaves, and when its result is available (08 R128,
R129; 03 R49, R50; 10 R189; 11 R191, R194, R203). -/

namespace Sys2Proof.Machine

/-- What follows a step that answered a next state. -/
def afterStep (f : State → State) (r : Host.Outcome State Fault Refusal) : Host.Outcome State Fault Refusal :=
  match r with
  | .next s => .next (f s)
  | .fault e => .fault e
  | .refused e => .refused e

/-! ### When a result is available (R49, R50) -/

/-- t_mem of a place (R49), for a context's core. -/
def State.memCycles (s : State) (p : Place) : Nat :=
  let m := s.myCore
  let t := servedAt p
  let far := hops m (besideStop t)
  let l2 := if s.mesh.present.contains (p.loc / 256) then 60 else 200
  if p.global then
    if p.cacheable then
      if t ≠ m then 10 + 4 * far else if (s.coreAt m).home.any fun l => l.line == p.loc / 32 then 3 else l2
    else if inHost p.loc then Config.latency s.now else l2
  else if p.loc < clusterWindow then (if t = m then 4 else 10 + 4 * far)
  else if p.loc < chipWindow then 8 + 4 * far
  else if p.loc < twinWindow then 40
  else Config.latency s.now

/-- The cycles after which the result of a load from an address is available. -/
def State.loadCycles (s : State) (va : Nat) : Nat :=
  match s.resolve s.cur va .read with
  | .ok (p, _) => s.memCycles p
  | .error _ => 1

/-- The same for an atomic operation: class MA. -/
def State.amoCycles (s : State) (va : Nat) : Nat :=
  match s.resolve s.cur va .write with
  | .ok (p, _) => if servedAt p = s.myCore then 6 else 12 + 4 * hops s.myCore (besideStop (servedAt p))
  | .error _ => 1

/-- Class QC: the scheduler's answer, 200 cycles later when the ring in memory is touched. -/
def State.queueCycles (s : State) (ring : Bool) : Nat := 12 + 4 * hops s.myCore 7 + if ring then 200 else 0

/-- The register a result goes to, the cycles after its issue in which it is available, and whether R387 charges a hold on it, for the classes S3,
S20, ML, MA and QC and for CROSSA and CROSSP (R50, R207); the next cycle for any other (log 2). -/
def State.resultTime (s : State) (i : Instr) : Option (BitVec 5 × Nat × Bool) :=
  let amo (d a : BitVec 5) : Option (BitVec 5 × Nat × Bool) := some (d, s.amoCycles (ea (s.rd a)), true)
  match i with
  | .mul d _ _ => some (d, 3, true)
  | .mulh d _ _ => some (d, 3, true)
  | .mulhn d _ _ => some (d, 3, true)
  | .div d _ _ => some (d, 20, true)
  | .divn d _ _ => some (d, 20, true)
  | .rem d _ _ => some (d, 20, true)
  | .remn d _ _ => some (d, 20, true)
  | .ld d b _ z o => some (d, s.loadCycles (memEa (s.rd b) o z.toNat), true)
  | .ldn d b _ z o => some (d, s.loadCycles (memEa (s.rd b) o z.toNat), true)
  | .amoadd d a _ _ _ => amo d a
  | .amoand d a _ _ _ => amo d a
  | .amoor d a _ _ _ => amo d a
  | .amoxor d a _ _ _ => amo d a
  | .amomin d a _ _ _ => amo d a
  | .amomax d a _ _ _ => amo d a
  | .amominn d a _ _ _ => amo d a
  | .amomaxn d a _ _ _ => amo d a
  | .amoswp d a _ _ _ => amo d a
  | .amocas d a _ _ _ => amo d a
  | .arrive d a _ _ _ => amo d a
  | .crossa d => some (d, 6, false)
  | .crossp d _ => some (d, 6, false)
  | .jdone d _ => some (d, s.queueCycles false, false)
  | .qpush d _ b => some (d, s.queueCycles (s.queueAt (queueNo (s.rd b))).spilled, false)
  | .qpop d _ b => some (d, s.queueCycles (s.queueAt (queueNo (s.rd b))).spilled, false)
  | .qlen d _ => some (d, s.queueCycles false, false)
  | .chsend d _ _ => some (d, s.queueCycles false, false)
  | .chrecv d _ _ => some (d, s.queueCycles false, false)
  | .chrel d => some (d, s.queueCycles false, false)
  | _ => none

/-- What a load through the twin window returns if the link goes down before its result has come: all ones (R394). An atomic operation's result is not
taken back (log 3). -/
def State.onesOf (s : State) (i : Instr) : Option W64 :=
  let load (va : Nat) (v : W64) : Option W64 :=
    match s.resolve s.cur va .read with
    | .ok (p, _) => if inTwin p.loc then some v else none
    | .error _ => none
  match i with
  | .ld _ b _ z o => load (memEa (s.rd b) o z.toNat) (BitVec.allOnes 64)
  | .ldn _ b _ z o => load (memEa (s.rd b) o z.toNat) (BitVec.ofNat 64 (2 ^ (8 * 2 ^ z.toNat) - 1))
  | _ => none

/-- A context whose instruction has retired waits for its result before it reads it. -/
def State.noteResult (s before : State) (i : Instr) : State :=
  match before.resultTime i with
  | none => s
  | some (d, n, charged) =>
    if d = 0 ∨ n ≤ 1 then s
    else
      s.onCtx before.cur fun c =>
        if c.again || c.hold != .ready then c
        else { c with late := c.late ++ [{ reg := d.toNat, at_ := before.now + n, pc := before.me.pc, charged := charged, ones := before.onesOf i }] }

/-! ### Holds (R128) -/

/-- Whether a context's instruction is held, and executes again from its first step. -/
def State.heldBack (s : State) (k : Nat) : Bool := (s.ctxAt k).hold == .ready && (s.ctxAt k).again

/-- Whether a strand would issue if it had the turn. -/
def State.wouldIssue (s : State) (k : Nat) : Bool :=
  let x := ({ s with cur := k } : State).issuing
  match x.i with
  | none => false
  | some i => match exec i x.s with | .next t => !(t.heldBack k) | _ => true

/-- Whether a strand that has yielded must wait for another ready strand of its core, which has not issued since (R189). Of two that wait for each
other the one that yielded first goes on. -/
def State.mustYield (s : State) (k : Nat) : Bool :=
  match (s.ctxAt k).yielded with
  | none => false
  | some l => s.strands.any fun j =>
      j != k && s.coreOf j == s.coreOf k && !(l.contains j)
        && (match (s.ctxAt j).yielded with | none => true | some r => r.contains k) && s.wouldIssue j

/-! ### Issuing (R128, R129) -/

/-- What an issue leaves beside what the instruction does: its samples (R389), and the result that is on its way. -/
def State.issued (s before : State) (i : Instr) : State := (s.sampleIssue before).noteResult before i

/-- An instruction that issued before and waited goes on: it takes no slot, and the strand may issue its next one (R207). -/
def State.goOn (s before : State) (i : Instr) : State :=
  if s.heldBack before.cur then s.passTurn else { s.noteResult before i with turn := .issue }

/-- The word of the issuing context: held, and passed over; ready, but its turn forgone after a taken branch, or another's after YIELD; or issued. A
word that cannot be fetched does not issue. -/
def State.attempt (s : State) (i : Instr) : Host.Outcome State Fault Refusal :=
  if s.me.waited then afterStep (fun t => t.goOn s i) (exec i s)
  else
    match exec i s with
    | .next t =>
      if t.heldBack s.cur then .next t.passTurn
      else if s.me.forgoes then .next (s.onMe fun c => { c with forgoes := false }).passTurn
      else if s.mustYield s.cur then .next s.passTurn
      else if i = .fetchFault then .next t
      else afterStep (fun t => t.issued s i) (exec i s.takeSlot)
    | r => r

/-- The turn of a context that is not asked to stop. -/
def State.ownTurn (s : State) : Host.Outcome State Fault Refusal :=
  match s.issuing.i with
  | some i => s.issuing.s.attempt i
  | none => .next s.issuing.s

/-! ### Pre-emption (R191, R194, R203) -/

/-- Whether the issuing strand stands at a pre-emption point with a request. -/
def State.stopsHere (s : State) : Bool :=
  s.preemptAsked s.cur && s.me.hold == .ready && s.standsAt s.cur && !(s.joinsNext s.cur)

/-- Whether the request was made in an earlier cycle. -/
def State.askedBefore (s : State) : Bool :=
  match s.job? s.me.job with | some j => decide (j.preemptAt < s.now) | none => false

/-- The issuing strand stops. -/
def State.stopTurn (s : State) : State := (s.stopStrand s.cur).passTurn

/-- The turn of the issuing context. A request of this very cycle follows a synchronous trap of the strand, and its END. -/
def State.issueTurn (s : State) : Host.Outcome State Fault Refusal :=
  if s.me.hold = .waita ∧ s.me.recheck then .next s.parkAgain
  else if !s.stopsHere then s.ownTurn
  else if s.askedBefore then .next s.stopTurn
  else
    match s.ownTurn with
    | .next t => if (t.ctxAt s.cur).hold == .trapped || !(t.hasCtx s.cur) then .next t else .next s.stopTurn
    | r => r

/-- The turn of the agents beside the cores. -/
def State.engineTurn (s : State) : Host.Outcome State Fault Refusal :=
  match s.due with
  | some (i, x) => afterStep State.rotate (exec i { s with input := x })
  | none => .next s.rotate

end Sys2Proof.Machine
end

