-- ==== Sys2Proof/Machine/Step.lean ====
section
/-! DEFINITION. One step of the device (log 4): the next step scheduled from outside; or an instruction of the context whose turn it is; or,
every other time, a step of an agent beside the cores, after which the turn passes on. -/

namespace Sys2Proof.Machine

/-- One step of the device. -/
def step (s : State) : Host.Outcome State Fault Refusal :=
  match s.schedule with
  | (i, x) :: rest => exec i { s with schedule := rest, input := x }
  | [] =>
    match s.turn with
    | .issue => s.issueTurn
    | .engines => s.engineTurn

/-- A state whose next step fetches and runs the instruction of a table word; every instruction is one word of 32 bits (R33). -/
def State.withFetchWord (s : State) (_nbits w : Nat) : State := s.load w

end Sys2Proof.Machine
end

