-- ==== Sys2Proof/Safety.lean ====
section
/-! DEFINITION. The words that claims use: runs of the device, what a step does, and what it leaves alone. -/

namespace Sys2Proof.Machine

/-! ### Runs -/

/-- Whether a step of s answers t. -/
def Steps (s t : State) : Prop := step s = .next t

/-- The states that finitely many steps reach from s. -/
inductive Reaches (s : State) : State → Prop where
  | refl : Reaches s s
  | step {t u : State} (h : Reaches s t) (n : Steps t u) : Reaches s u

/-- A run from s is safe for P when every state it reaches has P. -/
def Safe (s : State) (P : State → Prop) : Prop := ∀ t, Reaches s t → P t

/-! ### What an instruction does -/

/-- The instruction answers a next state, and P holds of it. -/
def Does (i : Instr) (s : State) (P : State → Prop) : Prop := ∃ t, exec i s = .next t ∧ P t

/-- Only the context that issues differs: all of memory, every other context, every core, the scheduler and every engine are as before. -/
def OnlyMe (s t : State) : Prop := t = s.setMe t.me

/-- The registers that a pass of an active level that ends adds its strides to (R134). -/
def Ctx.targets (c : Ctx) : List Nat := c.levels.flatMap fun l => l.set.binds.map fun b => b.1.toNat

/-- A context after an instruction that writes no general register but those listed: it differs in them, in the bound targets of a pass that
ends, in which of its registers a synchronising instruction wrote last (R48) and which results are on their way (R128), in whether it forgoes its
next turn (R128), and in where and how it issues next. The control registers, the flags among them, the vector registers, masks, accumulators and the
sequencer's queue are as before. -/
def Ctx.Wrote (c t : Ctx) (rs : List Nat) : Prop :=
  (∀ r, r ∉ rs → r ∉ c.targets → t.rd r = c.rd r)
    ∧ t = { c with
        g := t.g, syncRegs := t.syncRegs, late := t.late, pc := t.pc, levels := t.levels, rb := t.rb, open_ := t.open_
        atPoint := t.atPoint, again := t.again, waited := t.waited, forgoes := t.forgoes
        pastBreak := t.pastBreak, reopen := t.reopen, crossPhase := t.crossPhase, expired := t.expired }

/-- The instruction gives d the value v and goes on to the next word. -/
def Gives (i : Instr) (s : State) (d : BitVec 5) (v : W64) : Prop := exec i s = .next (s.wr d v).advance

/-- Every byte of memory outside n bytes at a reads as before. -/
def KeepsMemoryBut (s t : State) (a n : Nat) : Prop := ∀ x, x < a ∨ a + n ≤ x → t.readByte x = s.readByte x

/-- The instruction does nothing but take a trap of the issuing context, with a cause, a value and a restart PC (the claim TrapEntry says what
that state is). -/
def Traps (i : Instr) (s : State) (c : Cause) (tval : W64) (tepc : VA) : Prop :=
  exec i s = .next (s.raise { key := s.cur, cause := c, tval := tval, tepc := tepc })

end Sys2Proof.Machine
end

