-- ==== Sys2Proof/WellFormed.lean ====
section
/-! DEFINITION. Which terms of Instr are instructions of the machine: the limits that R36, R37 and the chapters put on the fields of a word and
that do not hang on the state. A word that breaks one decodes all the same, and issuing it traps ILLEGAL or has its convoy refused (R42, R46). -/

namespace Sys2Proof

/-- A loop's end lies at least two words on (R37). -/
def bodyFits (e : BitVec 12) : Bool := decide (2 ≤ e.toNat)

/-- A field that names a mask register (R158, R266, R287, R37). -/
def isMask (r : BitVec 5) : Bool := decide (r.toNat ≤ 7)

/-- LDN has no double-word form (R37). -/
def narrow (s : BitVec 2) : Bool := s != 3

/-- Scopes 5 to 7 are none (R37). -/
def scopeNamed (s : BitVec 3) : Bool := decide (s.toNat ≤ 4)

/-- A FENCE names at least one class (R37). -/
def classNamed (m : BitVec 16) : Bool := m != 0

/-- Type codes 23 to 31 are none (R37). -/
def typeNamed (t : BitVec 5) : Bool := decide (t.toNat ≤ 22)

/-- With x = 1, mk names the mask register that receives the exception mask, so it is not 0 (R36). -/
def maskReceives (k : BitVec 3) (x : BitVec 1) : Bool := x == 0 || k != 0

/-- A compare's destination is not also its exception mask (R260). -/
def apart (d : BitVec 5) (k : BitVec 3) (x : BitVec 1) : Bool := x == 0 || d.toNat != k.toNat

/-- A reduction's vb selects the destination's file; into a g register there is no exception mask (R288). -/
def reductionForm (b : BitVec 5) (x : BitVec 1) : Bool := decide (b.toNat ≤ 1) && (x == 0 || b == 0)

/-- VCROT turns by 0 to 3 quarters (R267). -/
def quarterTurns (n : BitVec 5) : Bool := decide (n.toNat ≤ 3)

/-- A field that names an accumulator (R36, R309). -/
def isAcc (d : BitVec 5) : Bool := decide (d.toNat ≤ 1)

/-- A word that is not an instruction (R42). -/
def noInstruction (w : BitVec 32) : Bool :=
  match decodeWord w.toNat with
  | .ok _ => false
  | .error _ => true

/-- Whether a term keeps the limits of its fields. -/
def wellFormed (i : Instr) : Bool :=
  match i with
  | .loop _ e => bodyFits e
  | .loopm a e => bodyFits e && isMask a
  | .loops _ e => bodyFits e
  | .ldn _ _ _ s _ => narrow s
  | .fence s m => scopeNamed s && classNamed m
  | .vset _ _ t => typeNamed t
  | .vadd _ _ _ _ k x => maskReceives k x
  | .vsub _ _ _ _ k x => maskReceives k x
  | .vmul _ _ _ _ k x => maskReceives k x
  | .vmulh _ _ _ _ k x => maskReceives k x
  | .vmulhn _ _ _ _ k x => maskReceives k x
  | .vmin _ _ _ _ k x => maskReceives k x
  | .vmax _ _ _ _ k x => maskReceives k x
  | .vminn _ _ _ _ k x => maskReceives k x
  | .vmaxn _ _ _ _ k x => maskReceives k x
  | .vand _ _ _ _ k x => maskReceives k x
  | .vor _ _ _ _ k x => maskReceives k x
  | .vxor _ _ _ _ k x => maskReceives k x
  | .vshl _ _ _ _ k x => maskReceives k x
  | .vshr _ _ _ _ k x => maskReceives k x
  | .vsra _ _ _ _ k x => maskReceives k x
  | .vsadd _ _ _ _ k x => maskReceives k x
  | .vsaddn _ _ _ _ k x => maskReceives k x
  | .vssub _ _ _ _ k x => maskReceives k x
  | .vssubn _ _ _ _ k x => maskReceives k x
  | .vwadd _ _ _ _ k x => maskReceives k x
  | .vwmul _ _ _ _ k x => maskReceives k x
  | .vwmac _ _ _ _ k x => maskReceives k x
  | .vnshr _ _ _ _ k x => maskReceives k x
  | .vdot4 _ _ _ _ k x => maskReceives k x
  | .vcmpeq _ d _ _ k x => maskReceives k x && isMask d && apart d k x
  | .vcmplt _ d _ _ k x => maskReceives k x && isMask d && apart d k x
  | .vcmpltn _ d _ _ k x => maskReceives k x && isMask d && apart d k x
  | .vfadd _ _ _ _ k x => maskReceives k x
  | .vfsub _ _ _ _ k x => maskReceives k x
  | .vfmul _ _ _ _ k x => maskReceives k x
  | .vfma _ _ _ _ k x => maskReceives k x
  | .vfnma _ _ _ _ k x => maskReceives k x
  | .vfdiv _ _ _ _ k x => maskReceives k x
  | .vfsqrt _ _ _ k x => maskReceives k x
  | .vfrec _ _ _ k x => maskReceives k x
  | .vfrsq _ _ _ k x => maskReceives k x
  | .vfmin _ _ _ _ k x => maskReceives k x
  | .vfmax _ _ _ _ k x => maskReceives k x
  | .vfminp _ _ _ _ k x => maskReceives k x
  | .vfmaxp _ _ _ _ k x => maskReceives k x
  | .vfabs _ _ _ k x => maskReceives k x
  | .vfneg _ _ _ k x => maskReceives k x
  | .vfcmpeq _ d _ _ k x => maskReceives k x && isMask d && apart d k x
  | .vfcmplt _ d _ _ k x => maskReceives k x && isMask d && apart d k x
  | .vfcmple _ d _ _ k x => maskReceives k x && isMask d && apart d k x
  | .vfclass _ _ _ k x => maskReceives k x
  | .vcmul _ _ _ _ k x => maskReceives k x
  | .vcmac _ _ _ _ k x => maskReceives k x
  | .vcmacj _ _ _ _ k x => maskReceives k x
  | .vcconj _ _ _ k x => maskReceives k x
  | .vcabs2 _ _ _ k x => maskReceives k x
  | .vcrot _ _ _ n k x => maskReceives k x && quarterTurns n
  | .vcscl _ _ _ _ k x => maskReceives k x
  | .vcinv2 _ _ _ k x => maskReceives k x
  | .vgjp _ _ _ _ k x => maskReceives k x
  | .vpack _ _ _ b => isMask b
  | .vbfly _ _ _ _ k x _ => maskReceives k x
  | .vibfly _ _ _ _ k x _ => maskReceives k x
  | .vplan _ _ _ b k x _ => maskReceives k x && isMask b
  | .vmand _ d a b _ => isMask a && isMask b && isMask d
  | .vmor _ d a b _ => isMask a && isMask b && isMask d
  | .vmxor _ d a b _ => isMask a && isMask b && isMask d
  | .vmnot _ d a _ => isMask a && isMask d
  | .vmfirst _ _ a _ => isMask a
  | .vmupto _ d a _ => isMask a && isMask d
  | .vmpop _ _ a _ => isMask a
  | .vredsum _ _ _ b k x => maskReceives k x && reductionForm b x
  | .vredmin _ _ _ b k x => maskReceives k x && reductionForm b x
  | .vredmax _ _ _ b k x => maskReceives k x && reductionForm b x
  | .vredminn _ _ _ b k x => maskReceives k x && reductionForm b x
  | .vredmaxn _ _ _ b k x => maskReceives k x && reductionForm b x
  | .vfredsum _ _ _ b k x => maskReceives k x && reductionForm b x
  | .vfredmin _ _ _ b k x => maskReceives k x && reductionForm b x
  | .vfredmax _ _ _ b k x => maskReceives k x && reductionForm b x
  | .vcredsum _ _ _ b k x => maskReceives k x && reductionForm b x
  | .vscan _ _ _ k x => maskReceives k x
  | .vltrip _ _ _ b x => isMask b && (x == 0)
  | .vlstep _ _ b x => isMask b && (x == 0)
  | .vcvt _ _ _ t k x => typeNamed t && maskReceives k x
  | .vcvtsat _ _ _ t k x => typeNamed t && maskReceives k x
  | .vcvtz _ _ _ t k x => typeNamed t && maskReceives k x
  | .vquant _ _ _ _ k x => maskReceives k x
  | .vdeq _ _ _ _ k x => maskReceives k x
  | .vtdec _ _ _ k x => maskReceives k x
  | .amma d _ _ => isAcc d
  | .ammz d _ _ => isAcc d
  | .asmma d _ _ => isAcc d
  | .astc d _ _ => isAcc d
  | .azero d => isAcc d
  | .notAnInstruction w => noInstruction w
  | _ => true

end Sys2Proof
end

