-- ==== Sys2Proof/Certificates/Slice0/Obligations.lean ====
section
/-! DEFINITION. What is claimed of the machine: one Prop for each claim, with the words it uses first. -/

namespace Sys2Proof.Claims

open Sys2Proof.Machine

/-- The word at the pc of the issuing context: replayed from the loop buffer, or read where the address resolves, its line filled; and the state in
which it is at hand. -/
def Fetches (s : State) (w : W32) (x : State) : Prop :=
  (s.me.replayed = some w ∧ x = s)
    ∨ ∃ p s1, s.me.replayed = none ∧ s.resolve s.cur s.me.pc.toNat .fetch = .ok (p, s1)
        ∧ w = BitVec.ofNat 32 ((s1.fillLine s1.myCore s1.me.pc.toNat).readNat p.loc 4)
        ∧ x = (s1.fillLine s1.myCore s1.me.pc.toNat).onMe fun c => c.buffered w

/-! ### Arithmetic: what a result must be -/

/-- A number reduced to 64 bits. -/
def mod64 (x : Int) : Nat := (x % 2 ^ 64).toNat

/-- v has the bits that f gives. -/
def Bits (v : W64) (f : Nat → Bool) : Prop := ∀ j, j < 64 → v.getLsbD j = f j

/-- 1 or 0. -/
def oneIf (p : Prop) [Decidable p] : W64 := if p then 1 else 0

/-- The shift amount in a register: its low six bits (R147). -/
def shiftBy (v : W64) : Nat := v.toNat % 64

/-- A left shift, a logical right shift, an arithmetic one and a rotation, by a number below 64. -/
def IsShl (x v : W64) (n : Nat) : Prop := v.toNat = x.toNat * 2 ^ n % 2 ^ 64
def IsShr (x v : W64) (n : Nat) : Prop := v.toNat = x.toNat / 2 ^ n
def IsSra (x v : W64) (n : Nat) : Prop := v.toInt = x.toInt / 2 ^ n
def IsRol (x v : W64) (n : Nat) : Prop := Bits v fun j => x.getLsbD ((j + 64 - n) % 64)

/-- The ALU operations on two registers (R147): the destination, and what its value must be. -/
def aluRule (i : Instr) (s : State) : Option (BitVec 5 × (W64 → Prop)) :=
  let n (r : BitVec 5) : Nat := (s.rd r).toNat
  let z (r : BitVec 5) : Int := (s.rd r).toInt
  let bit (r : BitVec 5) (j : Nat) : Bool := (s.rd r).getLsbD j
  match i with
  | .add d a b => some (d, fun v => v.toNat = (n a + n b) % 2 ^ 64)
  | .sub d a b => some (d, fun v => v.toNat = mod64 ((n a : Int) - n b))
  | .and d a b => some (d, fun v => Bits v fun j => bit a j && bit b j)
  | .or d a b => some (d, fun v => Bits v fun j => bit a j || bit b j)
  | .xor d a b => some (d, fun v => Bits v fun j => bit a j != bit b j)
  | .andn d a b => some (d, fun v => Bits v fun j => bit a j && !bit b j)
  | .shl d a b => some (d, fun v => IsShl (s.rd a) v (shiftBy (s.rd b)))
  | .shr d a b => some (d, fun v => IsShr (s.rd a) v (shiftBy (s.rd b)))
  | .sra d a b => some (d, fun v => IsSra (s.rd a) v (shiftBy (s.rd b)))
  | .rol d a b => some (d, fun v => IsRol (s.rd a) v (shiftBy (s.rd b)))
  | .slt d a b => some (d, fun v => v = oneIf (z a < z b))
  | .sltn d a b => some (d, fun v => v = oneIf (n a < n b))
  | .seq d a b => some (d, fun v => v = oneIf (n a = n b))
  | .min d a b => some (d, fun v => v.toInt = min (z a) (z b))
  | .max d a b => some (d, fun v => v.toInt = max (z a) (z b))
  | .minn d a b => some (d, fun v => v.toNat = min (n a) (n b))
  | .maxn d a b => some (d, fun v => v.toNat = max (n a) (n b))
  | _ => none

/-- The bit counts and extensions (R147). -/
def countRule (i : Instr) (s : State) : Option (BitVec 5 × (W64 → Prop)) :=
  let bit (r : BitVec 5) (j : Nat) : Bool := (s.rd r).getLsbD j
  match i with
  | .clz d a => some (d, fun v => v.toNat ≤ 64 ∧ (∀ j, j < v.toNat → bit a (63 - j) = false) ∧ (v.toNat < 64 → bit a (63 - v.toNat) = true))
  | .ctz d a => some (d, fun v => v.toNat ≤ 64 ∧ (∀ j, j < v.toNat → bit a j = false) ∧ (v.toNat < 64 → bit a v.toNat = true))
  | .popc d a => some (d, fun v => v.toNat = ((List.range 64).filter (bit a)).length)
  | .sext d a b => some (d, fun v => Bits v fun j => bit a (min j (shiftBy (s.rd b))))
  | .zext d a b => some (d, fun v => Bits v fun j => decide (j ≤ shiftBy (s.rd b)) && bit a j)
  | _ => none

/-- Multiplication and division (R148, R149): exact products before truncation, quotients toward zero. -/
def mulDivRule (i : Instr) (s : State) : Option (BitVec 5 × (W64 → Prop)) :=
  let n (r : BitVec 5) : Nat := (s.rd r).toNat
  let z (r : BitVec 5) : Int := (s.rd r).toInt
  match i with
  | .mul d a b => some (d, fun v => v.toNat = n a * n b % 2 ^ 64)
  | .mulh d a b => some (d, fun v => v.toInt = z a * z b / 2 ^ 64)
  | .mulhn d a b => some (d, fun v => v.toNat = n a * n b / 2 ^ 64)
  | .div d a b => some (d, fun v => if n b = 0 then v.toInt = -1
      else if z a = -(2 ^ 63) ∧ z b = -1 then v.toInt = -(2 ^ 63) else v.toInt = Int.tdiv (z a) (z b))
  | .rem d a b => some (d, fun v => if n b = 0 then v = s.rd a else v.toInt = Int.tmod (z a) (z b))
  | .divn d a b => some (d, fun v => v.toNat = if n b = 0 then 2 ^ 64 - 1 else n a / n b)
  | .remn d a b => some (d, fun v => v.toNat = if n b = 0 then n a else n a % n b)
  | _ => none

/-- The immediate forms (R151 to R154): a 15-bit immediate is sign-extended, LIH shifts 20 bits left by 15, ADDPC counts bytes from its
own word. -/
def immRule (i : Instr) (s : State) : Option (BitVec 5 × (W64 → Prop)) :=
  let n (r : BitVec 5) : Nat := (s.rd r).toNat
  let bit (r : BitVec 5) (j : Nat) : Bool := (s.rd r).getLsbD j
  let ibit (m : BitVec 15) (j : Nat) : Bool := m.getLsbD (min j 14)
  match i with
  | .addi d a m => some (d, fun v => v.toNat = mod64 ((n a : Int) + m.toInt))
  | .andi d a m => some (d, fun v => Bits v fun j => bit a j && ibit m j)
  | .ori d a m => some (d, fun v => Bits v fun j => bit a j || ibit m j)
  | .xori d a m => some (d, fun v => Bits v fun j => bit a j != ibit m j)
  | .slti d a m => some (d, fun v => v = oneIf ((s.rd a).toInt < m.toInt))
  | .sltni d a m => some (d, fun v => v = oneIf (n a < mod64 m.toInt))
  | .shli d a k => some (d, fun v => IsShl (s.rd a) v k.toNat)
  | .shri d a k => some (d, fun v => IsShr (s.rd a) v k.toNat)
  | .srai d a k => some (d, fun v => IsSra (s.rd a) v k.toNat)
  | .roli d a k => some (d, fun v => IsRol (s.rd a) v k.toNat)
  | .lih d m => some (d, fun v => v.toNat = mod64 (m.toInt * 2 ^ 15))
  | .addpc d m => some (d, fun v => v.toNat = (((s.me.pc.toNat : Int) + m.toInt) % 2 ^ 50).toNat)
  | _ => none

/-- The instruction answers a next state in which d has a value that the rule allows, and control is at the next word. -/
def Obeys (rule : Instr → State → Option (BitVec 5 × (W64 → Prop))) : Prop :=
  ∀ (i : Instr) (s : State) (d : BitVec 5) (p : W64 → Prop),
    rule i s = some (d, p) → s.coordDest d = false → ∃ v, p v ∧ Gives i s d v

/-- No pass of the innermost active level ends where the next word lies. -/
def staysAt (c : Ctx) (t : VA) : Prop := ∀ l ls, c.levels = l :: ls → t ≠ l.stop

/-! ### Control flow -/

/-- The address pc + 4 × off, modulo 2^50 (R34). -/
def IsTarget (s : State) (off : Int) (t : VA) : Prop := t.toNat = (((s.me.pc.toNat : Int) + 4 * off) % 2 ^ 50).toNat

/-- The conditional branches: the operands, whether the condition holds, and the offset in words (R155). -/
def branchRule (i : Instr) (s : State) : Option (BitVec 5 × BitVec 5 × Bool × Int) :=
  let n (r : BitVec 5) : Nat := (s.rd r).toNat
  let z (r : BitVec 5) : Int := (s.rd r).toInt
  match i with
  | .beq a b o => some (a, b, decide (n a = n b), o.toInt)
  | .bne a b o => some (a, b, decide (n a ≠ n b), o.toInt)
  | .blt a b o => some (a, b, decide (z a < z b), o.toInt)
  | .bge a b o => some (a, b, decide (z b ≤ z a), o.toInt)
  | .bltn a b o => some (a, b, decide (n a < n b), o.toInt)
  | .bgen a b o => some (a, b, decide (n b ≤ n a), o.toInt)
  | _ => none

/-- A branch synchronises (R48, R157): an operand was last written by a synchronising instruction, and convoys are queued. -/
def BranchWaits (s : State) (a b : BitVec 5) : Prop := s.me.queue ≠ [] ∧ (a.toNat ∈ s.me.syncRegs ∨ b.toNat ∈ s.me.syncRegs)

/-- Whether a word lies in the body of a level. -/
def InBody (l : Level) (a : VA) : Prop := l.start.toNat ≤ a.toNat ∧ a.toNat < l.stop.toNat

/-- A branch or jump from a word of the innermost active level's body goes to a word of that body or its end (R158). -/
def Permitted (c : Ctx) (t : VA) : Prop :=
  ∀ l ls, c.levels = l :: ls → InBody l c.pc → (InBody l t ∨ t = l.stop) ∧ t.toNat % 4 = l.start.toNat % 4

/-- The word at pc lies in the body of an active level that is innermost by construction (R135). -/
def InInnermost (c : Ctx) : Prop := ∃ l ls, c.levels = l :: ls ∧ l.inner = true ∧ InBody l c.pc

/-- The sum of the strides that a pass adds to a register. -/
def strideOf (binds : List (BitVec 5 × W64)) (r : Nat) : W64 :=
  binds.foldl (fun v b => if b.1.toNat = r then v + b.2 else v) 0

/-- How many passes a level runs, where that is known when it opens (R137, R161). -/
def passesOf (kind : LoopKind) (n stages : Nat) : Nat :=
  match kind with
  | .counted => n
  | .staged => if n = 0 then 0 else n + stages - 1
  | .masked => 0

/-- Whether the pass at hand is the last one of a level that counts its passes. -/
def LastPass (l : Level) : Prop := l.kind ≠ .masked ∧ l.p.toNat + 1 = passesOf l.kind l.n.toNat l.stages

/-- Whether body position q issues in the pass at hand (R136, R137). -/
def PositionIssues (l : Level) (q : Nat) : Prop :=
  (l.set.first.getLsbD q = false ∨ l.p = 0) ∧ (l.set.last.getLsbD q = false ∨ LastPass l)
    ∧ (l.kind = .staged → (if q < 16 then l.set.tags.toNat / 2 ^ (3 * q) % 8 else 0) ≤ l.p.toNat
        ∧ l.p.toNat - (if q < 16 then l.set.tags.toNat / 2 ^ (3 * q) % 8 else 0) < l.n.toNat)

/-- Whether a word is a LOOP, LOOPM or LOOPS. -/
def OpensLevel (w : W32) : Prop :=
  (∃ a e, decodeWord w.toNat = .ok (.loop a e)) ∨ (∃ a e, decodeWord w.toNat = .ok (.loopm a e))
    ∨ ∃ a e, decodeWord w.toNat = .ok (.loops a e)

/-- Whether no word of a body of n words from pc + 4 on opens a level. -/
def InnermostBody (s : State) (n : Nat) : Prop :=
  ∀ j, j < n → ∀ w, s.peekWord s.cur (s.me.pc + 4 + BitVec.ofNat 50 (4 * j)) = some w → ¬ OpensLevel w

/-- The loop instructions: kind, offset to the end, trip count and mask register. -/
def loopForm (i : Instr) (s : State) : Option (LoopKind × BitVec 12 × W64 × Nat) :=
  match i with
  | .loop a e => some (.counted, e, s.rd a, 0)
  | .loopm a e => some (.masked, e, 0, a.toNat)
  | .loops a e => some (.staged, e, s.rd a, 0)
  | _ => none

/-- What makes a loop instruction trap ILLEGAL (R159, R161, R369). -/
def LoopRefused (s : State) (kind : LoopKind) (e : BitVec 12) (mreg : Nat) : Prop :=
  let c := s.me
  let stop : VA := c.pc + BitVec.ofNat 50 (4 * e.toNat)
  let inner : Prop := InnermostBody s (e.toNat - 1)
  e.toNat < 2 ∨ 8 ≤ mreg ∨ 6 ≤ c.depth
    ∨ (∃ l ls, c.levels = l :: ls ∧ InBody l c.pc ∧ l.stop.toNat < stop.toNat)
    ∨ (inner ∧ 16 < e.toNat - 1)
    ∨ (¬ inner ∧ (c.pending.first ≠ 0 ∨ c.pending.last ≠ 0 ∨ c.pending.tags ≠ 0))
    ∨ (kind ≠ .staged ∧ c.pending.tags ≠ 0)
    ∨ (kind = .masked ∧ (c.vec = false ∨ c.pending.last ≠ 0))
    ∨ ∃ b ∈ c.pending.binds, c.isCoord b.1.toNat = true

/-- The stage count of a body of n words: 1 and the largest tag of its positions (R133). -/
def IsStages (p : LoopSettings) (n stages : Nat) : Prop :=
  (∀ q, q < n → q < 16 → p.tags.toNat / 2 ^ (3 * q) % 8 + 1 ≤ stages)
    ∧ (stages = 1 ∨ ∃ q, q < n ∧ q < 16 ∧ p.tags.toNat / 2 ^ (3 * q) % 8 + 1 = stages)

/-- The level that a loop instruction of e words opens (R133, R161). -/
def Opens (s : State) (kind : LoopKind) (e : BitVec 12) (n : W64) (mreg : Nat) (l : Level) : Prop :=
  l.kind = kind ∧ l.n = n ∧ l.p = 0 ∧ l.start = s.me.pc + 4 ∧ l.stop = s.me.pc + BitVec.ofNat 50 (4 * e.toNat)
    ∧ l.mreg = mreg ∧ l.set = s.me.pending ∧ l.words = [] ∧ (l.inner = true ↔ InnermostBody s (e.toNat - 1)) ∧ l.checked = true
    ∧ if kind = .staged then IsStages s.me.pending (e.toNat - 1) l.stages else l.stages = 1

/-- What keeps a body in the scalar pipe (R139, R385): it is not the vector strand's, or not innermost; a word of it is no vector instruction
that the sequencer takes, or cannot be fetched; a word of it bears a break bit once its line is filled; or it would form a convoy that R46
refuses. -/
def StaysScalar (s : State) (kind : LoopKind) (e : BitVec 12) (n : W64) (mreg : Nat) : Prop :=
  s.me.vec = false ∨ ¬ InnermostBody s (e.toNat - 1)
    ∨ (∃ j, j < e.toNat - 1 ∧ ∀ w, s.peekWord s.cur (s.me.pc + 4 + BitVec.ofNat 50 (4 * j)) = some w → handedWord (some w) = none)
    ∨ (∃ j, j < e.toNat - 1 ∧ (s.me.pc + 4).toNat + 4 * j ∈ ((s.fillBody (s.me.pc + 4) (e.toNat - 1)).coreAt s.myCore).breaks)
    ∨ ∃ vs, handedBody (s.bodyWords s.cur (e.toNat - 1) (s.me.pc + 4)) = some vs
        ∧ ∀ l, Opens s kind e n mreg l → (s.me.handed l vs).sound s.me.strip.2 s.me.strip.1 = false

/-- The passes a loop instruction would run, with the stages that the pending tags give. -/
def openPasses (s : State) (kind : LoopKind) (e : BitVec 12) (n : W64) : Nat :=
  passesOf kind n.toNat (1 + s.me.pending.topTag (e.toNat - 1))

/-! ### Control registers and memory -/

/-- The number that n bytes from an address hold, little-endian (R5). -/
def bytesAt (s : State) (a : Nat) : Nat → Nat
  | 0 => 0
  | n + 1 => (s.readByte a).toNat + 256 * bytesAt s (a + 1) n

/-- A number of n bytes as a two's complement integer. -/
def signedBytes (v n : Nat) : Int := if v < 2 ^ (8 * n - 1) then (v : Int) else (v : Int) - 2 ^ (8 * n)

/-- The address of a load or store: g[base] + imm9 × n, modulo 2^50 (R168). -/
def IsMemAddress (s : State) (b : BitVec 5) (m : BitVec 9) (n va : Nat) : Prop :=
  va = ((((s.rd b).toNat : Int) + m.toInt * n) % 2 ^ 50).toNat

/-- No core samples its counters into trace memory (R389). -/
def Unsampled (s : State) : Prop := ∀ m, ((s.coreAt m).crGet 0x484).getLsbD 5 = false

/-- What an access changes beside what it reads or writes: page table entries, the translation cache, the predictor, the lines that home caches
list, the mesh, and the counters of messages and events with the records that they sample. Every other context, the registers and control
registers of the issuing one, all else of every core, the scheduler, the clusters and the tract map unit are as before. -/
def OnlyReached (s t : State) : Prop :=
  (∀ k, k ≠ s.cur → t.ctxAt k = s.ctxAt k)
    ∧ (∃ n h, t.me = { s.me with predN := n, predHome := h })
    ∧ t.cur = s.cur ∧ t.sched = s.sched ∧ t.cluster = s.cluster ∧ t.coding = s.coding ∧ t.way = s.way ∧ t.dev = s.dev
    ∧ (∀ m, ∃ tlb cr n home, t.coreAt m = { s.coreAt m with tlb := tlb, cr := cr, nflit := n, home := home })
    ∧ ∀ m n, (n < 0x300 ∨ 0x309 < n) → n ≠ 0x485 → (n < 0x490 ∨ 0x497 < n) → (t.coreAt m).crGet n = (s.coreAt m).crGet n

/-- The state in which a scalar access performs: translated, counted by the predictor and sent to its performing point. -/
def performedAt (s1 : State) (p : Place) (write : Bool) (n : Nat) : State := (s1.predict p).1.reach s1.cur p write n

/-- A scalar access of n bytes at va is checked, waits for no queued vector access and does not migrate its strand. -/
def Goes (s : State) (va n cls : Nat) (acc : Acc) (p : Place) (s2 : State) : Prop :=
  ∃ s1, s.access va n n acc = .ok (p, s1) ∧ s1.orderedAfter cls p.loc n = none ∧ (s1.predict p).2 = none
    ∧ s2 = performedAt s1 p (acc == .write) n

/-- The atomic operations: registers, class, ord bits and whether PCI Express carries them (R171, R175). -/
def amoForm (i : Instr) : Option (BitVec 5 × BitVec 5 × BitVec 5 × BitVec 4 × BitVec 2 × Bool) :=
  match i with
  | .amoadd d a b c o => some (d, a, b, c, o, true)
  | .amoand d a b c o => some (d, a, b, c, o, false)
  | .amoor d a b c o => some (d, a, b, c, o, false)
  | .amoxor d a b c o => some (d, a, b, c, o, false)
  | .amomin d a b c o => some (d, a, b, c, o, false)
  | .amomax d a b c o => some (d, a, b, c, o, false)
  | .amominn d a b c o => some (d, a, b, c, o, false)
  | .amomaxn d a b c o => some (d, a, b, c, o, false)
  | .amoswp d a b c o => some (d, a, b, c, o, true)
  | .amocas d a b c o => some (d, a, b, c, o, true)
  | .arrive d a b c o => some (d, a, b, c, o, false)
  | _ => none

/-- The double-word that an atomic operation leaves, from the one it found, its comparand g[d] and its operand g[b] (R172, R173). -/
def AmoNew (i : Instr) (old cmp opd new : W64) : Prop :=
  let count := (old.toNat % 2 ^ 32 + 1) % 2 ^ 32
  match i with
  | .amoadd .. => new.toNat = (old.toNat + opd.toNat) % 2 ^ 64
  | .amoand .. => Bits new fun j => old.getLsbD j && opd.getLsbD j
  | .amoor .. => Bits new fun j => old.getLsbD j || opd.getLsbD j
  | .amoxor .. => Bits new fun j => old.getLsbD j != opd.getLsbD j
  | .amomin .. => new.toInt = min old.toInt opd.toInt
  | .amomax .. => new.toInt = max old.toInt opd.toInt
  | .amominn .. => new.toNat = min old.toNat opd.toNat
  | .amomaxn .. => new.toNat = max old.toNat opd.toNat
  | .amoswp .. => new = opd
  | .amocas .. => new = if old = cmp then opd else old
  | .arrive .. => new.toNat = if opd.toNat % 2 ^ 32 ≤ count then (old.toNat / 2 ^ 32 + 1) % 2 ^ 32 * 2 ^ 32
      else old.toNat / 2 ^ 32 * 2 ^ 32 + count
  | _ => False

/-- The atomic access is checked, and no queued vector access holds it back: a release waits for all of them (R131). -/
def AmoGoes (s : State) (va cls : Nat) (o : BitVec 2) (carried : Bool) (p : Place) (s2 : State) : Prop :=
  ∃ s1, s.amoPlace va carried = .ok (p, s1)
    ∧ (if o.getLsbD 1 then s1.anyVectorMemory = none else s1.orderedAfter cls p.loc 8 = none)
    ∧ s2 = s1.reach s1.cur p true

/-- The memory instructions that may be misaligned: base address and access size. -/
def alignForm (i : Instr) (s : State) : Option (Nat × Nat) :=
  let at_ (b : BitVec 5) (m : BitVec 9) (z : BitVec 2) : Nat :=
    ((((s.rd b).toNat : Int) + m.toInt * 2 ^ z.toNat) % 2 ^ 50).toNat
  match i with
  | .ld _ b _ z m => some (at_ b m z, 2 ^ z.toNat)
  | .ldn _ b _ z m => if z = 3 then none else some (at_ b m z, 2 ^ z.toNat)
  | .st _ b _ z m => some (at_ b m z, 2 ^ z.toNat)
  | .waita _ a _ => some ((s.rd a).toNat % 2 ^ 50, 8)
  | _ => (amoForm i).map fun f => ((s.rd f.2.1).toNat % 2 ^ 50, 8)

/-- The state after a CR instruction gives d the value v: a register of the vector or anvil range is a synchronising instruction's result
(R48). -/
def crGiven (s : State) (d : BitVec 5) (n : BitVec 12) (v : W64) : State :=
  if 0x100 ≤ n.toNat ∧ n.toNat ≤ 0x27F then (s.onMe fun c => c.wrSync d.toNat v).advance else (s.wr d v).advance

/-- The registers that R53 lists as read-only to strands. -/
def readOnlyToStrands (n : Nat) : Prop :=
  n ≤ 0x007 ∨ n = 0x100 ∨ n = 0x101 ∨ n = 0x10A ∨ n = 0x206 ∨ (0x2C0 ≤ n ∧ n ≤ 0x2C3) ∨ n = 0x3C1 ∨ (0x400 ≤ n ∧ n ≤ 0x405)
    ∨ (0x500 ≤ n ∧ n ≤ 0x505)

/-- The control registers that strands write and that keep what is written: number and fields, low bit, width and assigned values; every
other bit is reserved (R62, R94, R95, R144, R178, R184, R248, R316, R332, R367). -/
def strandRegisters : List (Nat × List (Nat × Nat × (Nat → Prop))) :=
  let all (_ : Nat) : Prop := True
  [(0x030, [(0, 8, all)]), (0x031, [(0, 32, all)]), (0x032, [(0, 32, all)]), (0x102, [(0, 13, all)]), (0x103, [(0, 64, all)]),
   (0x104, [(0, 8, all)]), (0x105, [(0, 8, all)]), (0x106, [(0, 2, all)]), (0x107, [(0, 32, all)]), (0x108, [(0, 32, all)]),
   (0x109, [(0, 32, all)]), (0x10C, [(0, 5, fun f => 13 ≤ f ∧ f ≤ 17)]), (0x200, [(0, 4, fun f => f ≤ 13), (4, 2, all)]),
   (0x201, [(0, 4, fun f => f ≤ 13), (4, 1, all)]),
   (0x202, [(0, 20, all)]), (0x203, [(0, 20, all)]), (0x204, [(0, 3, fun f => f ≤ 4)]), (0x205, [(0, 9, fun f => 1 ≤ f ∧ f ≤ 256)]),
   (0x280, [(0, 5, fun f => f = 8 ∨ f = 10 ∨ f = 12 ∨ f = 14 ∨ f = 16)]), (0x281, [(0, 2, fun f => f ≤ 2)]),
   (0x3C4, [(0, 7, fun f => 1 ≤ f ∧ f ≤ 64)]), (0x3C5, [(0, 32, all)])]

/-- A field of a register. -/
def fieldOf (v : W64) (lo n : Nat) : Nat := v.toNat / 2 ^ lo % 2 ^ n

/-- The address bits below a level's index, which are the offset in its page, and the number of its table's entries (R100). -/
def pageBits (l : Nat) : Nat := match l with | 0 => 12 | 1 => 21 | 2 => 30 | _ => 35
def tableSize (l : Nat) : Nat := match l with | 0 => 2 ^ 9 | 1 => 2 ^ 9 | 2 => 2 ^ 5 | _ => 2 ^ 15

/-- The walk for an address from a table of level l comes to a leaf: its level, the address of its entry, and the entry (R100, R101). -/
def WalksTo (s : State) (va : Nat) : Nat → Nat → Nat × Nat × Nat → Prop
  | l, table, r =>
    let a := table + va / 2 ^ pageBits l % tableSize l * 8
    let e := bytesAt s a 8
    let at_ := e / 2 ^ 12 % 2 ^ 36 * 2 ^ 12
    e.testBit 0 = true ∧ e / 2 ^ 48 = 0 ∧ e / 2 ^ 8 % 2 ^ 4 = 0
      ∧ if e.testBit 1 then at_ % 2 ^ pageBits l = 0 ∧ r = (l, a, e)
        else match l with
          | 0 => False
          | l + 1 => WalksTo s va l at_ r

/-- The leaf that an access is checked against: the cached one, or the one walked to (R103). -/
def LeafOf (s : State) (core base va l a e : Nat) : Prop :=
  (∃ c, s.cached core base va = some c ∧ c.level = l ∧ c.at_ = a ∧ c.pte = e)
    ∨ (s.cached core base va = none ∧ WalksTo s va 3 base (l, a, e))

/-- Why a leaf refuses an access: the address is not populated, or a protection does not allow it (R98, R102, R396). -/
def LeafRefuses (s : State) (steward : Bool) (acc : Acc) (e pa : Nat) (c : Cause) : Prop :=
  let hole : Prop := 0x6000000000 ≤ pa ∧ pa < 0x800000000000
  let kept : Prop := s.dev.locked = true ∧ fieldOf s.dev.cbase 21 27 * 2 ^ 21 ≤ pa
    ∧ pa < fieldOf s.dev.cbase 21 27 * 2 ^ 21 + s.dev.csize.toNat % 2 ^ 10 * 2 ^ 21
  (c = .page ∧ hole)
    ∨ (c = .prot ∧ ¬ hole
        ∧ ((steward = false ∧ (e.testBit 4 = false ∨ kept)) ∨ (acc = .write ∧ e.testBit 2 = false)
            ∨ (acc = .fetch ∧ e.testBit 3 = false)))

/-! ### Waiting, crossings, exceptions and the system instructions -/

/-- The issuing context stays at its word, to execute it again: no register, flag or level changes, only what the hold waits on is noted. -/
def Held (s t : State) : Prop := ∃ p x, t.me = { s.me with again := true, atPoint := p, stall := x } ∧ ∀ k, k ≠ s.cur → t.ctxAt k = s.ctxAt k

/-- Whether a queued vector member counts for a fence of some classes (R109). -/
def FencedBy (mask : BitVec 16) (e : Entry) : Prop :=
  e.m.op = .mov .push ∨ e.m.op = .mov .take ∨ e.m.op = .mov .poll
    ∨ ((∃ k, e.m.op = .load k ∨ e.m.op = .store k) ∧ mask.getLsbD e.m.cls = true)

/-- A queued member has still to run: it stands in the queue, or it is a body word of a handed level that issues in the pass at hand or, where the
passes are counted, in one to come. -/
def StillRuns (c : Ctx) (e : Entry) : Prop :=
  .entry e ∈ c.queue ∨ ∃ (l : SeqLevel) (i : Nat) (r : Nat × Nat), .level l ∈ c.queue ∧ l.body[i]? = some (e, r)
    ∧ if l.lvl.kind = .masked then l.lvl.issues i = true
      else ∃ n, l.lvl.p.toNat ≤ n ∧ n < l.passes ∧ ({ l.lvl with p := BitVec.ofNat 64 n } : Level).issues i = true

/-- The issuing strand's crew holds a crossing (R182). -/
def HoldsCrossing (s : State) (j : Job) : Prop :=
  isSteward s.cur = false ∧ s.job? s.me.job = some j ∧ j.channel ≠ none

/-- Phase ph has been released when another is current (R183). -/
def PhaseReleased (current ph : BitVec 32) : Prop :=
  1 ≤ (current.toNat + 2 ^ 32 - ph.toNat) % 2 ^ 32 ∧ (current.toNat + 2 ^ 32 - ph.toNat) % 2 ^ 32 ≤ 2 ^ 31

/-- The status word of a crossing form: T, NA and the phase (R183). -/
def IsCrossWord (v : W64) (t na : Bool) (ph : BitVec 32) : Prop :=
  v.toNat = (if t then 2 ^ 63 else 0) + (if na then 2 ^ 62 else 0) + ph.toNat

/-- The issuing strand is held waiting on a phase. -/
def WaitsOnPhase (s t : State) (ph : BitVec 32) : Prop :=
  t.me.hold = .cross ∧ t.me.crossPhase = some (ph, s.me.pc) ∧ t.me.pc = s.me.pc ∧ t.me.g = s.me.g ∧ t.mem = s.mem

/-- The issuing strand has arrived in its crew's current phase. -/
def Arrives (s t : State) (j : Job) : Prop :=
  t.job? s.me.job = some { j with
    arrived := j.arrived ++ [s.cur], arrivedAt := Sparse.put j.arrivedAt s.cur s.now }

/-- The cause codes of R192. -/
def causeCode (c : Cause) : Nat :=
  match c with
  | .service => 0 | .illegal => 1 | .priv => 2 | .brk => 3 | .tileEmpty => 4 | .misalign => 5 | .page => 6 | .prot => 7 | .watch => 8
  | .numeric => 9 | .slot => 10 | .queue => 11 | .coord => 12 | .tractFull => 13 | .haul => 14 | .code => 15 | .deadline => 16
  | .watchdog => 17

/-- A core is fenced and its steward has stopped (R198, R400). -/
def FencedCore (t : State) (m : Nat) : Prop := (t.coreAt m).fenced = true ∧ (t.ctxAt (4096 + m)).hold = .asleep

/-- The trap state of a core as R195 gives it for a trap of a strand in a slot, with the steward's pc. -/
def TrapStateOf (c : Core) (t : PendingTrap) (slot : Nat) (sepc : VA) : Prop :=
  let w := c.crGet 0x802
  fieldOf w 0 8 = causeCode t.cause ∧ w.getLsbD 63 = decide (16 ≤ causeCode t.cause) ∧ w.getLsbD 62 = t.fetch ∧ w.getLsbD 61 = t.vec
    ∧ (∀ j, 12 ≤ j → j < 61 → w.getLsbD j = false)
    ∧ c.crGet 0x803 = t.tepc.setWidth 64 ∧ c.crGet 0x804 = t.tval ∧ c.crGet 0x805 = BitVec.ofNat 64 slot
    ∧ c.crGet 0x809 = sepc.setWidth 64
    ∧ (t.vec = true → t.entries ≠ [] → t.entries.length ≤ 16 →
        fieldOf w 8 4 + 1 = t.entries.length ∧ c.crGet 0x806 = t.tvpc.setWidth 64
          ∧ ∀ i e, t.entries[i]? = some e →
              c.crGet (0x820 + 3 * i) = e.word.setWidth 64 ∧ c.crGet (0x821 + 3 * i) = e.g1 ∧ c.crGet (0x822 + 3 * i) = e.g2)

/-- Entries as the trap queue registers of a core give them, the first opening its convoy at %tvpc (R132, R197, R198). -/
def FromRegisters (c : Core) (es : List Entry) : Prop :=
  ∀ n e, es[n]? = some e →
    e.word = (c.crGet (0x820 + 3 * n)).setWidth 32 ∧ e.g1 = c.crGet (0x821 + 3 * n) ∧ e.g2 = c.crGet (0x822 + 3 * n)
      ∧ (n = 0 → e.opens = true ∧ e.pc = (c.crGet 0x806).setWidth 50)

/-! ### Vector instructions -/

def vlOf (c : Ctx) : Nat := fieldOf (c.crGet 0x100) 0 14
def tyOf (c : Ctx) : Nat := fieldOf (c.crGet 0x101) 0 5
def vstartOf (c : Ctx) : Nat := fieldOf (c.crGet 0x102) 0 13
def modeOf (c : Ctx) : Mode := Mode.ofBits (fieldOf (c.crGet 0x106) 0 2)

/-- The member of a vector instruction, its register names rotated inside a LOOPS (R137). -/
def memberOf (c : Ctx) (v : VInstr) : Member := if c.rotating then v.m.rotate c.rb.toNat else v.m

/-- The core's one vector strand issues, with its sequencer empty and a word that opens a convoy; VL is at most VLMAX (VlStaysBounded), and
the member keeps the limits of its chapter for VL and type (R46, R260). -/
def VReady (s : State) (v : VInstr) : Prop :=
  isSteward s.cur = false ∧ s.me.vec = true ∧ s.me.hold ≠ .trapped ∧ s.me.queue = [] ∧ s.me.running = none
    ∧ (∀ k, (s.ctxAt k).vec = true → s.coreOf k = s.myCore → k = s.cur) ∧ s.myCore < 256
    ∧ v.m.cb = true ∧ v.m.malformed = false ∧ vlOf s.me ≤ vlMax (tyOf s.me)
    ∧ (memberOf s.me v).legal (tyOf s.me) (vlOf s.me) s.me.settings = true

/-- After the issue of a vector word, with its convoy closed by the word that follows it. -/
def afterIssue (s : State) : State :=
  { s.onMe fun c => { c with open_ := false } with input := { s.input with core := BitVec.ofNat 8 s.myCore } }

/-- The instruction issues, its convoy opens and runs, and the convoy drains. -/
def RunsAlone (i : Instr) (s t : State) : Prop :=
  ∃ s1 s2, exec i s = .next s1 ∧ exec .convoyOpen (afterIssue s1) = .next s2 ∧ exec .convoyDrain s2 = .next t

/-- Element j is active (R250): below VL, from %vstart on for an element-wise member, and selected by the execution mask. -/
def activeAt (c : Ctx) (m : Member) (j : Nat) : Bool :=
  decide (j < vlOf c) && (m.op.whole || decide (vstartOf c ≤ j)) && (m.x || m.emask == 0 || c.mbit m.emask j)

def ActiveIn (c : Ctx) (m : Member) (j : Nat) : Prop := activeAt c m j = true

/-- No flag traps: none is enabled, or the member executes with an exception mask (R62, R255). -/
def Untrapped (s : State) (v : VInstr) : Prop := v.m.x = true ∨ s.me.settings.fen = 0

/-- What a convoy of one member leaves as the issue of its word left it: the general registers, where control is, the accumulators, every
control register but %vstart, the flags, %ocount and %vdirty, every other context, the scheduler, and memory. %vstart is 0. -/
def VRest (s t : State) : Prop :=
  t.me.g = s.me.advance.g ∧ t.me.pc = s.me.advance.pc ∧ t.me.levels = s.me.advance.levels ∧ t.me.queue = [] ∧ t.me.running = none
    ∧ (t.coreAt s.myCore).acc = (s.coreAt s.myCore).acc ∧ t.me.crGet 0x102 = 0
    ∧ (∀ n, n ∉ [0x102, 0x104, 0x109, 0x10A] → t.me.crGet n = s.me.crGet n)
    ∧ (∀ k, k ≠ s.cur → t.ctxAt k = s.ctxAt k) ∧ t.cur = s.cur ∧ t.sched = s.sched

/-- Memory is as before, where no core samples its counters. -/
def KeepsMemory (s t : State) : Prop := Unsampled s → t.mem = s.mem

/-- Every byte of the vector registers but those listed, and every bit of the mask registers but those listed, is as before. -/
def KeepsRegs (c u : Ctx) (vs ms : List Nat) : Prop :=
  (∀ r b, r < 32 → r ∉ vs → b < 2048 → u.vbyte r b = c.vbyte r b)
    ∧ ∀ r j, r < 8 → r ∉ ms → j < 8192 → u.mbit r j = c.mbit r j

/-- The flags of the active elements, and no others, are added to %flags (R61, R63). -/
def FlagsRaised (c u : Ctx) (act : Nat → Prop) (fl : Nat → Flags) : Prop :=
  ∀ n, n < 8 → (u.flags.getLsbD n = true ↔ c.flags.getLsbD n = true ∨ ∃ j, act j ∧ (fl j).getLsbD n = true)

/-- v(d) receives val for the active elements and keeps its other elements below VL; LEN and %vdirty follow (R250, R251). -/
def VectorResult (c u : Ctx) (act : Nat → Prop) (d w : Nat) (val : Nat → Nat) : Prop :=
  (∀ j, j < vlOf c → (act j → u.vraw d w j = val j) ∧ (¬ act j → u.vraw d w j = c.vraw d w j))
    ∧ ((∃ j, act j) → u.lenOf d = (vlOf c * w + 7) / 8 ∧ u.crGet 0x10A = c.crGet 0x10A ||| BitVec.ofNat 64 (2 ^ d))

/-- m(d) receives bit for the active elements, keeps its other bits below VL, and is cleared from VL on; with VL = 0 it stays (R246). -/
def MaskResult (c u : Ctx) (act : Nat → Prop) (d : Nat) (bit : Nat → Bool) : Prop :=
  ∀ j, j < 8192 → (act j → u.mbit d j = bit j) ∧ (¬ act j → u.mbit d j = (if j < vlOf c ∨ vlOf c = 0 then c.mbit d j else false))

/-- With x = 1 the register mk receives one bit for each element: whether it raised a flag other than NX (R255). -/
def ExceptionMask (c u : Ctx) (m : Member) (act : Nat → Prop) (fl : Nat → Flags) : Prop :=
  m.x = true → MaskResult c u act m.emask fun j => fl j &&& 0xEF != 0

/-- The mask registers that a member writes. -/
def masksOf (m : Member) (own : List Nat) : List Nat := own ++ if m.x then [m.emask] else []

/-- The whole effect of an element-wise member with a vector destination of width w. -/
def Computes (i : Instr) (s : State) (m : Member) (act : Nat → Prop) (w : Nat) (f : Nat → Nat × Flags) : Prop :=
  ∃ t, RunsAlone i s t ∧ VRest s t ∧ KeepsMemory s t ∧ KeepsRegs s.me t.me [m.d] (masksOf m [])
    ∧ FlagsRaised s.me t.me act (fun j => (f j).2) ∧ VectorResult s.me t.me act m.d w (fun j => (f j).1)
    ∧ ExceptionMask s.me t.me m act fun j => (f j).2

/-- The whole effect of an element-wise member with a mask destination. -/
def Compares (i : Instr) (s : State) (m : Member) (act : Nat → Prop) (f : Nat → Bool × Flags) : Prop :=
  ∃ t, RunsAlone i s t ∧ VRest s t ∧ KeepsMemory s t ∧ KeepsRegs s.me t.me [] (masksOf m [m.d])
    ∧ FlagsRaised s.me t.me act (fun j => (f j).2) ∧ MaskResult s.me t.me act m.d (fun j => (f j).1)
    ∧ ExceptionMask s.me t.me m act fun j => (f j).2

/-! ### Integer elements (R262 to R264) -/

/-- A pattern of w bits as a signed number. -/
def signedOf (w n : Nat) : Int := if n < 2 ^ (w - 1) then (n : Int) else (n : Int) - 2 ^ w

/-- The low w bits of a number. -/
def wrapTo (w : Nat) (x : Int) : Nat := (x % 2 ^ w).toNat

/-- A number clamped to w bits, signed or not, and whether it was. -/
def saturateTo (signed : Bool) (w : Nat) (x : Int) : Nat × Bool :=
  let lo : Int := if signed then -2 ^ (w - 1) else 0
  let hi : Int := if signed then 2 ^ (w - 1) - 1 else 2 ^ w - 1
  (wrapTo w (max lo (min hi x)), decide (x < lo ∨ hi < x))

/-- x / 2^n rounded to the nearest integer, ties to the even one. -/
def nearestEven (x : Int) (n : Nat) : Int :=
  let q := x / 2 ^ n
  let r := x % 2 ^ n
  if 2 * r < 2 ^ n then q else if 2 ^ n < 2 * r then q + 1 else if q % 2 = 0 then q else q + 1

/-- What each VINT instruction gives from the patterns of va, vb and vd, with elements of w bits, and whether it saturates; a compare gives
1 or 0. -/
def intWant (i : Instr) : Option (Nat → Nat → Nat → Nat → Nat × Bool) :=
  match i with
  | .vadd .. => some fun w a b _ => (wrapTo w (a + b), false)
  | .vsub .. => some fun w a b _ => (wrapTo w ((a : Int) - b), false)
  | .vmul .. => some fun w a b _ => (wrapTo w (a * b), false)
  | .vmulh .. => some fun w a b _ => (wrapTo w (signedOf w a * signedOf w b / 2 ^ w), false)
  | .vmulhn .. => some fun w a b _ => (a * b / 2 ^ w, false)
  | .vmin .. => some fun w a b _ => (wrapTo w (min (signedOf w a) (signedOf w b)), false)
  | .vmax .. => some fun w a b _ => (wrapTo w (max (signedOf w a) (signedOf w b)), false)
  | .vminn .. => some fun _ a b _ => (min a b, false)
  | .vmaxn .. => some fun _ a b _ => (max a b, false)
  | .vand .. => some fun _ a b _ => (a &&& b, false)
  | .vor .. => some fun _ a b _ => (a ||| b, false)
  | .vxor .. => some fun _ a b _ => (a ^^^ b, false)
  | .vshl .. => some fun w a b _ => (wrapTo w (a * 2 ^ (b % w)), false)
  | .vshr .. => some fun w a b _ => (a / 2 ^ (b % w), false)
  | .vsra .. => some fun w a b _ => (wrapTo w (signedOf w a / 2 ^ (b % w)), false)
  | .vsadd .. => some fun w a b _ => saturateTo true w (signedOf w a + signedOf w b)
  | .vsaddn .. => some fun w a b _ => saturateTo false w (a + b)
  | .vssub .. => some fun w a b _ => saturateTo true w (signedOf w a - signedOf w b)
  | .vssubn .. => some fun w a b _ => saturateTo false w ((a : Int) - b)
  | .vwadd .. => some fun w a b _ => (wrapTo (2 * w) (signedOf w a + signedOf w b), false)
  | .vwmul .. => some fun w a b _ => (wrapTo (2 * w) (signedOf w a * signedOf w b), false)
  | .vwmac .. => some fun w a b d => (wrapTo (2 * w) (d + signedOf w a * signedOf w b), false)
  | .vnshr .. => some fun w a b _ => saturateTo true w (nearestEven (signedOf (2 * w) a) (b % (2 * w)))
  | .vdot4 .. => some fun w a b d =>
      let part (x p : Nat) : Int := signedOf w (x / 2 ^ (w * p) % 2 ^ w)
      (wrapTo (4 * w) (d + part a 0 * part b 0 + part a 1 * part b 1 + part a 2 * part b 2 + part a 3 * part b 3), false)
  | .vcmpeq .. => some fun _ a b _ => (if a = b then 1 else 0, false)
  | .vcmplt .. => some fun w a b _ => (if signedOf w a < signedOf w b then 1 else 0, false)
  | .vcmpltn .. => some fun _ a b _ => (if a < b then 1 else 0, false)
  | _ => none

/-- The widths of the elements of va, vb and vd. -/
def intShape (i : Instr) (w : Nat) : Nat × Nat × Nat :=
  match i with
  | .vwadd .. => (w, w, 2 * w)
  | .vwmul .. => (w, w, 2 * w)
  | .vwmac .. => (w, w, 2 * w)
  | .vnshr .. => (2 * w, w, w)
  | .vdot4 .. => (4 * w, 4 * w, 4 * w)
  | _ => (w, w, w)

/-- The compares of VINT. -/
def intCompares (i : Instr) : Bool :=
  match i with
  | .vcmpeq .. => true
  | .vcmplt .. => true
  | .vcmpltn .. => true
  | _ => false

/-! ### Floats and complex elements (R265 to R270) -/

/-- The operation of each VFP instruction. -/
def fpWant (i : Instr) : Option FpOp :=
  match i with
  | .vfadd .. => some .add
  | .vfsub .. => some .sub
  | .vfmul .. => some .mul
  | .vfma .. => some .ma
  | .vfnma .. => some .nma
  | .vfdiv .. => some .div
  | .vfsqrt .. => some .sqrt
  | .vfrec .. => some .rcp
  | .vfrsq .. => some .rsq
  | .vfmin .. => some .min
  | .vfmax .. => some .max
  | .vfminp .. => some .minp
  | .vfmaxp .. => some .maxp
  | .vfabs .. => some .abs
  | .vfneg .. => some .neg
  | .vfcmpeq .. => some .cmpeq
  | .vfcmplt .. => some .cmplt
  | .vfcmple .. => some .cmple
  | .vfclass .. => some .cls
  | _ => none

/-- The operation of each VCPLX instruction that works on one element at a time. -/
def cxWant (i : Instr) : Option CxOp :=
  match i with
  | .vcmul .. => some .mul
  | .vcmac .. => some .mac
  | .vcmacj .. => some .macj
  | .vcconj .. => some .conj
  | .vcabs2 .. => some .abs2
  | .vcrot .. => some .rot
  | .vcscl .. => some .scl
  | _ => none

/-- The value of a finite code of a format. -/
noncomputable def realOf (f : Fmt) (c : Nat) : Option ℝ :=
  match f.decode c with
  | .fin n m e => some ((if n then -1 else 1) * (m : ℝ) * (2 : ℝ) ^ e)
  | _ => none

/-- The number that an exact value is, and that a pair of parts is. -/
noncomputable def numberOf (x : FV) : Option ℝ :=
  match x with
  | .fin n m e => some ((if n then -1 else 1) * (m : ℝ) * (2 : ℝ) ^ e)
  | _ => none

noncomputable def complexOf (x : Cx) : Option ℂ :=
  match numberOf x.re, numberOf x.im with
  | some r, some i => some ⟨r, i⟩
  | _, _ => none

/-- Code r is x rounded once into a format under a mode (R59, R60), where x does not exceed the largest finite value. -/
def IsRounded (f : Fmt) (mode : Mode) (x : ℝ) (r : Nat) : Prop :=
  ∀ top, realOf f (f.largest false) = some top → |x| ≤ top →
    ∃ y, realOf f r = some y ∧
      match mode with
      | .rne => ∀ c z, realOf f c = some z → |y - x| ≤ |z - x| ∧ (|y - x| = |z - x| → z = y ∨ r % 2 = 0)
      | .rz => |y| ≤ |x| ∧ 0 ≤ y * x ∧ ∀ c z, realOf f c = some z → |z| ≤ |x| → 0 ≤ z * x → |z| ≤ |y|
      | .rd => y ≤ x ∧ ∀ c z, realOf f c = some z → z ≤ x → z ≤ y
      | .ru => x ≤ y ∧ ∀ c z, realOf f c = some z → x ≤ z → y ≤ z

/-- The two parts of a complex element are those of z, each rounded once. -/
def PartsRounded (f : Fmt) (mode : Mode) (z : ℂ) (v : Nat) : Prop :=
  IsRounded f mode z.re (v % 2 ^ f.width) ∧ IsRounded f mode z.im (v / 2 ^ f.width)

/-- The canonical NaN in both parts. -/
def bothNan (f : Fmt) : Nat := f.nan + 2 ^ f.width * f.nan

/-- What each VCPLX instruction but VCINV2 and VGJP gives for numbers (R267); n is VCROT's power of j. -/
noncomputable def cxValue (o : CxOp) (n : Nat) (a b d : ℂ) : Option ℂ :=
  match o with
  | .mul => some (a * b)
  | .mac => some (d + a * b)
  | .macj => some (d + starRingEnd ℂ a * b)
  | .conj => some (starRingEnd ℂ a)
  | .abs2 => some ⟨Complex.normSq a, 0⟩
  | .rot => some (a * Complex.I ^ n)
  | .scl => some (a * b.re)
  | .inv2 => none
  | .gjp => none

/-- A squared magnitude lies below %sngthr: no NaN and no threshold of at most +0 ever does that (R268). -/
def Below (thr : FV) (x : ℝ) : Prop :=
  match thr with
  | .nan _ => False
  | .inf n => n = false
  | .fin n m e => x < (if n then -1 else 1) * (m : ℝ) * (2 : ℝ) ^ e

/-- The four results of VCINV2 for the matrix (a, b; c, d), with the flag of a regularisation that has taken place (R269). -/
def Inverted (f : Fmt) (mode : Mode) (a b c d : ℂ) (sng : Flags) (out : List (Nat × Flags)) : Prop :=
  let det := a * d - b * c
  (det = 0 → out = List.replicate 4 (bothNan f, sng ||| flagDZ))
    ∧ (det ≠ 0 → out.length = 4 ∧ ∀ (i : Nat) (x : Nat × Flags) (z : ℂ), out[i]? = some x → [d / det, -b / det, -c / det, a / det][i]? = some z →
        PartsRounded f mode z x.1 ∧ x.2 &&& (flagSNG ||| flagDZ ||| flagNV) = sng)

/-- The result of VGJP for a pivot and a row element, with the same flag (R270). -/
def Divided (f : Fmt) (mode : Mode) (p v : ℂ) (sng : Flags) (out : Nat × Flags) : Prop :=
  (p = 0 → v = 0 → out = (bothNan f, sng ||| flagNV)) ∧ (p = 0 → v ≠ 0 → out = (bothNan f, sng ||| flagDZ))
    ∧ (p ≠ 0 → PartsRounded f mode (v / p) out.1 ∧ out.2 &&& (flagSNG ||| flagDZ ||| flagNV) = sng)

/-- The bit of VFCLASS for a code of a format (R266). -/
def IsClass (f : Fmt) (a bit : Nat) : Prop :=
  let least : ℝ := (2 : ℝ) ^ (1 - (f.bias : Int))
  match f.decode a with
  | .nan s => bit = if s then 8 else 9
  | .inf n => bit = if n then 0 else 7
  | .fin n _ _ => ∃ x, realOf f a = some x ∧
      ((x ≤ -least ∧ bit = 1) ∨ (-least < x ∧ x < 0 ∧ bit = 2) ∨ (x = 0 ∧ bit = if n then 3 else 4)
        ∨ (0 < x ∧ x < least ∧ bit = 5) ∨ (least ≤ x ∧ bit = 6))

/-! ### Conversions, permutations, masks, reductions and moves -/

/-- The exact power of two that e8m0 scale byte s stands for (R68). -/
noncomputable def scaleOf (s : Nat) : ℝ := (2 : ℝ) ^ ((s : Int) - 127)

/-- The magnitudes of the e2m1 codes (R70). -/
noncomputable def e2m1Magnitude (c : Nat) : ℝ := [0, 1 / 2, 1, 3 / 2, 2, 3, 4, 6].getD (c % 8) 0

/-- The value of a number's magnitude below a scale: |x| / 2^e. -/
noncomputable def scaled (x : ℝ) (e : Int) : ℝ := x / (2 : ℝ) ^ e

/-- The exponent that a block's largest magnitude asks for: floor(log2 m) − k, clamped, and −127 for m = 0 (R71, R273). -/
def IsBlockExp (k : Int) (m : ℝ) (e : Int) : Prop :=
  (m = 0 → e = -127) ∧ ∀ z : Int, (2 : ℝ) ^ z ≤ m → m < (2 : ℝ) ^ (z + 1) → e = max (-127) (min 127 (z - k))

/-- The largest magnitude of some numbers, 0 for none. -/
def IsLargest (xs : List ℝ) (m : ℝ) : Prop := (∀ x ∈ xs, |x| ≤ m) ∧ (xs = [] ∧ m = 0 ∨ ∃ x ∈ xs, |x| = m)

/-- The code that an element of a block takes under the block's exponent in a format that saturates (R273). -/
def IsElementCode (f : Fmt) (x : ℝ) (e : Int) (r : Nat × Flags) : Prop :=
  IsRounded f .rne (scaled x e) r.1
    ∧ ∀ top, realOf f (f.largest false) = some top → top < |scaled x e| → r.1 = f.largest (decide (x < 0))

/-- The code that an element of an e2m1x block takes that is not its outlier (R71 step 4, R72). -/
def IsE2m1Code (x : ℝ) (e : Int) (r : Nat × Flags) : Prop :=
  (6 < |scaled x e| → r = (if x < 0 then 15 else 7, flagOVFO ||| flagNX))
    ∧ (|scaled x e| ≤ 6 → ∃ c, IsRounded fmtE2m1 .rne (scaled x e) c ∧ r.1 = if c % 8 = 0 then 0 else c)

/-- v is the value of a window of len stream bits, the first of them the most significant (R329). -/
def IsWindowValue (mode len stream i : Nat) (v : Int) : Prop :=
  ∃ s h : Nat, s < 2 ^ len
    ∧ (∀ t, t < len → s.testBit (len - 1 - t) = stream.testBit (((match mode with | 0 => i | 1 => i + i / 2 | _ => 2 * i) + t)
        % (match mode with | 0 => 96 | 1 => 144 | _ => 192)))
    ∧ h = (s * 0x6F4B + 0x2D17) % 2 ^ 16
    ∧ v = (h / 2 ^ 12 % 16 + h / 2 ^ 8 % 16 + h / 2 ^ 4 % 16 + h % 16 : Nat) - 30

/-- The bits of a pattern that an element holds: under e3m2 and e2m3 the low six of a byte (R247). -/
def heldBits (c : Ctx) (w v : Nat) : Nat := if (tyOf c = 15 ∨ tyOf c = 16) ∧ w = 8 then v % 64 else v

/-- Element j of a source: the fill value from VL on (R251). -/
def srcAt (c : Ctx) (r w j : Nat) : Nat := heldBits c w (if j < vlOf c then c.vraw r w j else (c.crGet 0x103).toNat % 2 ^ w)

/-- The conversions of one element (R271). -/
def cvtWant (i : Instr) : Option CvtOp :=
  match i with
  | .vcvt .. => some .cvt
  | .vcvtsat .. => some .sat
  | .vcvtz .. => some .trunc
  | _ => none

/-- The active elements of block n, in order. -/
def blockOf (c : Ctx) (m : Member) (n : Nat) : List Nat := ((List.range 32).map (32 * n + ·)).filter (activeAt c m)

/-- What VX gives element j (R285); g is the captured g register. -/
def vxWant (i : Instr) (c : Ctx) (m : Member) (g : Nat) : Option (Nat → Nat) :=
  let w := typeWidth (tyOf c)
  let a := srcAt c m.a w
  let fill := heldBits c w ((c.crGet 0x103).toNat % 2 ^ w)
  let vl := vlOf c
  match i with
  | .vperm .. => some fun j => a (srcAt c m.b (max w 16) j)
  | .vslup .. => some fun j => if g ≤ j then a (j - g) else fill
  | .vsldn .. => some fun j => a (j + g)
  | .vrev .. => some fun j => a (vl - 1 - j)
  | .vpack .. => some fun j => match ((List.range vl).filter (c.mbit m.b))[j]? with | some q => a q | none => fill
  | .vzip .. => some fun j => if j % 2 = 0 then a (j / 2) else a (vl / 2 + (j - 1) / 2)
  | .vunzip .. => some fun j => if j < vl / 2 then a (2 * j) else a (2 * (j - vl / 2) + 1)
  | _ => none

/-- The butterflies (R286). -/
def distWant (i : Instr) : Option DistOp :=
  match i with
  | .vbfly .. => some .bfly
  | .vibfly .. => some .ibfly
  | .vplan .. => some .plan
  | _ => none

/-- The mask instructions with a mask destination (R287); first is the VMFIRST index. -/
def maskWant (i : Instr) (c : Ctx) (m : Member) (first : Option Nat) : Option (Nat → Bool) :=
  match i with
  | .vmand .. => some fun j => c.mbit m.a j && c.mbit m.b j
  | .vmor .. => some fun j => c.mbit m.a j || c.mbit m.b j
  | .vmxor .. => some fun j => c.mbit m.a j != c.mbit m.b j
  | .vmnot .. => some fun j => !(c.mbit m.a j)
  | .vmupto .. => some fun j => match first with | some f => decide (j ≤ f) | none => true
  | _ => none

/-- The lowest active bit of a mask that is 1. -/
def IsFirst (c : Ctx) (m : Member) (r : Option Nat) : Prop :=
  match r with
  | some f => ActiveIn c m f ∧ c.mbit m.a f = true ∧ ∀ j, j < f → ActiveIn c m j → c.mbit m.a j = false
  | none => ∀ j, ActiveIn c m j → c.mbit m.a j = false

/-- The elements below VL that the execution mask selects, in order: what a VX member reads, %vstart being 0 for it (R200). -/
def selectedList (c : Ctx) (m : Member) : List Nat :=
  (List.range (vlOf c)).filter fun j => m.x || m.emask == 0 || c.mbit m.emask j

/-- The reductions (R288). -/
def redWant (i : Instr) : Option RedOp :=
  match i with
  | .vredsum .. => some .sum
  | .vredmin .. => some .min
  | .vredmax .. => some .max
  | .vredminn .. => some .minn
  | .vredmaxn .. => some .maxn
  | .vfredsum .. => some .fsum
  | .vfredmin .. => some .fmin
  | .vfredmax .. => some .fmax
  | .vcredsum .. => some .csum
  | _ => none

/-- A synchronising member: its convoy gives g[d] a value, control goes on to the next word, and no vector or mask register changes. -/
def Answers (i : Instr) (s : State) (m : Member) (v : W64) (fl : Flags) : Prop :=
  ∃ t, RunsAlone i s t ∧ t.me.g = ((s.me.wr m.d v).advance).g ∧ t.me.pc = s.me.advance.pc ∧ t.me.levels = s.me.advance.levels
    ∧ t.me.hold = .ready ∧ t.me.queue = [] ∧ t.me.running = none ∧ KeepsRegs s.me t.me [] [] ∧ KeepsMemory s t
    ∧ FlagsRaised s.me t.me (fun j => j = 0) (fun _ => fl) ∧ ∀ k, k ≠ s.cur → t.ctxAt k = s.ctxAt k

/-- The captured g values of a vector instruction. -/
def g1Of (c : Ctx) (v : VInstr) : W64 := c.capture v.r1
def g2Of (c : Ctx) (v : VInstr) : W64 := c.capture v.r2

/-- An image from the source that a g value names (R292). -/
def comesFrom (g : W64) (x : Image) : Bool := g.getLsbD 63 || x.src == g.toNat % 256

/-! ### Vector memory, VSET and convoys -/

/-- The addressing of the plain modes: unit, strided, indexed and fault-first (R277), and whether the instruction loads. -/
def memWant (i : Instr) : Option (VMode × Bool) :=
  match i with
  | .vld .. => some (.unit, true)
  | .vlds .. => some (.strided, true)
  | .vldx .. => some (.indexed, true)
  | .vldff .. => some (.faultFirst, true)
  | .vst .. => some (.unit, false)
  | .vsts .. => some (.strided, false)
  | .vstx .. => some (.indexed, false)
  | _ => none

/-- The address of element j, modulo 2^50 (R277): base, plus the element's bytes, or the stride times j, or the index element. -/
def elemAddress (c : Ctx) (m : Member) (mode : VMode) (g1 g2 : W64) (j : Nat) : Nat :=
  let w := typeWidth (tyOf c)
  let off : Int :=
    match mode with
    | .strided => g2.toInt * j
    | .indexed => (c.vraw m.b (max w 16) j : Int)
    | _ => (j * w / 8 : Nat)
  (((g1.toNat : Int) + off) % 2 ^ 50).toNat

/-- The tile modes and the lane modes. -/
def tileWant (i : Instr) : Option Bool :=
  match i with
  | .vldt .. => some true
  | .vstt .. => some false
  | _ => none

def laneWant (i : Instr) : Option Bool :=
  match i with
  | .vldl .. => some true
  | .vstl .. => some false
  | _ => none

/-- Element j of a source register stored over some places, first place first: whole bytes, or w bits of one byte. -/
def storeElement (c : Ctx) (m : Member) (w j : Nat) (mem : Sparse Byte) (runs : List (Nat × Nat)) : Sparse Byte :=
  let x := srcAt c m.d w j
  if w < 8 then runs.foldl (fun mem r => Sparse.set 0 mem r.1 (withBits (Sparse.get 0 mem r.1) (j * w % 8) w x)) mem
  else (runs.zipIdx).foldl (fun mem r => pokeBytes mem r.1.1 (((leBytes (w / 8) x).drop (r.2 * r.1.2)).take r.1.2)) mem

/-- What element j of a load of a strand's registers receives from its places. -/
def loadElement (c : Ctx) (r : State) (w j : Nat) (runs : List (Nat × Nat)) : Nat :=
  let x := leNat (r.readRuns runs)
  heldBits c w (if w < 8 then x / 2 ^ (j * w % 8) % 2 ^ w else x)

/-- A vector memory member moves its active elements between the register m.d and their places in the state r in which its convoy opens:
a load gives each its value; a store lands them in index order, so that the highest index wins where places overlap. -/
def MovesElements (i : Instr) (s r : State) (m : Member) (load : Bool) (place : Nat → List (Nat × Nat)) : Prop :=
  let c := s.me
  let w := typeWidth (tyOf c)
  if load then Computes i s m (ActiveIn c m) w fun j => (loadElement c r w j (place j) % 2 ^ w, 0)
  else ∃ t, RunsAlone i s t ∧ VRest s t ∧ KeepsRegs c t.me [] [] ∧ t.me.flags = c.flags
    ∧ (Unsampled s → t.mem = ((List.range (vlOf c)).filter (activeAt c m)).foldl (fun mem j => storeElement c m w j mem (place j)) s.mem)

/-- Whether a vector word opens a convoy: its CB is 1, or ERET has returned to it (R44, R47). -/
def opensConvoy (s : State) (v : VInstr) : Bool := v.m.cb || (s.me.reopen && !s.me.open_)

/-- The convoy at the tail of the queue once a vector word has joined it or opened it. -/
def convoyWith (s : State) (v : VInstr) : List Entry :=
  (if opensConvoy s v then [] else s.me.tail) ++ [s.me.entryOf s.ir v (opensConvoy s v)]

/-- What is wrong with a convoy (R45, R46): too many members of a pipe, two writes of one register, a register read before a later member
writes it, a VSET with others or with CB = 0, or a member outside its limits. -/
def Refusable (es : List Entry) (ty vl : Nat) : Prop :=
  let count (p : Pipe) : Nat := (es.filter fun e => e.m.op.pipe == p).length
  2 < count .valu ∨ 1 < count .vls ∨ 1 < count .vcv ∨ 1 < count .vx ∨ 8 < count .plan ∨ (count .plan ≠ 0 ∧ count .vx ≠ 0)
    ∨ (count .vset ≠ 0 ∧ es.length ≠ 1) ∨ (∃ e ∈ es, e.m.op = .refused) ∨ (∃ e ∈ es, e.m.legal ty vl e.set = false)
    ∨ ∃ i j : Nat, ∃ a b : Entry, i < j ∧ es[i]? = some a ∧ es[j]? = some b ∧ ∃ r : Nat, r ∈ (b.m.uses ty b.set).wr
        ∧ (r ∈ (a.m.uses ty a.set).wr ∨ r ∈ (a.m.uses ty a.set).rd)

/-! ### The anvil, tiles and transfers -/

/-- The instruction gives d the value v, goes on to the next word, and P holds of the state it leaves. -/
def GivesAnd (i : Instr) (s : State) (d : BitVec 5) (v : W64) (P : State → Prop) : Prop :=
  Does i s fun t => t.me = (s.me.wr d.toNat v).advance ∧ (∀ k, k ≠ s.cur → t.ctxAt k = s.ctxAt k) ∧ P t

/-- The instruction goes on to the next word and writes no general register of its own, and P holds of the state it leaves. -/
def GoesOn (i : Instr) (s : State) (P : State → Prop) : Prop :=
  Does i s fun t => t.me = s.me.advance ∧ (∀ k, k ≠ s.cur → t.ctxAt k = s.ctxAt k) ∧ P t

/-- The ANVIL instructions (R310). -/
def isAnvil (i : Instr) : Bool :=
  match i with
  | .aclaim .. => true
  | .arels .. => true
  | .atile .. => true
  | .alda .. => true
  | .aldb .. => true
  | .amma .. => true
  | .ammz .. => true
  | .asmma .. => true
  | .astc .. => true
  | .azero .. => true
  | .alease => true
  | .afree => true
  | .await => true
  | _ => false

/-- The issuing strand's cluster, and what it keeps of an operand slot. -/
def myAnvil (s : State) : Cluster := s.clusterAt s.myCluster
def slotOf (s : State) (i : Nat) : Option OperandSlot := Sparse.get none (myAnvil s).slots i

/-- The command list of the issuing strand's core. -/
def commands (s : State) : List AnvilCmd := (s.coreAt s.myCore).anvil

/-- K_pass of a format (R315). -/
def kPass (f : Nat) : Nat :=
  if f ≤ 1 then 48 else if f ≤ 3 then 96 else if f ≤ 5 then 128 else if f = 6 then 192 else if f ≤ 8 then 96 else if f = 9 then 192
  else if f = 10 then 384 else if f = 11 then 24 else 48

/-- What ALDA (isB false) or ALDB may load (R315). -/
def FormatAllowed (f : Nat) (mx sparse isB : Bool) : Prop :=
  f ≤ 13 ∧ (mx = true → 2 ≤ f ∧ f ≤ 10) ∧ (f = 6 → mx = true) ∧ (f = 13 → isB = true)
    ∧ (sparse = true → isB = false ∧ f ≠ 11 ∧ f ≠ 12)

/-- A command enters its core's list as the newest, and counts under its lease: below MAX the count rises; at MAX the lease is to pass, with a
standing request kept, where another strand requests, and else the count begins again (R310, R311). -/
def Entered (s t : State) (cmd : AnvilCmd) : Prop :=
  let y := myAnvil s
  let z := t.clusterAt s.myCluster
  let mx := fieldOf (s.me.crGet 0x205) 0 9
  (t.coreAt s.myCore).anvil = commands s ++ [cmd] ∧ cmd.key = s.cur ∧ cmd.started = false
    ∧ cmd.m = s.me.tileM ∧ cmd.n = s.me.tileN ∧ cmd.k = s.me.tileK
    ∧ (y.used + 1 < mx → z.used = y.used + 1 ∧ z.passing = y.passing)
    ∧ (mx ≤ y.used + 1 → (∃ k ∈ y.requests, k ≠ s.cur) → z.passing = true ∧ s.cur ∈ z.requests)
    ∧ (mx ≤ y.used + 1 → (∀ k ∈ y.requests, k = s.cur) → z.used = 0 ∧ z.passing = y.passing)
    ∧ z.holder = y.holder

/-- An accumulator of the issuing strand's core has a path tag, and no other tag and no value of an accumulator has changed (R314). -/
def PathTaken (s t : State) (acc path : Nat) : Prop :=
  let x := (s.coreAt s.myCore).acc
  let y := (t.coreAt s.myCore).acc
  (∀ j, Sparse.get 0 y.tag j = if j = acc then path else Sparse.get 0 x.tag j) ∧ y.run = x.run ∧ y.wide = x.wide ∧ y.count = x.count

/-- The issuing strand holds the lease, and there is room for its command (R310, R311). -/
def CommandReady (s : State) : Prop := s.anvilStrand = true ∧ s.lease = .held ∧ (commands s).length < 16

/-- The tile that a command names is at rest and holds what the command reads or writes from its OFF up to some ends (R24, R318, R322). -/
def TileReady (s : State) (v : W64) (tile : Tile) (ends : List Nat) : Prop :=
  s.tile? s.myCore (v.toNat % 64) s.me.job = some tile ∧ tile.state = .ready ∧ fieldOf v 32 20 % 64 = 0 ∧ ∀ e ∈ ends, e ≤ tile.len

/-- The trap of a tile operand that is not at rest as a command needs it (R318, R322). -/
def TileTraps (i : Instr) (s : State) (v : W64) (ends : List Nat) : Prop :=
  let id := v.toNat % 64
  ((s.tile? s.myCore id s.me.job = none ∨ ∃ t, s.tile? s.myCore id s.me.job = some t ∧ t.state = .empty) → Traps i s .tileEmpty 0 s.me.pc)
    ∧ ∀ t, s.tile? s.myCore id s.me.job = some t →
        ((t.state = .filling ∨ t.state = .draining) → Does i s (Held s))
          ∧ (t.state = .ready → fieldOf v 32 20 % 64 ≠ 0 → Traps i s .misalign 0 s.me.pc)
          ∧ (t.state = .ready → fieldOf v 32 20 % 64 = 0 → (∃ e ∈ ends, t.len < e) → Traps i s .prot 0 s.me.pc)

/-- Some slots are owned by the issuing strand, for its job. -/
def Owns (s : State) (first n : Nat) : Prop := ∀ j, j < n → first + j < 256 ∧ ∃ o, slotOf s (first + j) = some o ∧ o.owner = s.cur ∧ o.job = s.me.job

/-- Word i of a haul request read as 32 bytes. -/
def wordIn (bs : List Byte) (i : Nat) : W64 := BitVec.ofNat 64 (leNat ((bs.drop (8 * i)).take 8))

/-- Whether a request's reserved bits are all 0 (R297). -/
def RequestClean (bs : List Byte) : Prop :=
  fieldOf (wordIn bs 0) 50 14 = 0 ∧ fieldOf (wordIn bs 1) 6 58 = 0 ∧ fieldOf (wordIn bs 2) 20 44 = 0
    ∧ fieldOf (wordIn bs 3) 16 16 = 0 ∧ fieldOf (wordIn bs 3) 1 11 = 0

/-- The milestone of a channel: no transfer of it below M is outstanding, and M is the first that is, or else the next id (R300). -/
def IsMilestone (s : State) (m ch M : Nat) : Prop :=
  (∀ x ∈ (s.coreAt m).xfers, x.chan = ch → x.state ≠ .finished → M ≤ x.id) ∧ M ≤ (s.chanAt m ch).next
    ∧ (M = (s.chanAt m ch).next ∨ ∃ x ∈ (s.coreAt m).xfers, x.chan = ch ∧ x.state ≠ .finished ∧ x.id = M)

/-- The tile instructions that wait for the strand's transfers to start, and their destination (R308). -/
def tileDest (i : Instr) : Option (BitVec 5) :=
  match i with
  | .tdef d _ _ => some d
  | .tset d _ _ => some d
  | .tfree d _ => some d
  | _ => none

/-- No HAUL of the issuing strand waits to start (R308). -/
def HaulsStarted (s : State) : Prop :=
  ∀ x ∈ (s.coreAt s.myCore).xfers, ¬ (x.key = s.cur ∧ x.job = s.me.job ∧ x.state = .waiting)

/-- A haul command has entered its channel's FIFO with the channel's next id, with what its request says: the fields of a request that can be
read, or the code of what is wrong with it (R297, R301, R306). Memory changes at most in the page tables that reading the request marks; no
tile and no other channel changes. -/
def HaulEntered (s t : State) (a b : BitVec 5) : Prop :=
  let m := s.myCore
  let ch := (s.rd b).toNat % 4
  let id := (s.chanAt m ch).next
  let req := s.engineRead m (s.rootOf s.cur) ((s.rd a).toNat % 2 ^ 50) 32
  t.chanAt m ch = { s.chanAt m ch with next := id + 1 } ∧ (∀ c, c ≠ ch → t.chanAt m c = s.chanAt m c)
    ∧ (t.coreAt m).tiles = (s.coreAt m).tiles
    ∧ ∃ x : Xfer, (t.coreAt m).xfers = (s.coreAt m).xfers ++ [x] ∧ x.chan = ch ∧ x.id = id ∧ x.key = s.cur ∧ x.job = s.me.job
        ∧ x.state = .waiting ∧ x.addr = (s.rd a).setWidth 50
        ∧ ((s.rd a).toNat % 8 ≠ 0 → x.code = 1 ∧ t.mem = s.mem)
        ∧ ((s.rd a).toNat % 8 = 0 → ∀ cause, req = .error cause → x.code = (if cause = .page then 2 else 3) ∧ t.mem = s.mem)
        ∧ ((s.rd a).toNat % 8 = 0 → ∀ bs s1, req = .ok (bs, s1) →
            x.mem = fieldOf (wordIn bs 0) 0 50 ∧ x.tile = fieldOf (wordIn bs 1) 0 6 ∧ x.len = fieldOf (wordIn bs 2) 0 20
              ∧ x.toff = fieldOf (wordIn bs 3) 32 32 ∧ x.cls = fieldOf (wordIn bs 3) 12 4 ∧ x.drain = (wordIn bs 3).getLsbD 0
              ∧ (RequestClean bs → x.code = 0) ∧ (¬ RequestClean bs → x.code = 6) ∧ (Unsampled s → t.mem = s1.mem))

/-- Only the tile table of the issuing strand's core differs, beside the contexts. -/
def OnlyTiles (s t : State) : Prop :=
  t.mem = s.mem ∧ t.coreAt s.myCore = { s.coreAt s.myCore with tiles := (t.coreAt s.myCore).tiles }
    ∧ (∀ c, c ≠ s.myCore → t.coreAt c = s.coreAt c) ∧ t.sched = s.sched

/-- Whether a region may be a tile (R295). -/
def RegionAllowed (off len : Nat) : Prop :=
  0x40000 ≤ off ∧ off ≤ 0xBFFC0 ∧ off % 64 = 0 ∧ 64 ≤ len ∧ len ≤ 524288 ∧ len % 64 = 0 ∧ off + len ≤ 0xC0000

/-- Whether a region shares a byte with a defined tile of the issuing strand's core. -/
def Overlaps (s : State) (off len : Nat) : Prop :=
  ∃ p ∈ (s.coreAt s.myCore).tiles, ∃ t, p.2 = some t ∧ off < t.off + t.len ∧ t.off < off + len

/-- The entry of a tile id of the issuing strand's core. -/
def tileAt (s : State) (id : Nat) : Option Tile := Sparse.get none (s.coreAt s.myCore).tiles id

/-- The state word of a tile (R308). -/
def IsTileWord (v : W64) (t : Tile) : Prop :=
  v.toNat = (t.len * 2 ^ 32 + t.arr * 2 ^ 12 + t.owner * 2 ^ 4
    + (match t.state with | .empty => 0 | .filling => 1 | .ready => 2 | .draining => 3)) % 2 ^ 64

/-! ### What a multiply leaves in the accumulators (R74 to R76, R318 to R322) -/

/-- The bits of an operand element. -/
def elemBits (f : Nat) : Nat := if f ≤ 1 ∨ f = 11 then 16 else if f = 4 ∨ f = 5 then 6 else if f = 6 ∨ f = 9 then 4 else if f = 10 then 2 else 8

/-- Element k of vector r of an operand slot, a part of a complex one by its own number: w bits of the vector's stream (R55, R318). -/
def slotElem (y : Cluster) (w s r k : Nat) : Nat :=
  (List.range w).foldl (fun v b =>
    v + if (Sparse.get 0 y.data (4096 * s + 96 * r + (w * k + b) / 8)).getLsbD ((w * k + b) % 8) then 2 ^ b else 0) 0

/-- The same as an integer. -/
def intAt (y : Cluster) (f s r k : Nat) : Int :=
  let c := slotElem y (elemBits f) s r k
  if f = 8 then c else signedOf (elemBits f) c

/-- Products added one by one into an i48 sum that saturates (R76; of complex products each by itself: log 53). -/
def satSum (old : Int) (ps : List Int) : Int := ps.foldl (fun v p => max (-2 ^ 47) (min (2 ^ 47 - 1) (v + p))) old

/-- The nibble of group g of row m in an index slot (R321). -/
def nibbleAt (y : Cluster) (kp s m g : Nat) : Nat := slotElem y 4 s 0 (m * (kp / 2) + g)

/-- The values of row m in half h of a pass of ASMMA: the place of each, and its K position in the pass (R321). -/
def sparseAt (y : Cluster) (kp k s j m h : Nat) : List (Nat × Nat) :=
  (List.range kp).filterMap fun v =>
    let nib := nibbleAt y kp s m (v / 2)
    let pos := 4 * (v / 2) + if v % 2 = 0 then nib % 4 else nib / 4
    if pos / kp = h ∧ 2 * j * kp + pos < k then some (v, pos) else none

/-- The integer products of an element, in order: one of each K position, or of each value that stands at one. -/
def intProducts (y : Cluster) (c : AnvilCmd) (m n : Nat) : List Int :=
  let kp := kPass c.fa
  if c.op = .smma then
    let np := ceilDiv c.k (2 * kp)
    (List.range np).flatMap fun j => [0, 1].flatMap fun h =>
      (sparseAt y kp c.k (c.sa + np + j) j m h).map fun x =>
        intAt y c.fa (c.sa + j) m x.1 * intAt y c.fb (c.sb + 2 * j + h) n (x.2 % kp)
  else (List.range c.k).map fun k => intAt y c.fa (c.sa + k / kp) m (k % kp) * intAt y c.fb (c.sb + k / kp) n (k % kp)

/-- The products of the two parts of a complex element (R74). -/
def complexProducts (y : Cluster) (c : AnvilCmd) (m n : Nat) (imag : Bool) : List Int :=
  let kp := kPass c.fa
  let a (k q : Nat) : Int := intAt y c.fa (c.sa + k / kp) m (2 * (k % kp) + q)
  let b (k q : Nat) : Int := intAt y c.fb (c.sb + k / kp) n (2 * (k % kp) + q)
  (List.range c.k).flatMap fun k => if imag then [a k 0 * b k 1, a k 1 * b k 0] else [a k 0 * b k 0, -(a k 1 * b k 1)]

/-- Sums and products of numbers that may not be there. -/
noncomputable def mulO (a b : Option ℝ) : Option ℝ :=
  match a, b with
  | some x, some y => some (x * y)
  | _, _ => none

noncomputable def sumO : List (Option ℝ) → Option ℝ
  | [] => some 0
  | x :: xs =>
    match x, sumO xs with
    | some a, some b => some (a + b)
    | _, _ => none

/-- The number that an element of an operand is, before its block's scale (R70, R315). -/
noncomputable def codeNumber (f code x : Nat) : Option ℝ :=
  match f with
  | 0 => realOf fmtBf16 code
  | 1 => realOf fmtF16 code
  | 2 => realOf fmtE4m3 code
  | 3 => realOf fmtE5m2 code
  | 4 => realOf fmtE3m2 code
  | 5 => realOf fmtE2m3 code
  | 6 => if code = 8 then realOf fmtE4m3 x else some ((if 8 ≤ code then -1 else 1) * e2m1Magnitude code)
  | 8 => some (code : ℝ)
  | 11 => realOf fmtBf16 code
  | f => some (signedOf (elemBits f) code : ℝ)

/-- A[m][k] or B[k][n] as a number, scaled in an MX operand by the side entry of its K position in the pass (R318, R320). -/
noncomputable def numberAt (y : Cluster) (f : Nat) (mx sparse : Bool) (s r k pos : Nat) : Option ℝ :=
  let w := if f = 6 then 2 else 1
  let at_ := 4096 * s + 3072 + (r * (kPass f / 32 * (if sparse then 2 else 1)) + pos / 32) * w
  let scale := (Sparse.get 0 y.data at_).toNat
  let x := (Sparse.get 0 y.data (at_ + 1)).toNat
  let v := codeNumber f (slotElem y (elemBits f) s r k) x
  if !mx then v else if scale = 255 then none else mulO v (some (scaleOf scale))

/-- The sum of a pass from one B slot, times the column's scale of a tcw slot; no product adds nothing (log 48). -/
noncomputable def columnSum (y : Cluster) (f s n : Nat) (ps : List (Option ℝ)) : Option ℝ :=
  if ps.isEmpty then some 0
  else if f = 13 then
    mulO (sumO ps) (realOf fmtBf16 ((Sparse.get 0 y.data (4096 * s + 3072 + 2 * n)).toNat
      + 256 * (Sparse.get 0 y.data (4096 * s + 3072 + 2 * n + 1)).toNat))
  else sumO ps

/-- The K positions of pass j of a dense multiply, within the pass. -/
def denseAt (kp k j : Nat) : List Nat := (List.range kp).filter fun i => decide (j * kp + i < k)

/-- What pass j adds to element (m, n) of a float multiply (R74, R320, R321). -/
noncomputable def floatSum (y : Cluster) (c : AnvilCmd) (m n j : Nat) : Option ℝ :=
  let kp := kPass c.fa
  if c.op = .smma then
    let part (h : Nat) : Option ℝ :=
      columnSum y c.fb (c.sb + 2 * j + h) n ((sparseAt y kp c.k (c.sa + ceilDiv c.k (2 * kp) + j) j m h).map fun x =>
        mulO (numberAt y c.fa c.mxa true (c.sa + j) m x.1 x.2) (numberAt y c.fb c.mxb false (c.sb + 2 * j + h) n (x.2 % kp) (x.2 % kp)))
    sumO [part 0, part 1]
  else
    columnSum y c.fb (c.sb + j) n ((denseAt kp c.k j).map fun i =>
      mulO (numberAt y c.fa c.mxa false (c.sa + j) m i i) (numberAt y c.fb c.mxb false (c.sb + j) n i i))

/-- The same for a part of a complex element. -/
noncomputable def complexSum (y : Cluster) (c : AnvilCmd) (m n j : Nat) (imag : Bool) : Option ℝ :=
  let kp := kPass c.fa
  let a (i q : Nat) : Option ℝ := numberAt y c.fa false false (c.sa + j) m (2 * i + q) 0
  let b (i q : Nat) : Option ℝ := numberAt y c.fb false false (c.sb + j) n (2 * i + q) 0
  sumO ((denseAt kp c.k j).flatMap fun i =>
    if imag then [mulO (a i 0) (b i 1), mulO (a i 1) (b i 0)] else [mulO (a i 0) (b i 0), mulO (some (-1)) (mulO (a i 1) (b i 1))])

/-- One pass of one element: its run value, wide value and the pass count before and after (R74). -/
def PassAdds (p : Nat) (q : ℝ) (x z : Nat × Nat × Nat) : Prop :=
  ∃ r : Nat, (∀ a, realOf fmtF32 x.1 = some a → IsRounded fmtF32 .rz (a + q) r)
    ∧ (x.2.2 + 1 ≠ p → z = (r, x.2.1, x.2.2 + 1))
    ∧ (x.2.2 + 1 = p → z.1 = 0 ∧ z.2.2 = 0
        ∧ ∀ w b, realOf fmtF40 x.2.1 = some w → realOf fmtF32 r = some b → IsRounded fmtF40 .rne (w + b) z.2.1)

/-- An element of an accumulator after some passes with the given sums. -/
def PassesAdd (p np : Nat) (q : Nat → ℝ) (x z : Nat × Nat × Nat) : Prop :=
  ∃ seq : Nat → Nat × Nat × Nat, seq 0 = x ∧ seq np = z ∧ ∀ j, j < np → PassAdds p (q j) (seq j) (seq (j + 1))

/-- The place of element (m, n) of an accumulator. -/
def accPlace (t m n : Nat) : Nat := (t * 32 + m) * 32 + n

/-- A float element of an accumulator, with its pass count. -/
def floatAt (c : Accs) (t m n : Nat) : Nat × Nat × Nat :=
  (Sparse.get 0 c.run (accPlace t m n), Sparse.get 0 c.wide (accPlace t m n), Sparse.get 0 c.count t)

/-- The slots of a multiply bear the tags that the command names, its A slots SPARSE for ASMMA. -/
def TagsNamed (c : AnvilCmd) : Prop :=
  (∀ j, j < c.passes → c.ta[j]? = some (c.fa, c.mxa, c.op == .smma))
    ∧ ∀ j, j * kPass c.fa < c.k → c.tb[j]? = some (c.fb, c.mxb, false)

/-- What the multiplies do to the accumulators of a core, and what ASTC makes of them. -/
def AccumulatorValues : Prop :=
  ∀ (y : Cluster) (c : AnvilCmd) (x : Accs) (row : Nat), c.multiplies = true → pairRow c.fa c.fb = some row → TagsNamed c →
    c.acc < 2 → c.m ≤ 32 → c.n ≤ 32 →
    let path := pairPath row c.mxa c.mxb
    let z := (multiply y c x).1
    -- AMMZ clears its accumulator first, and what a multiply does not name stays
    let from_ (v : Nat) : Nat := if c.op = .mmz then 0 else v
    let old (m n : Nat) : Int := signedOf 48 (from_ (Sparse.get 0 x.wide (accPlace c.acc m n)))
    let cols := if path = 3 ∨ path = 4 then 2 * min c.n 16 else c.n
    (∀ k, (∀ m n, m < c.m → n < cols → k ≠ accPlace c.acc m n) →
        let kept := if c.op = .mmz ∧ c.acc * 1024 ≤ k ∧ k < c.acc * 1024 + 1024 then 0 else 1
        Sparse.get 0 z.run k = kept * Sparse.get 0 x.run k ∧ Sparse.get 0 z.wide k = kept * Sparse.get 0 x.wide k)
      -- integers
      ∧ (path = 1 → (∀ k, Sparse.get 0 x.wide k < 2 ^ 48) → ∀ m n, m < c.m → n < c.n →
          signedOf 48 (Sparse.get 0 z.wide (accPlace c.acc m n)) = satSum (old m n) (intProducts y c m n))
      ∧ (path = 3 → c.op ≠ .smma → (∀ k, Sparse.get 0 x.wide k < 2 ^ 48) → ∀ m n, m < c.m → n < min c.n 16 →
          signedOf 48 (Sparse.get 0 z.wide (accPlace c.acc m (2 * n))) = satSum (old m (2 * n)) (complexProducts y c m n false)
            ∧ signedOf 48 (Sparse.get 0 z.wide (accPlace c.acc m (2 * n + 1))) = satSum (old m (2 * n + 1)) (complexProducts y c m n true))
      -- floats
      ∧ (path = 2 → ∀ (q : Nat → ℝ) (m n : Nat), m < c.m → n < c.n → (∀ j, j < c.passes → floatSum y c m n j = some (q j)) →
          let s := floatAt x c.acc m n
          PassesAdd (2 ^ c.promo) c.passes q (from_ s.1, from_ s.2.1, from_ s.2.2) (floatAt z c.acc m n))
      ∧ (path = 4 → c.op ≠ .smma → ∀ (q : Nat → ℝ) (im : Bool) (m n : Nat), m < c.m → n < min c.n 16 →
          (∀ j, j < c.passes → complexSum y c m n j im = some (q j)) →
          let col := 2 * n + if im then 1 else 0
          let s := floatAt x c.acc m col
          PassesAdd (2 ^ c.promo) c.passes q (from_ s.1, from_ s.2.1, from_ s.2.2) (floatAt z c.acc m col))

/-- What ASTC writes: row m from its offset on, each part the saturated sum, or wide and run added, rounded into the wide format and then into the
stored one (R75, R322). -/
def StoredValues : Prop :=
  ∀ (c : AnvilCmd) (path : Nat) (x : Accs) (m : Nat), m < c.m → c.m ≤ 32 → c.n ≤ 32 → c.acc < 2 → storeBytes c.ty ≠ 0 → storeFits path c.ty = true →
    let b := storeBytes c.ty
    let cols := if 18 ≤ c.ty then min (2 * c.n) 32 else c.n
    let out := storeRows c path x
    ∃ vs : List Nat, vs.length = cols ∧ out.2.1[m]? = some (c.off + 32 * b * m, vs.flatMap (leBytes b))
      ∧ ∀ (n v : Nat), vs[n]? = some v →
          let run := Sparse.get 0 x.run (accPlace c.acc m n)
          let wide := Sparse.get 0 x.wide (accPlace c.acc m n)
          (path = 0 → v = 0)
            ∧ ((path = 1 ∨ path = 3) → wide < 2 ^ 48 → v = (saturateTo true (8 * b) (signedOf 48 wide)).1)
            ∧ ((path = 2 ∨ path = 4) → ∃ w : Nat,
                (∀ r h, realOf fmtF32 run = some r → realOf fmtF40 wide = some h → IsRounded fmtF40 .rne (h + r) w)
                  ∧ ∀ h, realOf fmtF40 w = some h → IsRounded (fmtOf (match c.ty with | 20 => 10 | 21 => 11 | 22 => 12 | t => t)) .rne h v)

/-! ### The trellis encoder, the coding engines, fronthaul, and wayfarers -/

/-- Two tiles of the issuing strand's job by id. -/
def myTile (s : State) (id : Nat) : Option Tile := s.tile? s.myCore id s.me.job

/-- A tile at rest that holds data, or busy. -/
def AtRest (t : Tile) : Prop := t.state = .ready
def Busy (t : Tile) : Prop := t.state = .filling ∨ t.state = .draining

/-- A core's milestone instruction: F above M (R362). -/
def IsMileWord (v : W64) (fault : Bool) (mile : Nat) : Prop := v.toNat = (if fault then 2 ^ 63 else 0) + mile % 2 ^ 63

/-- The destinations that R369 forbids to be a coordinate register, of the instructions whose own claims leave that form open. -/
def plainDest (i : Instr) : Option (BitVec 5) :=
  match i with
  | .crset d _ _ => some d
  | .crclr d _ _ => some d
  | .waita d _ _ => some d
  | .cross d => some d
  | .crossa d => some d
  | .crossw d _ => some d
  | .crossp d _ => some d
  | .vset d _ _ => some d
  | .time d => some d
  | .slack d _ => some d
  | .hmile d _ => some d
  | .cmile d => some d
  | _ => (amoForm i).map fun f => f.1

/-- The instructions of the claims about results that a wayfarer may use on its coordinate registers, with d and what d's value must be. -/
def CoordRule (i : Instr) (s : State) (d : BitVec 5) (p : W64 → Prop) : Prop :=
  aluRule i s = some (d, p) ∨ countRule i s = some (d, p) ∨ mulDivRule i s = some (d, p) ∨ immRule i s = some (d, p)

/-- The core whose tract holds a pair, under the copy of the map that the issuing core has. -/
def hostOf (s : State) (x y : Nat) : Option Nat := if x < 2 ^ 16 ∧ y < 2 ^ 16 then (s.coreAt s.myCore).map.host x y else none

/-- %tval of COORD for a pair (R370). -/
def pairWord (x y : Nat) : W64 := BitVec.ofNat 64 (x % 2 ^ 32 * 2 ^ 32 + y % 2 ^ 32)

/-- The instruction gives up an admission that its strand holds and traps COORD with a value; nothing else changes (R370). -/
def TrapsCoord (i : Instr) (s : State) (tval : W64) : Prop :=
  ∃ u : State, exec i s = .next (u.raise { key := s.cur, cause := .coord, tval := tval, tepc := s.me.pc })
    ∧ u.me = { s.me with coordWrite := none } ∧ (∀ k, k ≠ s.cur → u.ctxAt k = s.ctxAt k) ∧ u.core = s.core ∧ u.mem = s.mem

/-- The issuing strand is held with a coordinate write: nothing is written, and its request is at the tract map unit, or on its core until its engines
are clear (R371), unless an admission to the same pair stands. -/
def WaitsForTract (s t : State) (x y : Nat) : Prop :=
  t.me.hold = .coord ∧ t.me.pc = s.me.pc ∧ t.me.g = s.me.g ∧ t.mem = s.mem
    ∧ (∃ w, t.me.coordWrite = some w ∧ w.x = x ∧ w.y = y ∧ w.admitted = s.admissionStands x y)
    ∧ (s.admissionStands x y = false → ∃ r, (r ∈ if s.enginesClear s.cur then t.way.requests else t.way.asking) ∧ r.key = s.cur ∧ r.x = x ∧ r.y = y)

/-- A core's record of a strand is now as said, and its copies are to stand in the halos of the cores around that it lies within %halo.DIST of
(R373). -/
def RecordNow (s t : State) (r : WayRecord) : Prop :=
  ∃ cs : List Nat, t.record? s.myCore s.cur = some { r with copies := cs }
    ∧ ∀ k, k ∈ cs ↔ k < 256 ∧ k ≠ s.myCore ∧ k % 16 ≤ s.myCore % 16 + 1 ∧ s.myCore % 16 ≤ k % 16 + 1 ∧ k / 16 ≤ s.myCore / 16 + 1
        ∧ s.myCore / 16 ≤ k / 16 + 1 ∧ ∃ d, (s.coreAt s.myCore).map.distance k r.x r.y = some d ∧ d ≤ s.haloDist

/-- The records of the issuing strand's job that its core holds, each strand's once (R374). -/
def InReach (s : State) (r : WayRecord) : Prop := r ∈ s.recordsAt s.myCore s.me.job

/-- The squared distance between two pairs. -/
def distance2 (p q : WayRecord) : Nat := (((p.x : Int) - q.x) ^ 2 + ((p.y : Int) - q.y) ^ 2).toNat

/-- rs lists, nearest first and then by handle, exactly the records in reach within r of q, q excluded (R377). -/
def IsNearest (s : State) (q : WayRecord) (r : Nat) (rs : List WayRecord) : Prop :=
  (∀ p, p ∈ rs ↔ InReach s p ∧ p.key ≠ q.key ∧ distance2 p q ≤ r ^ 2)
    ∧ rs.Pairwise fun p p' => distance2 p q < distance2 p' q ∨ (distance2 p q = distance2 p' q ∧ p.key ≤ p'.key)

/-! ### The scheduler's instructions and the debug instructions -/

/-- The scheduler instructions that answer through d. -/
def schedDest (i : Instr) : Option (BitVec 5) :=
  match i with
  | .spawn d _ => some d
  | .jdone d _ => some d
  | .qpush d _ _ => some d
  | .qpop d _ _ => some d
  | .qlen d _ => some d
  | .chsend d _ _ => some d
  | .chrecv d _ _ => some d
  | .chrel d => some d
  | .cntrd d _ => some d
  | .cntcfg d _ _ => some d
  | _ => none

/-- Records waiting in a queue (R235). -/
def QueueCount (x : HwQueue) : Nat := x.chip.length + x.ring.length

/-- The issuing strand is held at the scheduler, with its registers as they were. -/
def HeldAt (u t : State) (h : Hold) : Prop := t.me.hold = h ∧ t.me.pc = u.me.pc ∧ t.me.g = u.me.g

/-- The operation that a held instruction leaves with the scheduler. -/
def LeavesHeld (s : State) (ops : List HeldOp) (kind : Nat) (d : BitVec 5) : Prop :=
  ∃ h ∈ ops, h.key = s.cur ∧ h.kind = kind ∧ h.d = d.toNat

/-- An id names an unfinished child of the issuing strand's job (R233). -/
def ChildRuns (s : State) (child : Nat) : Prop := s.me.job ≠ 0 ∧ ∃ j ∈ s.sched.jobs, j.id = child ∧ j.parent = s.me.job

/-- The record a scheduler instruction reads or writes: its place and the state after its translation (R235). -/
def RecordAt (s : State) (a : BitVec 5) (acc : Acc) (p : Place) (s1 : State) : Prop :=
  s.request ((s.rd a).toNat % 2 ^ 50) 64 64 acc = .ok (p, s1)

/-- The channel that stage i of a run has to the next stage. -/
def channelOf (t : State) (r i : Nat) : Option Channel :=
  (t.sched.routes.find? fun x => x.id == r).map fun x => x.channels.getD i {}

/-- Held operations that can complete do, one after another, until none can (R236; what each leaves is said at SYS, in JobSteps). -/
inductive CatchesUp : State → State → Prop where
  | rest {s : State} (h : s.serveOne = none) : CatchesUp s s
  | serve {s t u : State} (h : s.serveOne = some t) (n : CatchesUp t u) : CatchesUp s u

/-- A request has come to the scheduler: the messages it sends change no context and nothing that the scheduler holds, and no memory but the trace
records of samples; then the held operations that can complete have gone ahead of it. -/
def Asked (s u : State) : Prop :=
  ∃ v : State, v.ctx = s.ctx ∧ v.sched = s.sched ∧ v.dev = s.dev ∧ v.cur = s.cur ∧ (Unsampled s → v.mem = s.mem)
    ∧ (Sparse.rising s.sched.queues = true → CatchesUp v u)

/-- The instruction gives d a value at the scheduler, where its request has come to u, and P holds of the state it leaves. -/
def GivesAt (u : State) (i : Instr) (s : State) (d : BitVec 5) (v : W64) (P : State → Prop) : Prop :=
  Does i s fun t => t.me = (u.me.wr d.toNat v).advance ∧ (∀ k, k ≠ s.cur → t.ctxAt k = u.ctxAt k) ∧ P t

/-- The instruction is refused with a status, and no queue, channel or job changes (R231). -/
def Refused (u : State) (i : Instr) (s : State) (d : BitVec 5) (code : Nat) : Prop := GivesAt u i s d (status code) fun t => t.sched = u.sched

/-- A user trace record (R389): four words. -/
def IsUserRecord (s : State) (a b : BitVec 5) (ws : List W64) : Prop :=
  ∃ w0 w1 w2, ws = [w0, w1, w2, s.rd b]
    ∧ fieldOf w0 60 4 = 2 ∧ fieldOf w0 56 4 = s.me.here % 16 ∧ fieldOf w0 48 8 = s.myCore % 256 ∧ fieldOf w0 0 48 = fieldOf s.dev.time 0 48
    ∧ fieldOf w1 0 50 = s.me.pc.toNat ∧ fieldOf w1 50 14 = s.me.grant % 2 ^ 14 ∧ fieldOf w2 0 32 = fieldOf (s.rd a) 0 32 ∧ fieldOf w2 32 32 = fieldOf (s.me.crGet 0x10B) 0 32

/-! ### The host link, the lock, boot and power -/

/-- Only the device's own registers differ. -/
def OnlyDevice (s t : State) : Prop := t = { s with dev := t.dev }

/-- RCONS of a ring has gone past the packet that stood at its head, and the slice goes on with this ring (R391); of a packet that is discarded, past what the ring holds of it. -/
def PastPacket (s t : State) (r : Nat) : Prop :=
  (t.dev.ringReg r 3).toNat = ((s.dev.ringReg r 3).toNat + min (s.packetEntries r) (s.dev.ringCount r)) % 2 ^ 32 ∧ t.dev.serving = r

/-- A word of a template's header (R412). -/
def headerWord (x : Template) (i : Nat) : W64 := x.header.getD i 0

/-- What a host read of an aligned register of BAR0 returns (R391). -/
def ReadsAs (s : State) (off : Nat) (v : W64) : Prop :=
  let d := s.dev
  (off = 0 → v.getLsbD 63 = d.ready ∧ v.getLsbD 62 = d.recov ∧ fieldOf v 0 62 = d.berr.toNat)
    ∧ (off = 0x08 → v = Config.feat0.setWidth 64) ∧ (off = 0x28 → v = d.feaen) ∧ (off = 0x30 → v = d.cbase) ∧ (off = 0x38 → v = d.csize)
    ∧ (off = 0x40 → v.toNat = if d.locked then 1 else 0)
    ∧ (∀ w i, w < 4 → i < 64 → off = 0x48 + 8 * w → v.getLsbD i = (s.coreAt (64 * w + i)).fenced)
    ∧ (∀ r i, r < 16 → i < 4 → off = 0x1000 + 32 * r + 8 * i → v = d.ringReg r i)
    ∧ (∀ r, r < 16 → off = 0x2000 + 8 * r → v = Sparse.get 0 d.rerr r)
    ∧ ((off ∉ [0, 0x08, 0x28, 0x30, 0x38, 0x40, 0x48, 0x50, 0x58, 0x60] ∧ (off < 0x1000 ∨ 0x1200 ≤ off) ∧ (off < 0x2000 ∨ 0x2080 ≤ off)) → v = 0)

/-- What a host write of an aligned register of BAR0 leaves (R391, R396, R400). -/
def WritesAs (s t : State) (off : Nat) (v : W64) : Prop :=
  t.mem = s.mem ∧ t.ctx = s.ctx
    ∧ (off = 0x28 → t.dev.feaen = if s.dev.locked then s.dev.feaen else v &&& Config.feat0.setWidth 64)
    ∧ (off = 0x30 → t.dev.cbase = if s.dev.locked then s.dev.cbase else BitVec.ofNat 64 (fieldOf v 21 27 * 2 ^ 21))
    ∧ (off = 0x38 → t.dev.csize = if s.dev.locked ∨ fieldOf v 0 10 = 0 ∨ 512 < fieldOf v 0 10 then s.dev.csize else BitVec.ofNat 64 (fieldOf v 0 10))
    ∧ (off = 0x40 → t.dev.locked = (s.dev.locked || v.getLsbD 0)) ∧ (off ≠ 0x40 → t.dev.locked = s.dev.locked)
    ∧ (off ≠ 0x28 → t.dev.feaen = s.dev.feaen) ∧ (off ≠ 0x30 → t.dev.cbase = s.dev.cbase) ∧ (off ≠ 0x38 → t.dev.csize = s.dev.csize)
    ∧ (∀ w i, w < 4 → i < 64 → off = 0x48 + 8 * w → (t.coreAt (64 * w + i)).fenced = ((s.coreAt (64 * w + i)).fenced && !(v.getLsbD i)))
    ∧ (∀ r, r < 16 → (off = 0x1000 + 32 * r → (t.dev.ringReg r 0).toNat = fieldOf v 6 58 * 64)
        ∧ (off = 0x1000 + 32 * r + 8 → t.dev.ringReg r 1 = if 4 ≤ fieldOf v 0 5 ∧ fieldOf v 0 5 ≤ 16 then BitVec.ofNat 64 (fieldOf v 0 5) else s.dev.ringReg r 1)
        ∧ (off = 0x1000 + 32 * r + 16 → (t.dev.ringReg r 2).toNat = v.toNat % 2 ^ 32))
    ∧ (∀ r i, i < 4 → (off ≠ 0x1000 + 32 * r + 8 * i ∨ i = 3) → t.dev.ringReg r i = s.dev.ringReg r i)
    ∧ ((off < 0x48 ∨ 0x60 < off) → off ≠ 0x40 → OnlyDevice s t)

/-- What a reset finds of the boot chain: the images, the key that each is to be signed by, and whether an image passes its checks (R397). -/
def bootImage (s : State) (i : Nat) : Firmware := (if s.dev.recov then s.dev.images else s.input.boot.images).getD i {}
def bootKey (s : State) (i : Nat) : BitVec 456 := if i = 0 then s.dev.rootKey else (bootImage s (i - 1)).certifies
def bootFault (s : State) (i : Nat) : Nat :=
  let f := bootImage s i
  if f.signer ≠ bootKey s i then 1 else if shake256 f.body ≠ f.digest then 2 else if f.version < s.dev.rollback then 3 else 0

/-- The chain stops at image n, or passes its three images. -/
def BootStops (s : State) (n : Nat) : Prop := n < 3 ∧ bootFault s n ≠ 0 ∧ ∀ i, i < n → bootFault s i = 0
def BootPasses (s : State) : Prop := ∀ i, i < 3 → bootFault s i = 0

/-- The machine's registers, jobs, queues and units are as State.reset has them. -/
def UnitsReset (t : State) : Prop :=
  t.sched = State.reset.sched ∧ t.cluster = State.reset.cluster ∧ t.coding = State.reset.coding ∧ t.way = State.reset.way
    ∧ t.mesh = State.reset.mesh ∧ ∀ k, k < 4096 → t.ctxAt k = State.reset.ctxAt k

/-! ### The steps of jobs, of waiting strands, and of the engines -/

/-- The context of a strand after its held instruction has returned a value in a register: ready, at the next word. -/
def Returned (c : Ctx) (d : Nat) (v : W64) : Ctx := ({ c.wr d v with hold := .ready } : Ctx).advance

/-- A job of the state is now as said. -/
def JobNow (t : State) (id : Nat) (P : Job → Prop) : Prop := ∃ x, t.job? id = some x ∧ P x

/-- A job's cut has begun: it is cut with the status given, and holds no strand and no channel (R221). -/
def CutBegun (t : State) (id : Nat) (st : Status) : Prop :=
  JobNow t id fun x => x.state = .cutting ∧ x.status = st ∧ x.live = [] ∧ x.channel = none

/-- A transfer of a core, wherever it stands in the list, is as said. -/
def XferNow (t : State) (m : Nat) (x : Xfer) (P : Xfer → Prop) : Prop :=
  ∀ y ∈ (t.coreAt m).xfers, y.chan = x.chan → y.id = x.id → P y

/-- The items of a core with a handle are as said. -/
def ItemNow (t : State) (m handle : Nat) (P : FhItem → Prop) : Prop := ∀ f ∈ (t.coreAt m).fh, f.handle = handle → P f

/-- The cycle in which a phase is released, all members having arrived: 12 cycles after the last arrival, 6 where the crew stands in one row or one
column of the mesh (R207). -/
def IsReleaseCycle (j : Job) (n : Nat) : Prop :=
  ∃ last, (∀ p ∈ j.arrivedAt, p.2 ≤ last) ∧ (last = 0 ∨ ∃ p ∈ j.arrivedAt, p.2 = last)
    ∧ let line := (∀ p ∈ j.places, ∀ q ∈ j.places, p / 256 = q / 256) ∨ ∀ p ∈ j.places, ∀ q ∈ j.places, p / 16 % 16 = q / 16 % 16
      (line → n = last + 6) ∧ (¬ line → n = last + 12)

/-- The status code with which a job completes (R215): one whose strands have all ended is DONE, unless a fault of its own is still held on an engine or an
uncorrectable error struck one of its anvil commands (R302, R325). -/
def IsEndCode (s : State) (j : Job) (n : Nat) : Prop :=
  let bad := j.struck = true ∨ ∃ p ∈ s.core, p.2.holdsFault j.id = true
  (j.state = .completing → (bad → n = 4) ∧ (¬ bad → n = 1))
    ∧ (j.state ≠ .completing → n = match j.status with | .done => 1 | .abandonedUnstarted => 2 | .abandonedCut => 3 | .faulted => 4 | .killed => 5)

/-- The strand of a held operation has its value and goes on; no other context has changed. -/
def AnswersHeld (s t : State) (h : HeldOp) (v : W64) : Prop :=
  t.ctxAt h.key = Returned (s.ctxAt h.key) h.d v ∧ ∀ k, k ≠ h.key → t.ctxAt k = s.ctxAt k

/-- A held QPOP or QPUSH of a queue has completed: the pop takes the chip part's oldest record and stores it, the push enters the chip part, or the ring
once records are there or the chip part is full; each gives the count after it (R235). -/
def ServedAtQueue (s t : State) (q : Nat) (h : HeldOp) : Prop :=
  let x := s.queueAt q
  let y := t.queueAt q
  let desc := s.queueDesc q
  let spills := x.ring ≠ [] ∨ 32 ≤ x.chip.length
  h ∈ x.held ∧ (∀ o ∈ y.held, o.key ≠ h.key) ∧ (∀ p, p ≠ q → t.queueAt p = s.queueAt p)
    ∧ ((h.kind = 1 ∧ ∃ r rs, x.chip = r :: rs ∧ y.chip = rs ∧ y.ring = x.ring ∧ t.mem = pokeBytes s.mem h.loc r
          ∧ AnswersHeld s t h (BitVec.ofNat 64 (QueueCount x - 1)))
      ∨ (h.kind = 0 ∧ AnswersHeld s t h (BitVec.ofNat 64 (QueueCount x + 1))
          ∧ (spills → y.chip = x.chip ∧ y.ring = x.ring ++ [h.record]
              ∧ t.mem = pokeBytes s.mem
                  (fieldOf desc.w0 12 36 * 4096 + 64 * ((x.head + x.ring.length) % max (fieldOf desc.w1 0 17) 1)) h.record)
          ∧ (¬ spills → y.chip = x.chip ++ [h.record] ∧ y.ring = x.ring ∧ t.mem = s.mem)))

/-- A JDONE has its child's value, or UNKNOWN where none is retained (R233). -/
def ServedJdone (s t : State) (h : HeldOp) : Prop :=
  let job := (s.ctxAt h.key).job
  ¬ (job ≠ 0 ∧ ∃ j ∈ s.sched.jobs, j.id = h.child ∧ j.parent = job) ∧ t.mem = s.mem
    ∧ AnswersHeld s t h (((s.job? job).bind fun j => (j.retained.find? fun p => p.1 == h.child).map (·.2)).getD (status 7))
    ∧ ∀ j, t.job? job = some j → ∀ p ∈ j.retained, p.1 ≠ h.child

/-- A held CHSEND or CHRECV has completed, or is answered GONE (R238, R239). -/
def ServedChannel (s t : State) (h : HeldOp) : Prop :=
  ∃ r i, s.stageOf h.key = some (r, i)
    ∧ ((h.kind = 2 ∧ (r.statuses.getD (i + 1) none).isSome = true ∧ t.sched.routes = s.sched.routes ∧ t.mem = s.mem ∧ AnswersHeld s t h (status 3))
      ∨ (h.kind = 2 ∧ (r.statuses.getD (i + 1) none).isSome = false ∧ t.mem = s.mem
          ∧ let c := r.channels.getD i {}
            c.records.length + c.taken < c.allowance
              ∧ AnswersHeld s t h (BitVec.ofNat 64 (c.allowance - c.records.length - c.taken - 1))
              ∧ (i < r.channels.length → channelOf t r.id i = some { c with records := c.records ++ [h.record] }))
      ∨ (h.kind ≠ 2 ∧ h.kind ≠ 4 ∧ ∃ bs bss, (r.channels.getD (i - 1) {}).records = bs :: bss
          ∧ let c := r.channels.getD (i - 1) {}
            t.mem = pokeBytes s.mem h.loc bs ∧ AnswersHeld s t h (BitVec.ofNat 64 (c.taken + 1))
              ∧ channelOf t r.id (i - 1) = some { c with records := bss, taken := c.taken + 1 })
      ∨ (h.kind ≠ 2 ∧ h.kind ≠ 4 ∧ (r.channels.getD (i - 1) {}).records = [] ∧ (r.statuses.getD (i - 1) none).isSome = true
          ∧ t.sched.routes = s.sched.routes ∧ t.mem = s.mem ∧ AnswersHeld s t h (status 3)))

/-- One held operation has completed, and is no longer held. -/
def Served (s t : State) : Prop :=
  (∃ h ∈ s.sched.held, (∀ o ∈ t.sched.held, o.key ≠ h.key)
      ∧ ((h.kind = 4 ∧ ServedJdone s t h) ∨ (h.kind ≠ 4 ∧ ServedChannel s t h)))
    ∨ ∃ q ∈ s.sched.queues.map (·.1), ∃ h, ServedAtQueue s t q h

/-- No held operation can complete: the children of the JDONEs run, the pops have no record and the pushes no room, and on each channel the oldest send has
no room and the oldest receive no record, with the stage at the other end not finished. -/
def NoneCanComplete (s : State) : Prop :=
  (∀ h ∈ s.sched.held, h.kind = 4 →
      (s.ctxAt h.key).job ≠ 0 ∧ ∃ j ∈ s.sched.jobs, j.id = h.child ∧ j.parent = (s.ctxAt h.key).job)
    ∧ (∀ h ∈ s.sched.held, ∀ r i, h.kind ≠ 4 → s.stageOf h.key = some (r, i) →
        let out := r.channels.getD i {}
        let inp := r.channels.getD (i - 1) {}
        (h.kind = 2 → (r.statuses.getD (i + 1) none).isSome = false ∧ (s.firstHeld h r.id i = true → out.allowance ≤ out.records.length + out.taken))
          ∧ (h.kind ≠ 2 → (s.firstHeld h r.id i = true → inp.records = []) ∧ ((r.statuses.getD (i - 1) none).isSome = true → inp.records ≠ [])))
    ∧ ∀ q ∈ s.sched.queues.map (·.1),
        let x := s.queueAt q
        ((∃ h ∈ x.held, h.kind = 1) → x.chip = [])
          ∧ ((∃ h ∈ x.held, h.kind = 0) → (x.ring ≠ [] ∨ 32 ≤ x.chip.length) ∧ fieldOf (s.queueDesc q).w1 0 17 ≤ x.ring.length)

/-- A strip stop record (R386, R389): four words, with no data. -/
def IsStopRecord (s : State) (n : Nat) (ws : List W64) : Prop :=
  let c := s.ctxAt n
  ∃ w0 w1 w2 : W64, ws = [w0, w1, w2, 0]
    ∧ fieldOf w0 60 4 = 3 ∧ fieldOf w0 56 4 = c.here % 16 ∧ fieldOf w0 48 8 = s.coreOf n % 256 ∧ fieldOf w0 0 48 = fieldOf s.dev.time 0 48
    ∧ fieldOf w1 0 50 = c.pc.toNat ∧ fieldOf w1 50 14 = c.grant % 2 ^ 14 ∧ fieldOf w2 0 32 = 0 ∧ fieldOf w2 32 32 = fieldOf (c.crGet 0x10B) 0 32

/-- Boundaries that never decrease, up to 65,536 (R365). -/
def BoundsAllowed (vs : List Nat) : Prop := vs.Pairwise (· ≤ ·) ∧ ∀ v ∈ vs, v ≤ 65536

/-- Boundaries that form a tract map (R365). -/
def MapAllowed (xb yb : List Nat) : Prop :=
  xb.length = 17 ∧ yb.length = 272 ∧ BoundsAllowed xb ∧ ∀ c, c < 16 → BoundsAllowed ((yb.drop (17 * c)).take 17)

/-- Whether a request may be admitted with no boundary moved: its wayfarer counts there already; or the tract has room, and a slot for one that comes from
another core (R371). -/
def Admissible (s : State) (r : TractReq) : Prop :=
  let dst := s.wantedTract r
  s.countsIn (s.who r.key) = some dst
    ∨ (s.tractCount dst < fieldOf ((s.coreAt dst).crGet 0x3C2) 0 4 ∧ (dst = s.coreOf r.key ∨ dst = r.key / 16 ∨ s.openSlots dst ≠ []))

/-- A request has been admitted and answered: its wayfarer counts in the tract, and holds a slot there if it is to come from another core (R371). -/
def AdmittedTo (s t : State) (r : TractReq) (dst : Nat) : Prop :=
  t.countsIn (s.who r.key) = some dst ∧ r.key ∈ t.way.answers
    ∧ (t.ctxAt r.key).coordWrite = (s.ctxAt r.key).coordWrite.map (fun w => { w with admitted := true })
    ∧ (dst ≠ s.coreOf r.key → s.tractCount dst < fieldOf ((s.coreAt dst).crGet 0x3C2) 0 4 → (dst = r.key / 16 ∨ s.openSlots dst ≠ []) →
        ∃ p, (p, s.who r.key) ∈ t.way.slots ∧ p / 16 = dst)

/-- The cycles of an anvil command (R50). -/
def anvilClass (c : AnvilCmd) : Nat :=
  match c.op with
  | .lda => 48
  | .ldb => if c.fmt = 13 then 64 else 48
  | .stc => 12 + (1024 * storeBytes c.ty + 63) / 64
  | .zero => 1
  | .smma => (c.k + 2 * kPass c.fa - 1) / (2 * kPass c.fa) + 12
  | _ => (c.k + kPass c.fa - 1) / kPass c.fa + 12

/-- The cycle in which a command that starts now completes: its class later, and for one that chains, the first pass after the last pass of the multiply
before it, 12 cycles before that one completes (R324). -/
def IsEndCycle (s : State) (m : Nat) (c : AnvilCmd) (e : Nat) : Prop :=
  let chained (x : AnvilCmd) : Prop := x ∈ (s.coreAt m).anvil ∧ x.started = true ∧ x.multiplies = true ∧ c.multiplies = true
  s.now + anvilClass c ≤ e ∧ (∀ x, chained x → x.endsAt - 12 + anvilClass c ≤ e)
    ∧ (e = s.now + anvilClass c ∨ ∃ x, chained x ∧ e = x.endsAt - 12 + anvilClass c)

/-- A tile of a core at rest again, READY with no owner. -/
def TileGivenBack (s t : State) (m id : Nat) : Prop :=
  ∀ tl, Sparse.get none (s.coreAt m).tiles id = some tl → Sparse.get none (t.coreAt m).tiles id = some { tl with state := .ready, owner := 0 }

/-- What a load leaves in its slot: the tile's 3,072 bytes from OFF on, and an MX operand's side table; of a tcw operand the 96 values of each of 32
segments, and its scale (R318). -/
def SlotLoaded (s t : State) (m : Nat) (c : AnvilCmd) (tl : Tile) : Prop :=
  let slot := 4096 * (if c.op = .ldb then c.sb else c.sa)
  let byte (a : Nat) : Byte := Sparse.get 0 (t.clusterAt (clusterOf m)).data a
  let loc := tileLoc m tl
  (c.fmt ≠ 13 → (∀ i, i < 3072 → byte (slot + i) = s.readByte (loc + c.off + i))
      ∧ (c.mx = true → ∀ i, i < sideBytes c.fmt c.sparse → byte (slot + 3072 + i) = s.readByte (loc + c.side + i)))
    ∧ (c.fmt = 13 → ∀ n, n < 32 →
        let seg := s.readBytes (loc + c.off + n * segmentBytes c.tadv) (segmentBytes c.tadv)
        (∀ k, k < 96 → byte (slot + 96 * n + k) = BitVec.ofInt 8 (weightValue c.tadv c.tlen (segStream c.tadv seg) k))
          ∧ (byte (slot + 3072 + 2 * n)).toNat + 256 * (byte (slot + 3072 + 2 * n + 1)).toNat = segScale c.tadv seg)

/-- A transfer that has completed (R296, R299): a fill has brought the bytes of its runs into the tile, which it makes READY once it has arrived whole and no
other fill of it is in flight; a drain of one run has stored the tile's bytes there, and the tile is READY once no other drain of it is in flight. -/
def TransferDone (s t : State) (m : Nat) (x : Xfer) (tl : Tile) : Prop :=
  let loc := tileLoc m tl + x.toff
  let others := ∃ y ∈ (s.coreAt m).xfers, ¬ (y.chan = x.chan ∧ y.id = x.id) ∧ y.state = .inFlight ∧ y.holds = true ∧ y.tile = x.tile ∧ y.drain = x.drain
  let arr := min (tl.arr + x.len) (2 ^ 20 - 1)
  let now := Sparse.get none (t.coreAt m).tiles x.tile
  (Unsampled s → x.severed = false →
      (x.drain = false → (s.readRuns x.spans).length = x.len → t.mem = pokeBytes s.mem loc (s.readRuns x.spans))
        ∧ (∀ a, x.drain = true → x.spans = [(a, x.len)] → t.mem = pokeBytes s.mem a (s.readBytes loc x.len)))
    ∧ (x.drain = false →
        ((tl.len ≤ arr ∧ ¬ others ∧ tl.state = .filling) → now = some { tl with arr := arr, state := .ready, owner := 0 })
          ∧ (¬ (tl.len ≤ arr ∧ ¬ others ∧ tl.state = .filling) → now = some { tl with arr := arr }))
    ∧ (x.drain = true →
        ((¬ others ∧ tl.state = .draining) → now = some { tl with state := .ready, owner := 0 })
          ∧ (¬ (¬ others ∧ tl.state = .draining) → now = some tl))

/-- An anvil command that has completed (R318 to R323): a multiply and AZERO have changed the accumulators, ASTC has stored its rows, and a load has filled
its slot; the tile is READY. (AccumulatorValues and StoredValues, in AnvilResults, say what the multiplies and ASTC compute.) -/
def CommandDone (s t : State) (m : Nat) (c : AnvilCmd) : Prop :=
  let x := (s.coreAt m).acc
  let z := (t.coreAt m).acc
  let tile := Sparse.get none (s.coreAt m).tiles c.tile
  (c.multiplies = true → z = (multiply (s.clusterAt (clusterOf m)) c x).1 ∧ (Unsampled s → t.mem = s.mem))
    ∧ (c.op = .zero → t.mem = s.mem ∧ Sparse.get 0 z.count c.acc = 0 ∧ ∀ n,
        let own := c.acc * 1024 ≤ n ∧ n < c.acc * 1024 + 1024
        (own → Sparse.get 0 z.run n = 0 ∧ Sparse.get 0 z.wide n = 0)
          ∧ (¬ own → Sparse.get 0 z.run n = Sparse.get 0 x.run n ∧ Sparse.get 0 z.wide n = Sparse.get 0 x.wide n))
    ∧ (∀ tl, c.op = .stc → tile = some tl → c.n ≤ 32 →
        let out := storeRows c c.fa x
        let loc := tileLoc m tl
        z = out.1 ∧ TileGivenBack s t m c.tile ∧ (∀ r ∈ out.2.1, t.readBytes (loc + r.1) r.2.length = r.2)
          ∧ ∀ a, (∀ r ∈ out.2.1, a < loc + r.1 ∨ loc + r.1 + r.2.length ≤ a) → t.readByte a = s.readByte a)
    ∧ (∀ tl, (c.op = .lda ∨ c.op = .ldb) → tile = some tl → t.mem = s.mem ∧ TileGivenBack s t m c.tile ∧ SlotLoaded s t m c tl)

/-- No item leaves on the line of a send: a port, or a half of a split one, puts out one at a time (R349). -/
def LineFree (s : State) (f : FhItem) : Prop :=
  ∀ p ∈ s.core, ∀ g ∈ p.2.fh, g.state = .sending → g.isSend = true → ¬ (g.fields.port = f.fields.port ∧ g.fields.half = f.fields.half)

/-- A window covers a symbol and PRB of a section received at a time, and has not closed more than 1 ms before it (R347). -/
def Covers (w : FhItem) (f : FhFields) (prb t : Nat) : Prop :=
  let g := w.fields
  w.isSend = false ∧ w.arrived = true ∧ w.gone = false ∧ (w.state = .closed → t < w.closedAt + 1000000)
    ∧ g.port = f.port ∧ g.half = f.half ∧ g.eaxc = f.eaxc ∧ g.frame = f.frame ∧ g.subf = f.subf ∧ g.slot = f.slot
    ∧ g.sym0 ≤ f.sym0 ∧ f.sym0 < g.sym0 + g.nsym ∧ g.prb0 ≤ prb ∧ prb < g.prb0 + g.nprb ∧ (g.mode = 2 ↔ f.mode = 2)

/-- The window that takes a PRB: of those that cover it, the one armed first (R347). -/
def TakenBy (s : State) (f : FhFields) (prb t : Nat) (w : FhItem) : Prop :=
  (∃ p ∈ s.core, w ∈ p.2.fh) ∧ Covers w f prb t ∧ ∀ p ∈ s.core, ∀ v ∈ p.2.fh, Covers v f prb t → v ≠ w → w.order < v.order

/-- A big-endian number. -/
def bigEndian (bs : List Byte) : Nat := bs.foldl (fun n b => 256 * n + b.toNat) 0

/-- Part i of the 24 parts of a PRB as received, as 16 bits, and whether it was clamped: mantissa times 2^exponent, the mantissas one after another from the
most significant bit on (R346, log 29). -/
def prbValue (width : Nat) (bs : List Byte) (i : Nat) : Nat × Bool :=
  if width = 0 then (bigEndian ((bs.drop (2 * i)).take 2), false)
  else
    let mantissa := bigEndian ((bs.drop 1).take (3 * width)) / 2 ^ (width * (23 - i)) % 2 ^ width
    saturateTo true 16 (signedOf width mantissa * 2 ^ ((bs.headD 0).toNat % 16))

/-- Nothing has changed but one counter of a core, which has risen by one. -/
def OnlyCounts (s t : State) (m n : Nat) : Prop := t = s.onCore m fun c => c.crSet n (c.crGet n + 1)

/-- A PRB of mode 0 or 1 with the bytes given has entered its slot of a window: bytes, ARR, the counters, and the close of a window that is full (R346 to
R348). -/
def PrbTaken (s t : State) (w : FhItem) (slot : Nat) (tl : Tile) (bs : List Byte) : Prop :=
  let g := w.fields
  let z := if g.mode = 1 then 64 else 48
  let c := s.coreAt w.core
  let d := t.coreAt w.core
  let loc := tileLoc w.core tl + g.off + slot * z
  let full := g.nsym * g.nprb * z ≤ (w.slots.length + 1) * z
  (g.mode = 1 → t.mem = pokeBytes s.mem loc (bs.take 64) ∧ d.crGet 0x34D = c.crGet 0x34D)
    ∧ (g.mode ≠ 1 → t.mem = pokeBytes s.mem loc ((List.range 24).flatMap fun i => leBytes 2 (prbValue g.width bs i).1)
        ∧ d.crGet 0x34D = c.crGet 0x34D + BitVec.ofNat 64 ((List.range 24).filter fun i => (prbValue g.width bs i).2).length)
    ∧ d.crGet 0x348 = c.crGet 0x348 + 1
    ∧ ItemNow t w.core w.handle (fun f => slot ∈ f.slots)
    ∧ (¬ full → Sparse.get none d.tiles w.tile = some { tl with arr := min (tl.arr + z) (2 ^ 20 - 1) })
    ∧ (full → ItemNow t w.core w.handle (fun f => f.state = .closed ∧ f.closedAt = s.stamp)
        ∧ Sparse.get none d.tiles w.tile = some { tl with arr := min (tl.arr + z) (2 ^ 20 - 1), state := .ready, owner := 0 })

end Sys2Proof.Claims

open Sys2Proof Sys2Proof.Machine Sys2Proof.Claims

/-- Words that the spec prints decode to the instructions it prints beside them: lih g4, 0x3FFFF; jalr g0, 0(g1); the tutorial's bne; vset g10, g8, f32; vpush v3, g9; alda g14, g16; haul g12, g24, g0; spawn g29, g27; wjoin g4, g10, g11; trace g5, g6; cross g11; waita g4, g5, g0. -/
def Obligations.DecodeWords : Prop :=
  decodeWord 0x1643FFFF = .ok (.lih 4 0x3FFFF)
    ∧ decodeWord 0x28008000 = .ok (.jalr 0 1 0)
    ∧ decodeWord 0x1C807FF6 = .ok (.bne 8 0 0x7FF6)
    ∧ decodeWord 0xB8A4000C = .ok (.vset 10 8 12)
    ∧ decodeWord 0xCC01A405 = .ok (.vpush 1 3 9)
    ∧ decodeWord 0x4E0A0740 = .ok (.alda 14 16)
    ∧ decodeWord 0x5000CC00 = .ok (.haul 12 24 0)
    ∧ decodeWord 0x5A01DD80 = .ok (.spawn 29 27)
    ∧ decodeWord 0x5800452C = .ok (.wjoin 4 10 11)
    ∧ decodeWord 0x5C000298 = .ok (.trace 5 6)
    ∧ decodeWord 0x36B00001 = .ok (.cross 11)
    ∧ decodeWord 0x36428000 = .ok (.waita 4 5 0)

/-- For every instruction that has a word, with every operand at every value of its field: the word has 32 bits, and the decoder reads the same instruction from it. So no bit of an operand is dropped, and no two instructions share a word. -/
def Obligations.DecodeEncode : Prop :=
  ∀ (i : Instr) (w : Nat), encode i = some w → w < 2 ^ 32 ∧ decodeWord w = .ok i

/-- Whenever the decoder reads an instruction from a word of 32 bits, encoding that instruction gives exactly that word: no bit of a word that decodes is ignored. -/
def Obligations.EncodeDecode : Prop :=
  ∀ (w : Nat) (i : Instr), w < 2 ^ 32 → decodeWord w = .ok i → encode i = some w

/-- A word of major 0x3F, a word of a major from 0x2F to 0x3E, and a word with CB = 1 of a major below 0x1C or from 0x27 to 0x2E are refused, each under its own name (cases 1 to 3 of R42). -/
def Obligations.ReservedWords : Prop :=
  ∀ w : Nat, w < 2 ^ 32 →
    (w / 2 ^ 25 % 2 ^ 6 = 0x3F → decodeWord w = .error .ill)
      ∧ (0x2F ≤ w / 2 ^ 25 % 2 ^ 6 → w / 2 ^ 25 % 2 ^ 6 ≤ 0x3E → decodeWord w = .error .reservedMajor)
      ∧ (w / 2 ^ 31 = 1 → (w / 2 ^ 25 % 2 ^ 6 < 0x1C ∨ (0x27 ≤ w / 2 ^ 25 % 2 ^ 6 ∧ w / 2 ^ 25 % 2 ^ 6 ≤ 0x2E)) →
          decodeWord w = .error .convoyBit)

/-- When nothing is scheduled from outside and it is the turn of a context that is ready, that no request, hand-over, notice, unread mask or loop position keeps from issuing, and whose word can be fetched (or, in a level that is innermost by construction, is replayed, R135), bears no break bit, reads no register whose result is still on its way (R128) and names no register that a handed level binds (R139): if the word decodes to an instruction i, the step runs i on the state in which its line is in the instruction cache and it begins to issue. Where i would only be held there, the step leaves it held and the turn passes to the next strand of the core. Otherwise a strand that forgoes its turn after a taken branch, or after YIELD (R189), passes it on with i not executed. And otherwise, unless an earlier issue of i took its slot already (R207), the step is i executed on the state in which the context has taken its issue slot, after which the sample records of that issue are written and the result's time is noted. When a result is available rests on log 2, whose turn it is on log 4, and the placing of the word on log 50. -/
def Obligations.StepRunsDecoded : Prop :=
  ∀ (s x : State) (w : W32) (i : Instr),
    s.schedule = [] → s.turn = .issue → s.me.hold = .ready → s.stopsHere = false → s.stopsToMove = false → s.me.notices = [] →
    s.me.unchecked = false → s.me.skips = false →
    Fetches ({ s with turn := .engines } : State) w x →
    x.me.awaited x.now w = none → x.me.boundAway w = false → x.breaksHere = false → decodeWord w.toNat = .ok i →
    let y := x.begin w
    (y.me.waited = true → step s = afterStep (fun t => t.goOn y i) (exec i y))
      ∧ (y.me.waited = false → ∀ t, exec i y = .next t →
          (t.heldBack y.cur = true → step s = .next t.passTurn)
            ∧ (t.heldBack y.cur = false → y.me.forgoes = true →
                step s = .next (y.onMe fun c => { c with forgoes := false }).passTurn)
            ∧ (t.heldBack y.cur = false → y.me.forgoes = false → y.mustYield y.cur = true → step s = .next y.passTurn)
            ∧ (t.heldBack y.cur = false → y.me.forgoes = false → y.mustYield y.cur = false → i ≠ .fetchFault →
                step s = afterStep (fun u => u.issued y i) (exec i y.takeSlot)))

/-- Every instruction of the table and every step of an agent beside the cores, in every state, answers a next state: the machine meets no fault and no refusal of the model. (What an instruction does is said by the claims about it.) -/
def Obligations.NeverStops : Prop := ∀ (i : Instr) (s : State), ∃ t, exec i s = .next t

/-- For every ADD, SUB, AND, OR, XOR, ANDN, SHL, SHR, SRA, ROL, SLT, SLTN, SEQ, MIN, MAX, MINN and MAXN, CLZ, CTZ, POPC, SEXT and ZEXT, in every state and with every operand whose destination is no coordinate register of a wayfarer: the instruction answers the next state in which d has the value of R147, stated in exact arithmetic or bit by bit (a shift or rotate amount is the low six bits of the register; a count is 0 to 64), and control is at the next word. No case traps. -/
def Obligations.AluResults : Prop := Obeys aluRule ∧ Obeys countRule

/-- MUL, MULH and MULHN give the low or high half of the exact product; DIV, DIVN, REM and REMN give quotient and remainder truncated toward zero; by zero the quotient is all ones and the remainder is g[a]; −2^63 by −1 gives −2^63 and 0. None traps. A remainder satisfies g[a] = quotient × g[b] + remainder modulo 2^64, signed and unsigned. -/
def Obligations.MulDivResults : Prop :=
  Obeys mulDivRule
    ∧ ∀ a b : W64, divS a b * b + remS a b = a ∧ divU a b * b + remU a b = a

/-- ADDI, ANDI, ORI, XORI, SLTI and SLTNI with a sign-extended 15-bit immediate, SHLI, SHRI, SRAI and ROLI with an amount of 0 to 63, LIH with 20 bits shifted left by 15, and ADDPC with a byte offset from its own word answer the next state in which d has the value of their rule and control is at the next word, in every state whose destination is no coordinate register of a wayfarer. -/
def Obligations.ImmediateResults : Prop := Obeys immRule

/-- After any of the instructions of AluResults, MulDivResults and ImmediateResults (destination no coordinate register): all of memory, every other context, every core, the scheduler and every engine are as before; of the issuing context every register but d and the bound targets of loop passes that end is as before, and so are its control registers, its flags among them, its vector registers, masks, accumulators and queue; and where no pass of the innermost active level ends at the next word, control is at pc + 4, the levels and the rotation base are as before, and every register but d is as before, targets included. -/
def Obligations.RegisterFrame : Prop :=
  ∀ (i : Instr) (s : State) (d : BitVec 5) (p : W64 → Prop),
    (aluRule i s = some (d, p) ∨ countRule i s = some (d, p) ∨ mulDivRule i s = some (d, p) ∨ immRule i s = some (d, p)) →
    s.coordDest d = false →
    Does i s fun t =>
      OnlyMe s t ∧ s.me.Wrote t.me [d.toNat]
        ∧ (staysAt s.me (s.me.pc + 4) →
            t.me.pc = s.me.pc + 4 ∧ t.me.levels = s.me.levels ∧ t.me.rb = s.me.rb
              ∧ ∀ r : BitVec 5, r ≠ d → t.rd r = s.rd r)

/-- In every state g0 reads 0 and writing it changes nothing; writing any other register makes that register read the value and leaves the others as they were; and an instruction of AluResults, MulDivResults or ImmediateResults with destination g0 answers the state in which control is at the next word and nothing else has changed. -/
def Obligations.RegisterFile : Prop :=
  (∀ s : State, s.rd 0 = 0)
    ∧ (∀ (c : Ctx) (v : W64), c.wr 0 v = c)
    ∧ (∀ (c : Ctx) (r q : Nat) (v : W64), r ≠ 0 → (c.wr r v).rd q = if q = r then v else c.rd q)
    ∧ ∀ (i : Instr) (s : State) (p : W64 → Prop),
        (aluRule i s = some (0, p) ∨ countRule i s = some (0, p) ∨ mulDivRule i s = some (0, p) ∨ immRule i s = some (0, p)) →
        s.coordDest 0 = false → Does i s fun t => OnlyMe s t ∧ t.me = s.me.advance

/-- BEQ, BNE, BLT, BGE, BLTN and BGEN, in every state: while convoys are queued and an operand was last written by a synchronising instruction, the branch is held where it is and nothing else changes (what it waits for is noted for R387). Otherwise, when the condition of R155 does not hold, control goes to the next word; when it holds and the target pc + 4 × off15 (modulo 2^50) is permitted from here (R158), control goes to the target, and a strand forgoes its next turn (R128); when it holds and the target is not permitted, ILLEGAL traps at the branch with nothing else changed. Where no pass ends at the target, the state after is the state before with pc at the target: no register, flag, level or byte of memory changes. -/
def Obligations.BranchResults : Prop :=
  ∀ (i : Instr) (s : State) (a b : BitVec 5) (taken : Bool) (off : Int) (t : VA),
    branchRule i s = some (a, b, taken, off) → IsTarget s off t →
      (BranchWaits s a b → Does i s fun u => OnlyMe s u ∧ ∃ x, u.me = { s.me with again := true, stall := x })
        ∧ (¬ BranchWaits s a b →
            (taken = false → exec i s = .next s.advance)
              ∧ (taken = true → Permitted s.me t →
                  exec i s = .next (s.leap t) ∧ (isSteward s.cur = false → (s.leap t).me.forgoes = true)
                    ∧ (staysAt s.me t → (s.leap t).me.pc = t ∧ OnlyMe s (s.leap t) ∧ s.me.Wrote (s.leap t).me []
                        ∧ (s.leap t).me.levels = s.me.levels ∧ (s.leap t).me.g = s.me.g))
              ∧ (taken = true → ¬ Permitted s.me t → Traps i s .illegal (s.ir.setWidth 64) s.me.pc))

/-- JAL goes to pc + 4 × off20 and JALR to g[a] + imm15, modulo 2^50, with g[d] := pc + 4, g[a] read first (a strand forgoes its next turn, R128); with d = g0 nothing is written and R158 must permit the target (also from a word of a level that is innermost by construction: DEDUCED, log 55); with d ≠ 0 the word must not lie in a level that is innermost by construction, and d may be no coordinate register of a wayfarer. A JALR target that is no multiple of 4 traps MISALIGN with g[d] and pc unchanged, and what is not permitted traps ILLEGAL. -/
def Obligations.JumpResults : Prop :=
  (∀ (d : BitVec 5) (o : BitVec 20) (s : State) (t : VA), IsTarget s o.toInt t →
      (d = 0 → Permitted s.me t → exec (.jal d o) s = .next (s.leap t))
        ∧ (d = 0 → ¬ Permitted s.me t → Traps (.jal d o) s .illegal (s.ir.setWidth 64) s.me.pc)
        ∧ (d ≠ 0 → s.coordDest d = false → ¬ InInnermost s.me →
            exec (.jal d o) s = .next ((s.wr d ((s.me.pc + 4).setWidth 64)).leap t))
        ∧ (d ≠ 0 → (s.coordDest d = true ∨ InInnermost s.me) → Traps (.jal d o) s .illegal (s.ir.setWidth 64) s.me.pc))
    ∧ ∀ (d a : BitVec 5) (m : BitVec 15) (s : State) (t : VA),
        t.toNat = ((((s.rd a).toNat : Int) + m.toInt) % 2 ^ 50).toNat →
        let allowed : Prop := if d = 0 then Permitted s.me t else s.coordDest d = false ∧ ¬ InInnermost s.me
        (allowed → t.toNat % 4 = 0 → exec (.jalr d a m) s = .next ((s.wr d ((s.me.pc + 4).setWidth 64)).leap t))
          ∧ (allowed → t.toNat % 4 ≠ 0 → Traps (.jalr d a m) s .misalign (BitVec.ofNat 64 t.toNat) s.me.pc)
          ∧ (¬ allowed → Traps (.jalr d a m) s .illegal (s.ir.setWidth 64) s.me.pc)

/-- A loop instruction that R159 or R161 refuses traps ILLEGAL with nothing changed, its pending settings kept. Otherwise (a LOOPM with every convoy drained) the pending settings are taken up and cleared; with no pass to run control goes to the end and no level opens, targets unchanged; and otherwise, unless the vector sequencer takes the body over (it does not where the strand is no vector strand, the body opens a level, or a word of it is scalar, a VSET, has a g destination, cannot be fetched or bears a break bit, or R46 refuses a convoy of it, log 28), a level opens as the new innermost one (LOOPM and an innermost body of the vector strand among these forms), with the trip count read now, the pending settings, pass 0 and the stage count of its tags, and control is at its first word. No register and no byte of memory changes. How a word that cannot be fetched counts is a choice of the model (log 55). -/
def Obligations.LoopOpens : Prop :=
  ∀ (i : Instr) (s : State) (kind : LoopKind) (e : BitVec 12) (n : W64) (mreg : Nat),
    loopForm i s = some (kind, e, n, mreg) →
      let stop : VA := s.me.pc + BitVec.ofNat 50 (4 * e.toNat)
      (LoopRefused s kind e mreg → Traps i s .illegal (s.ir.setWidth 64) s.me.pc)
        ∧ (¬ LoopRefused s kind e mreg → (kind = .masked → s.me.drained = true) →
            let zero : Prop := if kind = .masked then s.me.maskEmpty mreg = true else openPasses s kind e n = 0
            (zero → exec i s = .next (s.setMe (({ s.me with pending := {} } : Ctx).jump stop)))
              ∧ (¬ zero → StaysScalar s kind e n mreg →
                  Does i s fun t =>
                    (∃ l, Opens s kind e n mreg l ∧ t.me.levels = l :: s.me.levels)
                      ∧ t.me.pc = s.me.pc + 4 ∧ t.me.pending = {} ∧ t.me.g = s.me.g ∧ t.me.cr = s.me.cr
                      ∧ t.me.rb = s.me.rb ∧ t.me.queue = s.me.queue ∧ OnlyMe s t))

/-- A LOOP or LOOPS of the vector strand that R161 does not refuse, with at least one pass, whose body is innermost and holds only vector instructions other than VSET and those with a g destination, none with a break bit (their lines are filled now, R385), forming no convoy that R46 refuses, and for which the queue has room: the level enters the queue with one place for each body word, scalar issue goes on at its end, every bound target receives its value plus passes × stride at once, and no level of the scalar pipe opens. -/
def Obligations.LoopHandedOver : Prop :=
  ∀ (i : Instr) (s : State) (kind : LoopKind) (e : BitVec 12) (n : W64) (mreg : Nat) (vs : List (W32 × VInstr)),
    loopForm i s = some (kind, e, n, mreg) → kind ≠ .masked → ¬ LoopRefused s kind e mreg → openPasses s kind e n ≠ 0 →
    s.me.vec = true → InnermostBody s (e.toNat - 1) →
    handedBody (s.bodyWords s.cur (e.toNat - 1) (s.me.pc + 4)) = some vs →
    (∀ j, j < e.toNat - 1 → (s.me.pc + 4).toNat + 4 * j ∉ ((s.fillBody (s.me.pc + 4) (e.toNat - 1)).coreAt s.myCore).breaks) →
    (∀ l, Opens s kind e n mreg l → (s.me.handed l vs).sound s.me.strip.2 s.me.strip.1 = true) →
    s.me.occupancy + (e.toNat - 1) ≤ 16 →
      let stop : VA := s.me.pc + BitVec.ofNat 50 (4 * e.toNat)
      staysAt s.me stop →
        Does i s fun t =>
          (∃ l : SeqLevel, t.me.queue = s.me.queue ++ [.level l] ∧ Opens s kind e n mreg l.lvl
              ∧ l.passes = openPasses s kind e n ∧ l.body.map (fun x => x.1.word) = vs.map (·.1))
            ∧ t.me.pc = stop ∧ t.me.levels = s.me.levels ∧ t.me.pending = {}
            ∧ t.me.rb = (if kind = .staged then s.me.rb + BitVec.ofNat 4 (openPasses s kind e n) else s.me.rb)
            ∧ (∀ r : BitVec 5, r ≠ 0 →
                t.rd r = s.rd r + strideOf s.me.pending.binds r.toNat * BitVec.ofNat 64 (openPasses s kind e n))
            ∧ OnlyMe (s.fillBody (s.me.pc + 4) (e.toNat - 1)) t

/-- When control goes to the end address of the innermost active level (whose end is not its start): every bound target has its stride added (modulo 2^64); for a LOOPS of the vector strand the rotation base goes up by one modulo 16; with a pass left, control is at the level's start with the pass index one higher, and a LOOPM's mask is to be read; with none left the level is gone, and, unless the next level out ends there too, control stands at the end address. When that level does end there, its pass ends in its turn, as if control had just reached it. -/
def Obligations.LoopPassEnds : Prop :=
  ∀ (c : Ctx) (l : Level) (ls : List Level), c.levels = l :: ls → l.start ≠ l.stop →
    let t := c.jump l.stop
    let more : Prop := l.kind = .masked ∨ l.p.toNat + 1 < passesOf l.kind l.n.toNat l.stages
    (more →
        t.pc = l.start ∧ t.levels = { l with p := l.p + 1, checked := l.kind != .masked } :: ls
          ∧ (∀ r, r ≠ 0 → t.rd r = c.rd r + strideOf l.set.binds r)
          ∧ t.rb = (if l.kind = .staged ∧ c.vec = true then c.rb + 1 else c.rb))
      ∧ (¬ more → (∀ m ms, ls = m :: ms → m.stop ≠ l.stop) →
          t.pc = l.stop ∧ t.levels = ls ∧ (∀ r, r ≠ 0 → t.rd r = c.rd r + strideOf l.set.binds r)
            ∧ t.rb = (if l.kind = .staged ∧ c.vec = true then c.rb + 1 else c.rb))
      ∧ (¬ more → ∀ m ms, ls = m :: ms → m.stop = l.stop → m.start ≠ m.stop →
          (m.kind = .masked ∨ m.p.toNat + 1 < passesOf m.kind m.n.toNat m.stages) →
          t.pc = m.start ∧ t.levels = { m with p := m.p + 1, checked := m.kind != .masked } :: ms
            ∧ ∀ r, r ≠ 0 → t.rd r = c.rd r + strideOf l.set.binds r + strideOf m.set.binds r)

/-- In the turn of a context that is ready, that nothing keeps from issuing and that stands at body position q of its innermost active level: where the first mask, the last mask or the stage tag of q says that q does not issue in the pass at hand, the step only moves control on to the next word, after which the turn stays with the context or, where a pass of the level has ended so, may pass on (log 4); where they say that it issues, the context does not skip it. -/
def Obligations.LoopPositions : Prop :=
  ∀ (s : State) (l : Level) (ls : List Level), s.me.levels = l :: ls → InBody l s.me.pc →
    let q := (s.me.pc.toNat - l.start.toNat) / 4
    (PositionIssues l q → s.me.skips = false)
      ∧ (¬ PositionIssues l q → s.schedule = [] → s.turn = .issue → s.me.hold = .ready → s.stopsHere = false → s.stopsToMove = false →
          s.me.notices = [] → s.me.unchecked = false →
          (step s = .next s.advance ∨ step s = .next s.advance.passTurn)
            ∧ (staysAt s.me (s.me.pc + 4) → s.me.pc.toNat + 4 < 2 ^ 50 → step s = .next s.advance))

/-- LSTG sets the pending tags to g[a][47:0]; LSTR adds the binding of a to the stride g[b] read now, and traps ILLEGAL with two bindings pending, with a = g0, and where a is bound already; LMASK sets the pending masks to the low 16 bits of g[a] and g[b]; LIDX gives d the pass index of the level k places out, and traps ILLEGAL where there is none; LBRK leaves the innermost level at once (both name the levels of the scalar pipe only, DESIGN CHOICE, log 55) for its end, with no stride added, when a is g0 or g[a] is not 0, goes to the next word otherwise, and traps ILLEGAL with no active level. -/
def Obligations.LoopSettingsForms : Prop :=
  ∀ s : State,
    (∀ a, exec (.lstg a) s
        = .next (s.setMe ({ s.me with pending := { s.me.pending with tags := (s.rd a).setWidth 48 } } : Ctx).advance))
      ∧ (∀ a b, s.coordDest a = false →
          ((2 ≤ s.me.pending.binds.length ∨ a = 0 ∨ a ∈ s.me.pending.binds.map (·.1)) →
              Traps (.lstr a b) s .illegal (s.ir.setWidth 64) s.me.pc)
            ∧ (s.me.pending.binds.length < 2 → a ≠ 0 → a ∉ s.me.pending.binds.map (·.1) →
                exec (.lstr a b) s = .next (s.setMe
                  ({ s.me with pending := { s.me.pending with binds := s.me.pending.binds ++ [(a, s.rd b)] } } : Ctx).advance)))
      ∧ (∀ a b, exec (.lmask a b) s = .next (s.setMe
          ({ s.me with pending := { s.me.pending with first := (s.rd a).setWidth 16, last := (s.rd b).setWidth 16 } } : Ctx).advance))
      ∧ (∀ d k, s.coordDest d = false →
          (∀ l, s.me.levels[k.toNat]? = some l → Gives (.lidx d k) s d l.p)
            ∧ (s.me.levels.length ≤ k.toNat → Traps (.lidx d k) s .illegal (s.ir.setWidth 64) s.me.pc))
      ∧ ∀ a, (s.me.levels = [] → Traps (.lbrk a) s .illegal (s.ir.setWidth 64) s.me.pc)
          ∧ ∀ l ls, s.me.levels = l :: ls →
              ((a = 0 ∨ s.rd a ≠ 0) →
                  exec (.lbrk a) s = .next (s.setMe (({ s.me with levels := ls } : Ctx).jump l.stop))
                    ∧ ((∀ m ms, ls = m :: ms → m.stop ≠ l.stop) →
                        (({ s.me with levels := ls } : Ctx).jump l.stop).pc = l.stop
                          ∧ (({ s.me with levels := ls } : Ctx).jump l.stop).g = s.me.g))
                ∧ (a ≠ 0 → s.rd a = 0 → exec (.lbrk a) s = .next s.advance)

/-- Where R53 names no trap, every convoy has drained or the context is a steward, and a steward names no register of a strand whose convoy is running, the strand in %tslot or, by %vdlen, the core's vector strand (R129): CRRD gives d the register; CRWR writes g[a]; CRSET and CRCLR write the old value with the bits of g[a] set or cleared and give d the old value. Control goes to the next word. (What a register reads and keeps is CrKeeps.) -/
def Obligations.CrForms : Prop :=
  ∀ (d a : BitVec 5) (n : BitVec 12) (s : State), s.coordDest d = false → (s.me.drained = true ∨ isSteward s.cur = true) →
    (isSteward s.cur = true → ∀ k, (s.crStrand s.cur = some k ∨ s.vectorStrand s.myCore = some k) → (s.ctxAt k).running = none) →
    let old := s.crRead s.cur n.toNat
    (crTrap (isSteward s.cur) s.me.vec n.toNat false = none → exec (.crrd d n) s = .next (crGiven s d n old))
      ∧ (crTrap (isSteward s.cur) s.me.vec n.toNat true = none →
          exec (.crwr a n) s = .next (s.crWrite s.cur n.toNat (s.rd a)).advance
            ∧ exec (.crset d a n) s = .next (crGiven (s.crWrite s.cur n.toNat (old ||| s.rd a)) d n old)
            ∧ exec (.crclr d a n) s = .next (crGiven (s.crWrite s.cur n.toNat (old &&& ~~~(s.rd a))) d n old))

/-- From a strand, a CR instruction on a number that is not assigned traps ILLEGAL, from 0x800 on too (R53's first row, which R43 ranks above PRIV); on an assigned number from 0x800 on it traps PRIV; on one of the vector or anvil range from a strand that is not the vector strand, and, for CRWR, CRSET and CRCLR, on a register that R53 lists as read-only, it traps ILLEGAL, even where g[a] is 0; each at its own word with nothing changed. A steward's CR instruction on an assigned number meets no trap, and has its effect (CrForms). -/
def Obligations.CrTraps : Prop :=
  ∀ (i : Instr) (d a : BitVec 5) (n : BitVec 12) (s : State), s.coordDest d = false →
    (i = .crrd d n ∨ i = .crwr a n ∨ i = .crset d a n ∨ i = .crclr d a n) →
      (isSteward s.cur = false → 0x800 ≤ n.toNat → crAssigned n.toNat = true → Traps i s .priv (s.ir.setWidth 64) s.me.pc)
        ∧ (isSteward s.cur = false →
            (crAssigned n.toNat = false ∨ (0x600 ≤ n.toNat ∧ n.toNat < 0x800) ∨ (0x100 ≤ n.toNat ∧ n.toNat ≤ 0x27F ∧ s.me.vec = false)
              ∨ (i ≠ .crrd d n ∧ readOnlyToStrands n.toNat)) →
            Traps i s .illegal (s.ir.setWidth 64) s.me.pc)
        ∧ (isSteward s.cur = true → crAssigned n.toNat = true →
            crTrap (isSteward s.cur) s.me.vec n.toNat false = none ∧ crTrap (isSteward s.cur) s.me.vec n.toNat true = none)

/-- For each register that a strand writes and that keeps what is written: after a write of v, each field of its map reads v's bits where the map assigns them and its old bits otherwise (for the FMT fields of %afa and %afb as for %vqfmt: log 31, DEDUCED and unsafe); every other bit, being reserved, reads 0; and every other register below 0x800 reads as before. -/
def Obligations.CrKeeps : Prop :=
  ∀ (s : State) (k : Nat) (v : W64) (n : Nat) (fs : List (Nat × Nat × (Nat → Prop))),
    isSteward k = false → (n, fs) ∈ strandRegisters →
      let t := s.crWrite k n v
      (∀ f ∈ fs, (f.2.2 (fieldOf v f.1 f.2.1) → fieldOf (t.crRead k n) f.1 f.2.1 = fieldOf v f.1 f.2.1)
          ∧ (¬ f.2.2 (fieldOf v f.1 f.2.1) → fieldOf (t.crRead k n) f.1 f.2.1 = fieldOf (s.crRead k n) f.1 f.2.1))
        ∧ (∀ j, (∀ f ∈ fs, j < f.1 ∨ f.1 + f.2.1 ≤ j) → (t.crRead k n).getLsbD j = false)
        ∧ ∀ q, q ≠ n → q < 0x800 → t.crRead k q = s.crRead k q

/-- LD and LDN of n = 1, 2, 4 or 8 bytes (LDN of 8 is no instruction, and traps ILLEGAL) at va = g[base] + imm9 × n modulo 2^50: where the access is checked, waits for no vector access and does not migrate its strand, the next state has in d the n bytes at the place va translates to, little-endian, sign-extended by LD and zero-extended by LDN, and control is at the next word. The state in which it performs differs from the one before only in what translation, the predictor, the home caches, the mesh and the counters change (log 3, log 20), and where no core samples its counters, no byte of memory differs from what translation left. -/
def Obligations.Loads : Prop :=
  (∀ (d b : BitVec 5) (c : BitVec 4) (m : BitVec 9) (s : State), Traps (.ldn d b c 3 m) s .illegal (s.ir.setWidth 64) s.me.pc)
    ∧ ∀ (i : Instr) (signed : Bool) (d b : BitVec 5) (c : BitVec 4) (z : BitVec 2) (m : BitVec 9) (s s2 : State) (va : Nat) (p : Place),
        (i = .ld d b c z m ∧ signed = true ∨ i = .ldn d b c z m ∧ signed = false ∧ z ≠ 3) →
        IsMemAddress s b m (2 ^ z.toNat) va → s.coordDest d = false → Goes s va (2 ^ z.toNat) c.toNat .read p s2 →
          (∃ v : W64, (if signed then v.toInt = signedBytes (bytesAt s2 p.loc (2 ^ z.toNat)) (2 ^ z.toNat)
                else v.toNat = bytesAt s2 p.loc (2 ^ z.toNat)) ∧ exec i s = .next (s2.wr d v).advance)
            ∧ OnlyReached s s2
            ∧ (Unsampled s → ∀ s1, s.access va (2 ^ z.toNat) (2 ^ z.toNat) .read = .ok (p, s1) → s2.mem = s1.mem)

/-- ST of n = 1, 2, 4 or 8 bytes at va = g[base] + imm9 × n modulo 2^50: where the access is checked, waits for no vector access and does not migrate its strand, the next state has the low n bytes of g[s], little-endian, at the place va translates to (zeros for g0), every other byte as it was when the store performs, and control at the next word; no register changes but the bound targets of a pass that ends. -/
def Obligations.Stores : Prop :=
  ∀ (r b : BitVec 5) (c : BitVec 4) (z : BitVec 2) (m : BitVec 9) (s s2 : State) (va : Nat) (p : Place),
    IsMemAddress s b m (2 ^ z.toNat) va → Goes s va (2 ^ z.toNat) c.toNat .write p s2 →
      Does (.st r b c z m) s (fun t =>
          (∀ j, j < 2 ^ z.toNat → (t.readByte (p.loc + j)).toNat = (s.rd r).toNat / 256 ^ j % 256)
            ∧ KeepsMemoryBut s2 t p.loc (2 ^ z.toNat)
            ∧ t.me = s2.me.advance ∧ (∀ k, k ≠ s.cur → t.ctxAt k = s2.ctxAt k) ∧ t.core = s2.core ∧ t.sched = s2.sched)
        ∧ OnlyReached s s2
        ∧ (Unsampled s → ∀ s1, s.access va (2 ^ z.toNat) (2 ^ z.toNat) .write = .ok (p, s1) → s2.mem = s1.mem)

/-- AMOADD, AMOAND, AMOOR, AMOXOR, AMOMIN, AMOMAX, AMOMINN, AMOMAXN, AMOSWP, AMOCAS and ARRIVE at va = g[a] modulo 2^50: where the access is checked (translated for a write) and no vector access holds it back, d receives the double-word found there, and the double-word becomes what R172 and R173 give from it, g[d] and g[b]; every other byte is as it was when the access performs; a strand parked on the line is woken by every operation but an AMOCAS that fails. -/
def Obligations.Atomics : Prop :=
  ∀ (i : Instr) (d a b : BitVec 5) (c : BitVec 4) (o : BitVec 2) (carried : Bool) (s s2 : State) (p : Place),
    amoForm i = some (d, a, b, c, o, carried) → s.coordDest d = false →
    AmoGoes s ((s.rd a).toNat % 2 ^ 50) c.toNat o carried p s2 →
      ∃ old : W64, old.toNat = bytesAt s2 p.loc 8
        ∧ (∃ new s3, AmoNew i old (s.rd d) (s.rd b) new ∧ exec i s = .next (s3.wr d old).advance
            ∧ bytesAt s3 p.loc 8 = new.toNat ∧ KeepsMemoryBut s2 s3 p.loc 8
            ∧ s3.ctx = s2.ctx ∧ s3.core = s2.core ∧ s3.sched = s2.sched
            ∧ (i = .amocas d a b c o → old ≠ s.rd d → s3 = s2)
            ∧ ((i ≠ .amocas d a b c o ∨ old = s.rd d) →
                s3.notices.length = s2.notices.length + (s2.parks.filter fun q => onLine q.loc p.loc 8).length))
        ∧ OnlyReached s s2

/-- LD, LDN, ST, the atomics and WAITA (destination no coordinate register): an address that is no multiple of the access size traps MISALIGN with the address; otherwise an address that does not translate traps the PAGE or PROT that translation gives; a load or store that a watchpoint of its core covers traps WATCH; each with nothing performed and no register changed (TrapEntry). -/
def Obligations.MemoryTraps : Prop :=
  ∀ (i : Instr) (s : State) (va n : Nat), alignForm i s = some (va, n) →
    (∀ d a b c o x, amoForm i = some (d, a, b, c, o, x) → s.coordDest d = false) → (∀ d a b, i = .waita d a b → s.coordDest d = false) →
      let acc : Acc := if (amoForm i).isSome then .write else match i with | .st .. => .write | _ => .read
      (va % n ≠ 0 → Traps i s .misalign (BitVec.ofNat 64 va) s.me.pc)
        ∧ (va % n = 0 → ∀ e, s.resolve s.cur va acc = .error e → Traps i s e (BitVec.ofNat 64 va) s.me.pc)
        ∧ (va % n = 0 → (amoForm i).isSome = false → (∀ d a b, i ≠ .waita d a b) → ∀ r, s.resolve s.cur va acc = .ok r →
            s.watched s.cur va n acc = true → Traps i s .watch (BitVec.ofNat 64 va) s.me.pc)

/-- An access through the page tables of a context, with the table root's base. Base 0 is PAGE. The leaf is the one of the core's translation cache, where it holds one that covers the address under this root (log 7), and otherwise the one that the walk of R100 comes to from the base: each level's entry at the table's address and 8 times that level's bits of the address, valid and with its reserved bits 0, down to the first leaf, whose own address is aligned to its page. A walk that comes to none is PAGE. With the leaf, the place is its address with the page's offset; an address that is unpopulated is PAGE; and U for a strand, W for a write, X for a fetch and the locked carve-out are checked, PROT otherwise; where none refuses, the access has its place, scalar-cacheable where the leaf says so and it lies in LPDDR-6. What changes: a leaf that was walked to has A set in memory and, on a write, D (in the leaf only: log 7); a cached one has D set there on a write if it did not have it and the entry is still what was cached; no other byte of memory differs. Beside that only the translation cache, the walker's messages and their counters and the wake notices of a table's line change. -/
def Obligations.Translation : Prop :=
  ∀ (s : State) (core : Nat) (root : W64) (steward : Bool) (va : Nat) (acc : Acc),
    let base := fieldOf root 18 30 * 2 ^ 18
    (base = 0 → s.translate core root steward va acc = .error .page)
      ∧ (base ≠ 0 → s.cached core base va = none → (¬ ∃ r, WalksTo s va 3 base r) → s.translate core root steward va acc = .error .page)
      ∧ ∀ l a e, base ≠ 0 → LeafOf s core base va l a e →
          let pa := e / 2 ^ 12 % 2 ^ 36 * 2 ^ 12 + va % 2 ^ pageBits l
          (∀ c, LeafRefuses s steward acc e pa c → s.translate core root steward va acc = .error c)
            ∧ ((∀ c, ¬ LeafRefuses s steward acc e pa c) →
                ∃ (p : Place) (t : State), s.translate core root steward va acc = .ok (p, t)
                  ∧ p.loc = pa ∧ p.global = true ∧ (p.cacheable = true ↔ e.testBit 5 = true ∧ pa < 0x6000000000)
                  ∧ (∀ x, x < a ∨ a + 8 ≤ x → t.readByte x = s.readByte x)
                  ∧ (s.cached core base va = none → ∀ j, (bytesAt t a 8).testBit j =
                      (e.testBit j || decide (j = 6) || (decide (j = 7) && decide (acc = .write))))
                  ∧ (s.cached core base va ≠ none →
                      (acc = .write ∧ e.testBit 7 = false ∧ bytesAt s a 8 = e → bytesAt t a 8 = e + 2 ^ 7)
                        ∧ (¬ (acc = .write ∧ e.testBit 7 = false ∧ bytesAt s a 8 = e) → t.mem = s.mem))
                  ∧ t.ctx = s.ctx ∧ t.cur = s.cur ∧ t.sched = s.sched ∧ t.dev = s.dev ∧ t.cluster = s.cluster ∧ t.way = s.way
                  ∧ t.coding = s.coding ∧ (∀ m, m ≠ core → t.coreAt m = s.coreAt m)
                  ∧ (∃ tlb cr n, t.coreAt core = { s.coreAt core with tlb := tlb, cr := cr, nflit := n })
                  ∧ ∀ n, n ≠ 0x300 → (t.coreAt core).crGet n = (s.coreAt core).crGet n)

/-- FENCE with scope 5 to 7 or an empty mask is no instruction and traps ILLEGAL; with no queued vector access of a masked class, lane-private ones among them (the push family counts as every class), it only goes on to the next word, the scalar accesses before it having performed when they issued (log 3); where one has still to run, as a member of the queue or of a pass to come, it is held and changes no register. WAITA, where its double-word is checked and no vector access holds it back, gives d the double-word when it differs from g[b], and otherwise parks the strand on it, held, to return d once it differs (log 44: the model's table of parked strands is never full). -/
def Obligations.FenceAndWaita : Prop :=
  (∀ (sc : BitVec 3) (mask : BitVec 16) (s : State),
      ((5 ≤ sc.toNat ∨ mask = 0) → Traps (.fence sc mask) s .illegal (s.ir.setWidth 64) s.me.pc)
        ∧ (sc.toNat < 5 → mask ≠ 0 →
            ((∀ e ∈ s.me.entries, ¬ FencedBy mask e) → exec (.fence sc mask) s = .next s.advance)
              ∧ ((∃ e, StillRuns s.me e ∧ FencedBy mask e) → Does (.fence sc mask) s (Held s))))
    ∧ ∀ (d a b : BitVec 5) (s s1 : State) (p : Place), s.coordDest d = false →
        s.waitPlace ((s.rd a).toNat % 2 ^ 50) = .ok (p, s1) → s1.orderedAfter 16 p.loc 8 = none →
          let s2 := s1.reach s1.cur p false
          OnlyReached s s2
            ∧ ∃ v : W64, v.toNat = bytesAt s2 p.loc 8
              ∧ (v ≠ s.rd b → exec (.waita d a b) s = .next (s2.wr d v).advance)
              ∧ (v = s.rd b → Does (.waita d a b) s fun t =>
                  t.me.hold = .waita ∧ t.me.pc = s.me.pc ∧ t.me.g = s.me.g ∧ t.mem = s2.mem
                    ∧ t.parks = s2.parks ++ [{ key := s.cur, loc := p.loc, cmp := s.rd b, seen := v, d := d.toNat }])

/-- From a strand whose crew holds no crossing, and from a steward, the four forms trap ILLEGAL. Otherwise: CROSS arrives in the current phase and waits on it, CROSSA arrives and returns that phase, and either is held first while an earlier arrival in the current phase stands; CROSSW returns at once when its phase has been released, waits when its phase is the current one and the strand has arrived in it, and returns NA otherwise; a wait returns T when it has timed out, and otherwise its phase once that is released; CROSSP returns one bit for each of 64 cores, which is 0 where a member there has not arrived, and 1 where all have, none of them within the last 12 cycles. -/
def Obligations.Crossings : Prop :=
  ∀ (d a : BitVec 5) (s : State), s.coordDest d = false →
    let q : BitVec 32 := (s.rd a).setWidth 32
    ((∀ j, ¬ HoldsCrossing s j) → ∀ i, (i = .cross d ∨ i = .crossa d ∨ i = .crossw d a ∨ i = .crossp d a) →
        Traps i s .illegal (s.ir.setWidth 64) s.me.pc)
      ∧ ∀ j, HoldsCrossing s j →
          (∀ i ph, (i = .cross d ∨ i = .crossw d a) → s.me.crossPhase = some (ph, s.me.pc) →
              (PhaseReleased j.phase ph → s.me.expired = false → ∃ v, IsCrossWord v false false ph ∧ Gives i s d v)
                ∧ (s.me.expired = true → ∃ v, IsCrossWord v true false ph ∧ Gives i s d v)
                ∧ (¬ PhaseReleased j.phase ph → s.me.expired = false → Does i s fun t => WaitsOnPhase s t ph))
            ∧ ((∀ ph, s.me.crossPhase ≠ some (ph, s.me.pc)) →
                (s.cur ∈ j.arrived → Does (.cross d) s (Held s))
                  ∧ (s.cur ∉ j.arrived → s.anyVectorMemory = none →
                      Does (.cross d) s fun t => WaitsOnPhase s t j.phase ∧ Arrives s t j)
                  ∧ (PhaseReleased j.phase q → ∃ v, IsCrossWord v false false q ∧ Gives (.crossw d a) s d v)
                  ∧ (q = j.phase → s.cur ∈ j.arrived → Does (.crossw d a) s fun t => WaitsOnPhase s t q)
                  ∧ (¬ PhaseReleased j.phase q → (q ≠ j.phase ∨ s.cur ∉ j.arrived) →
                      ∃ v, IsCrossWord v false true q ∧ Gives (.crossw d a) s d v))
            ∧ (s.cur ∈ j.arrived → Does (.crossa d) s (Held s))
            ∧ (s.cur ∉ j.arrived → s.anyVectorMemory = none →
                ∃ (v : W64) (u : State), IsCrossWord v false false j.phase ∧ Arrives s u j ∧ u.ctx = s.ctx ∧ u.mem = s.mem
                  ∧ exec (.crossa d) s = .next (u.wr d v).advance)
            ∧ ∃ (v : W64) (u : State), u.mem = s.mem ∧ u.ctx = s.ctx ∧ u.sched = s.sched ∧ exec (.crossp d a) s = .next (u.wr d v).advance
                ∧ ∀ n, n < 64 →
                    let here (k : Nat) : Prop := k ∈ j.live ∧ s.coreOf k = 64 * ((s.rd a).toNat % 4) + n
                    ((∃ k, here k ∧ k ∉ j.arrived) → v.getLsbD n = false)
                      ∧ ((∀ k, here k → k ∈ j.arrived ∧ Sparse.get 0 j.arrivedAt k + 12 ≤ s.now) → v.getLsbD n = true)

/-- A trap of a strand stops it: it is held with its registers, flags, levels and memory as they are, its open convoy closed, and the count of a crossing it waits at stands still (R185). Where the core's steward services no other trap, the trap state registers receive the cause, the restart PC, the value, the slot and the steward's own PC (and for a vector trap the vector restart point and the queue entries), and the steward goes to %tvec.BASE + 64 × CODE; where it does, the trap joins the waiting ones, the steward and the trap state registers as they were. For PAGE and PROT the walk that met it has read its entries, and its messages are counted (log 20). A trap of a steward fences its core. -/
def Obligations.TrapEntry : Prop :=
  ∀ (s : State) (t : PendingTrap),
    (isSteward t.key = false →
        let m := s.coreOf t.key
        let u := s.raise t
        u.ctxAt t.key = { s.ctxAt t.key with
            hold := .trapped, open_ := false, again := false, waited := false, captured := t.queue, trapSet := (s.ctxAt t.key).settings
            since := if (s.ctxAt t.key).crossPhase = none then (s.ctxAt t.key).since else s.now - (s.ctxAt t.key).since }
          ∧ (∀ k, k ≠ t.key → k ≠ 4096 + m → u.ctxAt k = s.ctxAt k)
          ∧ (Unsampled s → u.mem = s.mem)
          ∧ ((s.coreAt m).servicing = false → (s.coreAt m).traps = [] →
              (u.coreAt m).servicing = true ∧ (u.coreAt m).traps = []
                ∧ TrapStateOf (u.coreAt m) t ((s.ctxAt t.key).here % 16) (s.ctxAt (4096 + m)).pc
                ∧ (u.ctxAt (4096 + m)).hold = .ready
                ∧ (u.ctxAt (4096 + m)).pc.toNat
                    = (fieldOf ((s.coreAt m).crGet 0x800) 12 38 * 2 ^ 12 + 64 * causeCode t.cause) % 2 ^ 50)
          ∧ ((s.coreAt m).servicing = true →
              (u.coreAt m).traps = (s.coreAt m).traps ++ [t] ∧ (∀ n, n ≠ 0x300 → (u.coreAt m).crGet n = (s.coreAt m).crGet n)
                ∧ u.ctxAt (4096 + m) = s.ctxAt (4096 + m)))
      ∧ (∀ m, t.key = 4096 + m → FencedCore (s.raise t) m)

/-- NOP only goes on to the next word; YIELD from a strand goes on, and no strand of its core has issued since (R189: StepRunsDecoded says what waits on that); IDLE goes on and is held until it is resumed; TRAP traps SERVICE with g[a] as its value; BKPT traps BREAK with the restart at the word after it; ILL, and a word that is no instruction of the table and no vector word of the vector strand, trap ILLEGAL; ERET from a strand traps PRIV; a word that cannot be fetched traps PAGE or PROT as a fetch fault at its address. END, once the strand's convoys and anvil commands have completed and where no strip stop is set for its slot, frees the strand: it is gone from its slot, holds no lease and parks nowhere, its job no longer counts it, and the job completes with its last strand. TRAP, YIELD, IDLE and END from a steward fence its core. -/
def Obligations.SystemForms : Prop :=
  ∀ s : State,
    exec .nop s = .next s.advance
      ∧ Traps .ill s .illegal (s.ir.setWidth 64) s.me.pc
      ∧ Traps .bkpt s .brk 0 (s.me.pc + 4)
      ∧ (∀ w, (refusesConvoy w.toNat = false ∨ s.me.vec = false ∨ isSteward s.cur = true) →
          Traps (.notAnInstruction w) s .illegal (s.ir.setWidth 64) s.me.pc)
      ∧ (∀ c, s.resolve s.cur s.me.pc.toNat .fetch = .error c → exec .fetchFault s = .next (s.raise
          { key := s.cur, cause := c, fetch := true, tval := s.me.pc.setWidth 64, tepc := s.me.pc }))
      ∧ (isSteward s.cur = false →
          (∀ a, Traps (.trap a) s .service (s.rd a) s.me.pc)
            ∧ exec .yield s = .next (s.setMe { s.me.advance with yielded := some [] })
            ∧ exec .idle s = .next (s.setMe { s.me.advance with hold := .idle })
            ∧ Traps .eret s .priv (s.ir.setWidth 64) s.me.pc
            ∧ (((s.coreAt s.myCore).crGet 0x482).getLsbD (s.me.here % 16) = false → s.me.drained = true →
                (∀ c ∈ (s.coreAt s.myCore).anvil, c.key ≠ s.cur) →
                Does .endStrand s fun t =>
                  t.hasCtx s.cur = false ∧ (t.clusterAt (clusterOf s.myCore)).holder ≠ some s.cur
                    ∧ (∀ p ∈ t.parks, p.key ≠ s.cur)
                    ∧ ∀ x, s.job? s.me.job = some x → ∃ z, t.job? s.me.job = some z
                        ∧ z.live = x.live.filter (· != s.cur)
                        ∧ z.state = (if x.state = .running ∧ x.live.filter (· != s.cur) = [] then .completing else x.state)))
      ∧ (isSteward s.cur = true →
          ∀ i, ((∃ a, i = .trap a) ∨ i = .yield ∨ i = .idle ∨ i = .endStrand) → Does i s fun t => FencedCore t (s.cur - 4096))

/-- ERET of a steward ends the service of the trap in %tslot: the strand there goes on at %tepc, ready to issue (or, where a queue entry that goes back writes a g register, held for it); when %tcause.VEC is set, entries 0 to QN go back to the head of its queue with the words and values of the trap queue registers, the first opening its convoy at %tvpc, and a handed level that was captured whole stays one level (R132, R139); its registers are as the steward left them. Where no other trap is pending the steward services none and goes on at %sepc; where one is, it is delivered (with %sepc kept: log 56). -/
def Obligations.EretReturns : Prop :=
  ∀ (s : State) (m k : Nat), s.cur = 4096 + m → s.strandAt (m * 16 + ((s.coreAt m).crGet 0x805).toNat % 16) = some k →
    staysAt (s.ctxAt k) (((s.coreAt m).crGet 0x803).setWidth 50) →
    Does .eret s fun t =>
      let c := s.ctxAt k
      let cause := (s.coreAt m).crGet 0x802
      (t.ctxAt k).pc = ((s.coreAt m).crGet 0x803).setWidth 50 ∧ (t.ctxAt k).g = c.g ∧ (t.ctxAt k).cr = c.cr
        ∧ (t.ctxAt k).vreg = c.vreg ∧ (t.ctxAt k).levels = c.levels
        ∧ (cause.getLsbD 61 = false → (t.ctxAt k).queue = c.queue ∧ (c.awaitsSync = false → (t.ctxAt k).hold = .ready))
        ∧ (cause.getLsbD 61 = true → (∀ l, .level l ∉ c.captured) → ∃ es : List Entry,
            (t.ctxAt k).queue = es.map .entry ++ c.queue ∧ es.length = fieldOf cause 8 4 + 1 ∧ FromRegisters (s.coreAt m) es)
        ∧ (cause.getLsbD 61 = true → ∀ (fs : List Entry) (l : SeqLevel), c.captured = fs.map .entry ++ [.level l] →
            (∀ e ∈ fs, e.lvl = false) → fs.length + l.body.length = fieldOf cause 8 4 + 1 → ∃ (es : List Entry) (r : SeqLevel),
              (t.ctxAt k).queue = es.map .entry ++ .level r :: c.queue ∧ es.length = fs.length
                ∧ r.lvl = l.lvl ∧ r.passes = l.passes ∧ r.rb0 = l.rb0 ∧ r.body.map (·.2) = l.body.map (·.2)
                ∧ FromRegisters (s.coreAt m) (es ++ r.body.map (·.1)))
        ∧ ((s.coreAt m).traps = [] → staysAt s.me (((s.coreAt m).crGet 0x809).setWidth 50) →
            (t.coreAt m).servicing = false ∧ (t.ctxAt (4096 + m)).pc = ((s.coreAt m).crGet 0x809).setWidth 50)
        ∧ (∀ p ps, (s.coreAt m).traps = p :: ps →
            (t.coreAt m).servicing = true ∧ (t.coreAt m).traps = ps ∧ fieldOf ((t.coreAt m).crGet 0x802) 0 8 = causeCode p.cause)

/-- After reset no strand and no job exists, no memory byte is listed (an unlisted byte reads 0: the model's choice, log 1) and memory has its canonical form, no steward issues until its firmware starts (the model's choices, log 5 and log 6), %stshare is 4 and %waycap 12 on every core, %dtctl.SIZE is 7, %halo is 256, %pbudget 750,000, %prehyst 1,000 and %thrpen 10,000, and the tract map divides the plane in 16 columns and 16 rows of 4,096. A strand that begins has %migth 4, %vqfmt 17, %apromo 2, %aleasemax 64, %tlen 12, %tadv 1, %nearcap 16 and %waywait 4,096, and its other control registers 0. -/
def Obligations.ResetState : Prop :=
  State.reset.mem = [] ∧ Memory.wf State.reset.mem = true ∧ State.reset.ctx = [] ∧ State.reset.sched.jobs = []
    ∧ (∀ m, m < 256 → (State.reset.ctxAt (4096 + m)).hold = .asleep
        ∧ (State.reset.coreAt m).crGet 0x801 = 4 ∧ (State.reset.coreAt m).crGet 0x3C2 = 12
        ∧ fieldOf ((State.reset.coreAt m).crGet 0x484) 0 5 = 7
        ∧ State.reset.crRead (4096 + m) 0x3C3 = 256 ∧ State.reset.crRead (4096 + m) 0x403 = 750000
        ∧ State.reset.crRead (4096 + m) 0x404 = 1000 ∧ State.reset.crRead (4096 + m) 0x405 = 10000)
    ∧ (∀ n, n ≤ 16 → State.reset.way.map.x n = 4096 * n ∧ ∀ c, c < 16 → State.reset.way.map.y c n = 4096 * n)
    ∧ (∀ n v, (n, v) ∈ [(0x030, 4), (0x10C, 17), (0x204, 2), (0x205, 64), (0x280, 12), (0x281, 1), (0x3C4, 16), (0x3C5, 4096)] →
        Sparse.get (0 : W64) crStart n = v)
    ∧ ∀ n, n ∉ [0x030, 0x10C, 0x204, 0x205, 0x280, 0x281, 0x3C4, 0x3C5] → Sparse.get (0 : W64) crStart n = 0

/-- From every state whose memory lists addresses in strictly rising order and no byte that equals what an unlisted address reads as (log 1), every step of the device leaves a memory in that form: so that equal memories are equal data. -/
def Obligations.MemoryStaysCanonical : Prop :=
  ∀ s t : State, Memory.wf s.mem = true → step s = .next t → Memory.wf t.mem = true

/-- Bit b of element j of a vector register, with elements of w = 2, 4, 8, 16, 32 or 64 bits, is bit (w·j + b) mod 8 of byte (w·j + b) / 8 of the register; writing element j (a number below 2^w) makes that element read the number and leaves every other bit of every vector register as it was. Writing bit j of a mask register leaves every other bit of every mask register as it was. Setting LEN to n makes the bytes from n on read 0 and leaves the others. -/
def Obligations.ElementStorage : Prop :=
  (∀ (c : Ctx) (r w j : Nat), w ∈ [2, 4, 8, 16, 32, 64] → j * w + w ≤ 16384 →
      (∀ b, b < w → (c.vraw r w j).testBit b = (c.vbyte r ((w * j + b) / 8)).getLsbD ((w * j + b) % 8))
        ∧ c.vraw r w j < 2 ^ w
        ∧ ∀ v, v < 2 ^ w →
            (c.vput r w j v).vraw r w j = v
              ∧ ∀ q n, n < 16384 → (q ≠ r ∨ n < w * j ∨ w * j + w ≤ n) →
                  ((c.vput r w j v).vbyte q (n / 8)).getLsbD (n % 8) = (c.vbyte q (n / 8)).getLsbD (n % 8))
    ∧ (∀ (c : Ctx) (r j : Nat) (b : Bool), j < 8192 →
        ∀ q n, n < 8192 → (c.setMbit r j b).mbit q n = if q = r ∧ n = j then b else c.mbit q n)
    ∧ ∀ (c : Ctx) (r n : Nat), n ≤ 2048 →
        (c.setLen r n).lenOf r = n ∧ ∀ q b, b < 2048 → (c.setLen r n).vbyte q b = if q = r ∧ n ≤ b then 0 else c.vbyte q b

/-- Every VINT instruction, run in a convoy of its own, gives each active element the value its rule states in exact integer arithmetic (wrapped, saturated with SAT, widened, narrowed, or compared), keeps the other elements below VL, sets LEN, %vdirty, the flags and, with x = 1, the exception mask as the rules say, and leaves every other vector and mask register, the general registers, the accumulators and memory as they were. -/
def Obligations.VintResults : Prop :=
  ∀ (i : Instr) (s : State) (v : VInstr) (g : Nat → Nat → Nat → Nat → Nat × Bool),
    opOf i = some v → intWant i = some g → VReady s v → Untrapped s v →
      let c := s.me
      let m := memberOf c v
      let w := typeWidth (tyOf c)
      let sh := intShape i w
      let f (j : Nat) : Nat × Flags :=
        let r := g w (c.vraw m.a sh.1 j) (c.vraw m.b sh.2.1 j) (c.vraw m.d sh.2.2 j)
        (r.1, if r.2 then 0x20 else 0)
      if intCompares i then Compares i s m (ActiveIn c m) fun j => ((f j).1 != 0, (f j).2)
      else Computes i s m (ActiveIn c m) sh.2.2 f

/-- Every VFP and VCPLX instruction, run in a convoy of its own, applies its operation to each active element (to each part of a complex one for VFADD, VFSUB and VFNEG), with the rounding mode of its place; VCINV2 works on matrices of four elements, active when the first of the four is, and VGJP on a pivot and a row element, both with %sngthr and %sngreg of their place (where %sngreg is a number). Flags, LEN, %vdirty, exception mask and frame are as for VintResults. (FloatValues says what the operations give, of a complex element as well.) -/
def Obligations.VfpVcplxResults : Prop :=
  ∀ (i : Instr) (s : State) (v : VInstr), opOf i = some v → VReady s v → Untrapped s v →
    let c := s.me
    let m := memberOf c v
    let ty := tyOf c
    let w := typeWidth ty
    let fm := fmtOf (partTy ty)
    let thr := fmtF32.decode (fieldOf (c.crGet 0x107) 0 32)
    let reg := fmtF32.decode (fieldOf (c.crGet 0x108) 0 32)
    (∀ o, fpWant i = some o →
        let f (j : Nat) : Nat × Flags :=
          onParts (partCount ty) (partWidth ty) (fpOp o fm (modeOf c)) (c.vraw m.a w j) (c.vraw m.b w j) (c.vraw m.d w j)
        if o.compares then Compares i s m (ActiveIn c m) fun j => ((f j).1 != 0, (f j).2)
        else Computes i s m (ActiveIn c m) w f)
      ∧ (∀ o, cxWant i = some o → Computes i s m (ActiveIn c m) w fun j =>
          cxOp o fm (modeOf c) (w / 2) m.b (c.vraw m.a w j) (c.vraw m.b w j) (c.vraw m.d w j))
      ∧ ((∃ a b d k x, i = .vcinv2 a b d k x) → notFinite reg = false →
          Computes i s m (fun j => j < vlOf c ∧ ActiveIn c m (j / 4 * 4)) w fun j =>
            let e (n : Nat) : Cx := cxDecode fm (w / 2) (c.vraw m.a w (j / 4 * 4 + n))
            (cxInv2 fm (modeOf c) (w / 2) thr reg (fun _ => 0) (e 0) (e 1) (e 2) (e 3)).getD (j % 4) (0, 0))
      ∧ ((∃ a b d k x y, i = .vgjp a b d k x y) → notFinite reg = false →
          Computes i s m (ActiveIn c m) w fun j =>
            cxGjp fm (modeOf c) (w / 2) thr reg 0 (cxDecode fm (w / 2) (c.vraw m.a w j)) (cxDecode fm (w / 2) (c.vraw m.b w j)))

/-- For f16, bf16, f32, e4m3, e5m2, e3m2, e2m3, e2m1 and the anvil's wide format, each rounding mode and every exact value ±m × 2^e that does not exceed the largest finite value of the format: the code is that of the nearest value, a tie going to the even code (RNE), of the largest value that is no larger in magnitude (RZ), not above (RD), or not below (RU); NX is raised exactly where the code's value differs. A finite code is rounded to itself. -/
def Obligations.RoundingIsCorrect : Prop :=
  ∀ f ∈ [fmtF16, fmtBf16, fmtF32, fmtE4m3, fmtE5m2, fmtE3m2, fmtE2m3, fmtE2m1, fmtF40], ∀ mode : Mode,
    (∀ (n : Bool) (m : Nat) (e : Int),
        let x : ℝ := (if n then -1 else 1) * (m : ℝ) * (2 : ℝ) ^ e
        IsRounded f mode x (f.round mode .table n m e).1
          ∧ ∀ top, realOf f (f.largest false) = some top → |x| ≤ top →
              ((f.round mode .table n m e).2 &&& flagNX ≠ 0 ↔ realOf f (f.round mode .table n m e).1 ≠ some x))
      ∧ ∀ c x, c < 2 ^ f.width → realOf f c = some x → f.put mode (f.decode c) = (c, 0)

/-- For f16, bf16 and f32 and finite operands x, y and z: add, subtract, multiply, fused multiply-add and its negation give the exact x + y, x − y, x·y, x·y + z and z − x·y, rounded once; division (y ≠ 0), square root (x ≥ 0), reciprocal (x ≠ 0) and reciprocal square root (x > 0) the exact quotient or root rounded once; the minimum and maximum are the smaller and larger number; the compares give 1 exactly when x = y, x < y or x ≤ y. With a NaN operand the arithmetic gives the canonical NaN, a compare gives 0, and a minimum or maximum gives the number (or, in its propagating form, the canonical NaN). Absolute value and negation clear and flip the sign bit of a number; VFCLASS sets the one bit of the class, and no flag. For elements whose parts are numbers, the complex multiply, both multiply-adds, the conjugate, the squared magnitude, the rotation and the scaling give each part of the exact complex value, rounded once; a NaN part of a factor makes both parts of a product the canonical NaN. VCINV2 gives the parts of d, −b, −c and a divided by the exact determinant, rounded once, with %sngreg added to a and d and SNG where the squared magnitude of the determinant lies below %sngthr, the canonical NaN with DZ where the determinant is then 0, and with NV where a part is a signalling NaN or infinite; VGJP the parts of the row element divided by the pivot, with the same regularisation, NaN with NV or DZ for a pivot of 0, and the cases of its table for parts that are no numbers. -/
def Obligations.FloatValues : Prop :=
  ∀ f ∈ [fmtF16, fmtBf16, fmtF32], ∀ (mode : Mode) (a b d : Nat), a < 2 ^ f.width → b < 2 ^ f.width → d < 2 ^ f.width →
    let r (o : FpOp) : Nat := (fpOp o f mode a b d).1
    (∀ x y z, realOf f a = some x → realOf f b = some y → realOf f d = some z →
        IsRounded f mode (x + y) (r .add) ∧ IsRounded f mode (x - y) (r .sub) ∧ IsRounded f mode (x * y) (r .mul)
          ∧ IsRounded f mode (x * y + z) (r .ma) ∧ IsRounded f mode (z - x * y) (r .nma)
          ∧ (y ≠ 0 → IsRounded f mode (x / y) (r .div)) ∧ (0 ≤ x → IsRounded f mode (Real.sqrt x) (r .sqrt))
          ∧ (x ≠ 0 → IsRounded f mode (1 / x) (r .rcp)) ∧ (0 < x → IsRounded f mode (1 / Real.sqrt x) (r .rsq))
          ∧ realOf f (r .min) = some (min x y) ∧ realOf f (r .max) = some (max x y)
          ∧ realOf f (r .minp) = some (min x y) ∧ realOf f (r .maxp) = some (max x y)
          ∧ (r .cmpeq = 1 ↔ x = y) ∧ (r .cmplt = 1 ↔ x < y) ∧ (r .cmple = 1 ↔ x ≤ y)
          ∧ realOf f (r .abs) = some |x| ∧ realOf f (r .neg) = some (-x))
      ∧ ((f.decode a).isNan = true →
          (∀ o ∈ [FpOp.add, .sub, .mul, .ma, .nma, .div, .sqrt, .rsq, .rcp, .minp, .maxp], r o = f.nan)
            ∧ (∀ o ∈ [FpOp.cmpeq, .cmplt, .cmple], r o = 0)
            ∧ ∀ o ∈ [FpOp.min, .max], r o = if (f.decode b).isNan then f.nan else b)
      ∧ (∃ bit, IsClass f a bit ∧ fpOp .cls f mode a b d = (2 ^ bit, 0))
      ∧ (∀ u v w : Nat, u < 2 ^ (2 * f.width) → v < 2 ^ (2 * f.width) → w < 2 ^ (2 * f.width) →
          let cx (u : Nat) : Cx := ⟨f.decode (u % 2 ^ f.width), f.decode (u / 2 ^ f.width)⟩
          (∀ (o : CxOp) (n : Nat) (x y z t : ℂ), n < 4 → complexOf (cx u) = some x → complexOf (cx v) = some y →
              complexOf (cx w) = some z → cxValue o n x y z = some t →
              PartsRounded f mode t (cxOp o f mode f.width n u v w).1)
            ∧ ((cx u).re.isNan = true ∨ (cx u).im.isNan = true ∨ (cx v).re.isNan = true ∨ (cx v).im.isNan = true →
                ∀ o ∈ [CxOp.mul, .mac, .macj], (cxOp o f mode f.width 0 u v w).1 = bothNan f))
      ∧ ∀ (thr reg : FV) (r : ℝ) (free : Nat → Nat), numberOf reg = some r →
          (∀ (p q s t : Cx) (a b c d : ℂ), complexOf p = some a → complexOf q = some b → complexOf s = some c → complexOf t = some d →
              let out := cxInv2 f mode f.width thr reg free p q s t
              (¬ Below thr (Complex.normSq (a * d - b * c)) → Inverted f mode a b c d 0 out)
                ∧ (Below thr (Complex.normSq (a * d - b * c)) → Inverted f mode (a + r) b c (d + r) flagSNG out))
            ∧ (∀ p q s t : Cx, (∃ x ∈ [p, q, s, t], complexOf x = none) →
                cxInv2 f mode f.width thr reg free p q s t = List.replicate 4
                  (bothNan f, if [p, q, s, t].any fun x => x.re.isSnan || x.im.isSnan || x.re.isInf || x.im.isInf then flagNV else 0))
            ∧ (∀ (p v : Cx) (a b : ℂ), complexOf p = some a → complexOf v = some b →
                let out := cxGjp f mode f.width thr reg (free 0) p v
                (¬ Below thr (Complex.normSq a) → Divided f mode a b 0 out)
                  ∧ (Below thr (Complex.normSq a) → Divided f mode (a + r) b flagSNG out))
            ∧ ∀ p v : Cx,
                let nan (x : Cx) : Bool := x.re.isNan || x.im.isNan
                let snan (x : Cx) : Bool := x.re.isSnan || x.im.isSnan
                let inf (x : Cx) : Bool := x.re.isInf || x.im.isInf
                let out := cxGjp f mode f.width thr reg (free 0) p v
                ((nan p || nan v) = true → out = (bothNan f, if snan p || snan v then flagNV else 0))
                  ∧ ((nan p || nan v) = false → inf v = true → out = (bothNan f, flagNV))
                  ∧ ((nan p || nan v) = false → inf v = false → inf p = true → out = (0, 0))

/-- VCVT, VCVTSAT and VCVTZ, run in a convoy of their own, convert each active element to the type named; VDEQ decodes each code of va under its block's scale and X, NV of a NaN scale or X raised once a block; VTDEC gives element 96k + i the weight i of segment k times its scale; VQUANT gives the active elements of each block of 32 their codes, and the side register the scale and X bytes of each block that has an active element, its LEN VL / 16. (ConversionValues says what a code, a block and a weight are.) Frame, LEN, flags and exception mask are as for VintResults. -/
def Obligations.VcvtResults : Prop :=
  ∀ (i : Instr) (s : State) (v : VInstr), opOf i = some v → VReady s v → Untrapped s v →
    let c := s.me
    let m := memberOf c v
    let ty := tyOf c
    let w := typeWidth ty
    let fm := fieldOf (c.crGet 0x10C) 0 5
    let side (n : Nat) : Nat := (c.vbyte m.b n).toNat
    (∀ o, cvtWant i = some o → Computes i s m (ActiveIn c m) (typeWidth m.b) fun j => convertOp o (modeOf c) ty m.b (srcAt c m.a w j))
      ∧ ((∃ a b d e k x, i = .vdeq a b d e k x) → Computes i s m (ActiveIn c m) w fun j =>
          let n := j / 32
          let code (q : Nat) : Nat := srcAt c m.a (typeWidth fm) q
          let nv := (blockOf c m n).find? fun q => (mxValue fm (code q) (side (2 * n)) (side (2 * n + 1))).2 != 0
          let r := toFloat false (fmtOf ty) .rne (mxValue fm (code j) (side (2 * n)) (side (2 * n + 1))).1
          (r.1, r.2 ||| if nv = some j then flagNV else 0))
      ∧ ((∃ a b d k x, i = .vtdec a b d k x) → Computes i s m (ActiveIn c m) w fun j =>
          let adv := fieldOf (c.crGet 0x281) 0 2
          let bs := (List.range (segmentBytes adv)).map fun q => c.vbyte m.a (j / 96 * segmentBytes adv + q)
          putOnce (fmtOf ty) .rne (fvMul (fvOfInt (weightValue adv (fieldOf (c.crGet 0x280) 0 5) (segStream adv bs) (j % 96)))
            (fmtBf16.decode (segScale adv bs))))
      ∧ ((∃ a b d e k x, i = .vquant a b d e k x) →
          let q (n : Nat) : Quantised := quantBlock fm ((blockOf c m n).map fun j => (fmtOf ty).decode (srcAt c m.a w j))
          let f (j : Nat) : Nat × Flags := (q (j / 32)).codes.getD ((blockOf c m (j / 32)).idxOf j) (0, 0)
          ∃ t, RunsAlone i s t ∧ VRest s t ∧ KeepsMemory s t ∧ KeepsRegs c t.me [m.d, m.b] (masksOf m [])
            ∧ FlagsRaised c t.me (ActiveIn c m) (fun j => (f j).2) ∧ ExceptionMask c t.me m (ActiveIn c m) (fun j => (f j).2)
            ∧ (∀ j, j < vlOf c → t.me.vraw m.d (typeWidth fm) j
                = if activeAt c m j then (f j).1 % 2 ^ typeWidth fm else c.vraw m.d (typeWidth fm) j)
            ∧ ∀ n, n < vlOf c / 32 → blockOf c m n ≠ [] →
                t.me.vbyte m.b (2 * n) = BitVec.ofNat 8 (q n).scale ∧ t.me.vbyte m.b (2 * n + 1) = BitVec.ofNat 8 (q n).x
                  ∧ t.me.lenOf m.b = vlOf c / 16)

/-- An integer element converts to an integer type by wrapping its value to the destination's width, and under saturation by clamping it to the destination's range with SAT and NX; a finite float converts to an integer type as its value rounded under the mode where that fits, with NX where it differs, and as 0 with NV for a NaN; an integer converts to a float type, and a finite float to another, as its exact value rounded once. A code of an MX block is its element value times 2^(scale − 127), a NaN with NV under scale 0xFF; an e2m1x code 0b1000 is X under the scale, a NaN with NV for X of 0x7F or 0xFF. VQUANT gives a block with a NaN or an infinity scale 0xFF, X 0 and codes 0, with NV for those elements; otherwise the scale byte e + 127 with e from the largest magnitude (for e2m1x of the elements but the largest one, the lowest index among ties), and each element the code of x / 2^e rounded to the nearest, or the largest one of its sign; for e2m1x the largest element takes code 0b1000 with X its own x / 2^e rounded into e4m3 where that is above 6, any other above 6 the code of ±6 with OVFO and NX, and a result that rounds to 0 code 0. (The flags of an outlier's X that saturates are the choice of log 51.) The value of a trellis weight is that of its window. -/
def Obligations.ConversionValues : Prop :=
  (∀ (o : CvtOp) (mode : Mode) (st dt v : Nat), st ≤ 9 → dt ≤ 9 → v < 2 ^ typeWidth st →
      let x : Int := if tySigned st then signedOf (typeWidth st) v else v
      convertOp o mode st dt v
        = if o = .sat then ((saturateTo (tySigned dt) (typeWidth dt) x).1, if (saturateTo (tySigned dt) (typeWidth dt) x).2 then flagSAT ||| flagNX else 0)
          else (wrapTo (typeWidth dt) x, 0))
    ∧ (∀ (st dt v : Nat) (mode : Mode) (x : ℝ) (y : Int), st ∈ [10, 11, 12, 13, 14, 15, 16] → dt ≤ 9 → v < 2 ^ typeWidth st →
        realOf (fmtOf st) v = some x →
        (match mode with
          | .rne => |(y : ℝ) - x| ≤ 1 / 2 ∧ (|(y : ℝ) - x| = 1 / 2 → y % 2 = 0)
          | .rz => |(y : ℝ)| ≤ |x| ∧ |x| < |(y : ℝ)| + 1 ∧ 0 ≤ y * x
          | .rd => y = ⌊x⌋
          | .ru => y = ⌈x⌉) →
        saturateTo (tySigned dt) (typeWidth dt) y = (wrapTo (typeWidth dt) y, false) →
          convertOp .cvt mode st dt v = (wrapTo (typeWidth dt) y, if (y : ℝ) = x then 0 else flagNX))
    ∧ (∀ (o : CvtOp) (mode : Mode) (st dt v : Nat), st ∈ [10, 11, 12, 13, 14] → dt ≤ 9 → ((fmtOf st).decode (v % 2 ^ typeWidth st)).isNan = true →
        (convertOp o mode st dt v).1 = 0 ∧ (convertOp o mode st dt v).2 = flagNV)
    ∧ (∀ (mode : Mode) (st dt v : Nat) (x : ℝ), st ≤ 16 → dt ∈ [10, 11, 12, 13, 14, 15, 16] → v < 2 ^ typeWidth st →
        (if st ≤ 9 then x = (if tySigned st then signedOf (typeWidth st) v else (v : Int)) else realOf (fmtOf st) v = some x) →
          IsRounded (fmtOf dt) (if dt ≤ 12 then mode else .rne) x (convertOp .cvt mode st dt v).1)
    ∧ (∀ (fm code scale x : Nat), fm ∈ [13, 14, 15, 16, 17] →
        (scale = 255 → mxValue fm code scale x = (.nan false, flagNV))
          ∧ (scale < 255 → fm ≠ 17 → ∀ v, code < 2 ^ (fmtOf fm).width → realOf (fmtOf fm) code = some v →
              numberOf (mxValue fm code scale x).1 = some (v * scaleOf scale) ∧ (mxValue fm code scale x).2 = 0)
          ∧ (scale < 255 → fm = 17 → code < 16 → code ≠ 8 →
              numberOf (mxValue fm code scale x).1 = some ((if 8 ≤ code then -1 else 1) * e2m1Magnitude code * scaleOf scale)
                ∧ (mxValue fm code scale x).2 = 0)
          ∧ (scale < 255 → fm = 17 → code = 8 → x < 256 →
              (∀ v, realOf fmtE4m3 x = some v →
                  numberOf (mxValue fm code scale x).1 = some (v * scaleOf scale) ∧ (mxValue fm code scale x).2 = 0)
                ∧ ((x = 127 ∨ x = 255) → (mxValue fm code scale x).1.isNan = true ∧ (mxValue fm code scale x).2 = flagNV)))
    ∧ (∀ (fm : Nat) (xs : List FV), fm ∈ [13, 14, 15, 16, 17] → (∃ x ∈ xs, numberOf x = none) →
        quantBlock fm xs = { scale := 255, x := 0, codes := xs.map fun x => (0, if x.isNan || x.isInf then flagNV else 0) })
    ∧ (∀ (fm : Nat) (xs : List FV) (vs : List ℝ), fm ∈ [13, 14, 15, 16, 17] → xs ≠ [] → xs.map numberOf = vs.map some →
        let q := quantBlock fm xs
        q.codes.length = xs.length
          ∧ (fm ≠ 17 → ∀ (m : ℝ) (e : Int), IsLargest vs m →
              IsBlockExp (match fm with | 13 => 8 | 14 => 15 | 15 => 4 | _ => 2) m e →
              (q.scale : Int) = e + 127 ∧ q.x = 0
                ∧ ∀ (i : Nat) (v : ℝ) (r : Nat × Flags), vs[i]? = some v → q.codes[i]? = some r → IsElementCode (fmtOf fm) v e r)
          ∧ (fm = 17 → ∀ (j : Nat) (w m : ℝ) (e : Int), vs[j]? = some w → (∀ (i : Nat) (v : ℝ), vs[i]? = some v → |v| ≤ |w| ∧ (|v| = |w| → j ≤ i)) →
              IsLargest (vs.eraseIdx j) m → IsBlockExp 2 m e →
              (q.scale : Int) = e + 127
                ∧ (∀ (i : Nat) (v : ℝ) (r : Nat × Flags), vs[i]? = some v → q.codes[i]? = some r → i ≠ j → IsE2m1Code v e r)
                ∧ (6 < |scaled w e| → (∀ r, q.codes[j]? = some r → r.1 = 8) ∧ IsRounded fmtE4m3 .rne (scaled w e) q.x)
                ∧ (|scaled w e| ≤ 6 → (∀ r, q.codes[j]? = some r → IsE2m1Code w e r) ∧ q.x = 0)))
    ∧ ∀ mode len stream i : Nat, mode ≤ 2 → len ∈ [8, 10, 12, 14, 16] → i < 96 →
        IsWindowValue mode len stream i (weightValue mode len stream i)

/-- VPERM, VSLUP, VSLDN, VREV, VPACK, VZIP and VUNZIP, run in a convoy of their own, give each active element the source element that R285 names, the fill value for a source at or beyond VL; VXCH gives each active element its partner at distance 2^ld; VBFLY, VIBFLY and VPLAN give the two elements of each pair their sum or difference forms (with VPLAN's sign bits), the fill value standing for a partner at or beyond VL. Every source is read before any element is written; frame and LEN are as for VintResults. -/
def Obligations.VxVdistResults : Prop :=
  ∀ (i : Instr) (s : State) (v : VInstr), opOf i = some v → VReady s v → Untrapped s v →
    let c := s.me
    let m := memberOf c v
    let w := typeWidth (tyOf c)
    let d := 2 ^ m.ld
    (∀ f, vxWant i c m (g1Of c v).toNat = some f → Computes i s m (ActiveIn c m) w fun j => (f j, 0))
      ∧ ((∃ a b e k l, i = .vxch a b e k l) → Computes i s m (ActiveIn c m) w fun j =>
          (srcAt c m.a w (if j / d % 2 = 1 then j - d else j + d), 0))
      ∧ ∀ o, distWant i = some o → Computes i s m (ActiveIn c m) w fun j =>
          let l := if j / d % 2 = 1 then j - d else j
          let sign (q : Nat) : Bool := m.b != 0 && decide (q < vlOf c) && c.mbit m.b q
          let r := distOp o (tyOf c) (modeOf c) (srcAt c m.a w l) (srcAt c m.a w (l + d)) (srcAt c m.b w l) (sign l) (sign (l + d))
          if j / d % 2 = 1 then r.2 else r.1

/-- VMAND, VMOR, VMXOR, VMNOT and VMUPTO write their bit for each active element, keep the others below VL and clear the rest; VMFIRST gives g[d] the lowest active index whose bit is 1, or all ones, and VMPOP the number of active ones, and control goes on once the convoy has drained; VLTRIP copies va and sets each mask bit where the count is not 0; VLSTEP counts every lane whose mask bit is set down by one and retires it at 0. -/
def Obligations.VmaskResults : Prop :=
  ∀ (i : Instr) (s : State) (v : VInstr), opOf i = some v → VReady s v → Untrapped s v →
    let c := s.me
    let m := memberOf c v
    let w := typeWidth (tyOf c)
    let act (j : Nat) : Prop := ActiveIn c m j
    (∀ f r, IsFirst c m r → maskWant i c m r = some f → Compares i s m act fun j => (f j, 0))
      ∧ ((∃ a b e k, i = .vmfirst a b e k) → c.isCoord m.d = false → ∀ r, IsFirst c m r →
          Answers i s m (match r with | some f => BitVec.ofNat 64 f | none => BitVec.allOnes 64) 0)
      ∧ ((∃ a b e k, i = .vmpop a b e k) → c.isCoord m.d = false →
          Answers i s m (BitVec.ofNat 64 (((List.range (vlOf c)).filter (activeAt c m)).filter (c.mbit m.a)).length) 0)
      ∧ ((∃ a b e k x, i = .vltrip a b e k x) → ∃ t, RunsAlone i s t ∧ VRest s t ∧ KeepsMemory s t ∧ KeepsRegs c t.me [m.d] [m.b]
          ∧ VectorResult c t.me act m.d w (fun j => srcAt c m.a w j) ∧ MaskResult c t.me act m.b (fun j => srcAt c m.a w j != 0))
      ∧ ((∃ a b e x, i = .vlstep a b e x) → ∃ t, RunsAlone i s t ∧ VRest s t ∧ KeepsMemory s t ∧ KeepsRegs c t.me [m.d] [m.b]
          ∧ let on (j : Nat) : Prop := act j ∧ c.mbit m.b j = true
            let left (j : Nat) : Nat := wrapTo w ((srcAt c m.d w j : Int) - 1)
            VectorResult c t.me on m.d w left ∧ MaskResult c t.me on m.b (fun j => left j != 0))

/-- Each reduction, run in a convoy of its own, reduces the selected elements of va: to element 0 of vd, truncated to its width, with VL not 0 (the other elements keep their contents; with x = 1 bit 0 of the exception mask tells of every flag raised), or to g[d], sign-extended under a signed integer type. The integer sum is that of the elements in two's complement, exact and truncated to 64 bits, a minimum or maximum is one of the elements and bounds them all, and of no element, as with VL = 0 (R29), the sum is 0 and the minimum or maximum the other end of the range of the instruction's own signedness. A float sum is the exact sum rounded once; of no element it is +0, and a float minimum or maximum the canonical NaN. VSCAN gives each selected element the reduction by sum of the selected elements up to it. -/
def Obligations.VredResults : Prop :=
  (∀ (i : Instr) (s : State) (v : VInstr), opOf i = some v → VReady s v → Untrapped s v →
      let c := s.me
      let m := memberOf c v
      let ty := tyOf c
      let w := typeWidth ty
      let xs := (selectedList c m).map fun j => srcAt c m.a w j
      (∀ o, redWant i = some o →
          let r := reduceOp o ty (modeOf c) xs
          let zero (j : Nat) : Prop := j = 0 ∧ vlOf c ≠ 0
          (m.b = 0 → ∃ t, RunsAlone i s t ∧ VRest s t ∧ KeepsMemory s t ∧ KeepsRegs c t.me [m.d] (masksOf m [])
              ∧ VectorResult c t.me zero m.d w (fun _ => r.1 % 2 ^ w) ∧ FlagsRaised c t.me zero (fun _ => r.2)
              ∧ ExceptionMask c t.me m (fun j => j < vlOf c) fun j => if j = 0 then r.2 else 0)
            ∧ (m.b = 1 → c.isCoord m.d = false → Answers i s m (reduceToG o ty r.1) r.2))
        ∧ ((∃ a b d k x, i = .vscan a b d k x) → Computes i s m (fun j => j ∈ selectedList c m) w fun j =>
            let ps := ((selectedList c m).filter fun q => decide (q ≤ j)).map fun q => srcAt c m.a w q
            if tyInt ty then ((reduceOp .sum ty (modeOf c) ps).1 % 2 ^ w, 0) else reduceOp .fsum ty (modeOf c) ps))
    ∧ (∀ (t : Nat) (mode : Mode) (xs : List Nat), t ≤ 9 → (∀ x ∈ xs, x < 2 ^ typeWidth t) →
        let w := typeWidth t
        (reduceOp .sum t mode xs).1 = wrapTo 64 ((xs.map (signedOf w)).sum)
          ∧ (xs = [] → (reduceOp .min t mode xs).1 = 2 ^ (w - 1) - 1 ∧ (reduceOp .max t mode xs).1 = 2 ^ (w - 1)
              ∧ (reduceOp .minn t mode xs).1 = 2 ^ w - 1 ∧ (reduceOp .maxn t mode xs).1 = 0)
          ∧ (xs ≠ [] →
              ((reduceOp .min t mode xs).1 ∈ xs ∧ ∀ x ∈ xs, signedOf w (reduceOp .min t mode xs).1 ≤ signedOf w x)
                ∧ ((reduceOp .max t mode xs).1 ∈ xs ∧ ∀ x ∈ xs, signedOf w x ≤ signedOf w (reduceOp .max t mode xs).1)
                ∧ ((reduceOp .minn t mode xs).1 ∈ xs ∧ ∀ x ∈ xs, (reduceOp .minn t mode xs).1 ≤ x)
                ∧ ((reduceOp .maxn t mode xs).1 ∈ xs ∧ ∀ x ∈ xs, x ≤ (reduceOp .maxn t mode xs).1)))
    ∧ ∀ (t : Nat) (mode : Mode) (xs : List Nat) (vs : List ℝ), t ∈ [10, 11, 12] → xs.map (realOf (fmtOf t)) = vs.map some →
        IsRounded (fmtOf t) mode vs.sum (reduceOp .fsum t mode xs).1
          ∧ (xs = [] → reduceOp .fsum t mode xs = (0, 0) ∧ reduceOp .fmin t mode xs = ((fmtOf t).nan, 0)
              ∧ reduceOp .fmax t mode xs = ((fmtOf t).nan, 0))

/-- VMV copies each active element, VMVS gives it the low bits of g[A], VID its index, and VINS only element g[I], where that is active; VEXT gives g[d] element g[I], or the fill value from VL on, and VPOLL the number of images from the source, control going on once the convoy has drained. VTAKE takes the oldest image from the source: its bytes stand in vd from byte 0, LEN(vd) is its length and its slot is free. VPUSH, once a slot of the peer's inbox is granted, sends the first ⌈VL × EW / 8⌉ bytes of va as the convoy drains, and its convoy asks for a slot first. -/
def Obligations.VmovResults : Prop :=
  ∀ (i : Instr) (s : State) (v : VInstr), opOf i = some v → VReady s v →
    let c := s.me
    let m := memberOf c v
    let w := typeWidth (tyOf c)
    let g1 := g1Of c v
    let g2 := g2Of c v
    ((∃ a b d k, i = .vmv a b d k) → Computes i s m (ActiveIn c m) w fun j => (srcAt c m.a w j, 0))
      ∧ ((∃ a b d k, i = .vmvs a b d k) → Computes i s m (ActiveIn c m) w fun _ => (heldBits c w (g1.toNat % 2 ^ w), 0))
      ∧ ((∃ a b k, i = .vid a b k) → Computes i s m (ActiveIn c m) w fun j => (j % 2 ^ w, 0))
      ∧ ((∃ a b d e k, i = .vins a b d e k) → Computes i s m (fun j => ActiveIn c m j ∧ j = g2.toNat) w fun _ => (heldBits c w (g1.toNat % 2 ^ w), 0))
      ∧ ((∃ a b d e k, i = .vext a b d e k) → c.isCoord m.d = false →
          Answers i s m (BitVec.ofNat 64 (srcAt c m.a w g1.toNat)) 0)
      ∧ ((∃ a b d, i = .vpoll a b d) → c.isCoord m.d = false →
          Answers i s m (BitVec.ofNat 64 ((s.coreAt s.myCore).inbox.filter (comesFrom g1)).length) 0)
      ∧ ((∃ a b d, i = .vtake a b d) → ∀ (before after : List Image) (x : Image),
          (s.coreAt s.myCore).inbox = before ++ x :: after → (∀ y ∈ before, comesFrom g1 y = false) → comesFrom g1 x = true →
          x.bytes.length ≤ 2048 →
          ∃ t, RunsAlone i s t ∧ VRest s t ∧ KeepsMemory s t ∧ KeepsRegs c t.me [m.d] []
            ∧ (∀ b, b < x.bytes.length → some (t.me.vbyte m.d b) = x.bytes[b]?) ∧ t.me.lenOf m.d = x.bytes.length
            ∧ (t.coreAt s.myCore).inbox = before ++ after)
      ∧ ((∃ a b d, i = .vpush a b d) → vlOf c ≠ 0 → ∀ q, q = g1.toNat % 256 →
          (∃ k, s.vectorStrand q = some k ∧ (s.ctxAt k).job = c.job) →
          (s.myCore ∈ (s.coreAt q).reserved → (s.coreAt q).grants s.myCore = true →
              ∃ t, RunsAlone i s t ∧ VRest s t ∧ KeepsMemory s t ∧ KeepsRegs c t.me [] []
                ∧ (t.coreAt q).arriving = (s.coreAt q).arriving ++
                    [{ src := s.myCore, job := c.job, bytes := (List.range ((vlOf c * w + 7) / 8)).map (c.vbyte m.a) }]
                ∧ (t.coreAt q).reserved = (s.coreAt q).reserved.erase s.myCore)
            ∧ (s.myCore ∉ (s.coreAt q).reserved → ∃ s1 s2, exec i s = .next s1 ∧ exec .convoyOpen (afterIssue s1) = .next s2
                ∧ (s2.coreAt q).reserved = (s.coreAt q).reserved ++ [s.myCore] ∧ s2.me.queue = s1.me.queue))

/-- VLD, VLDS, VLDX, VLDFF, VST, VSTS and VSTX, run in a convoy of their own whose active elements are aligned and translate without a change of page tables or translation cache, move each active element between the register and its address (base, plus the element's offset, stride times index, or index element, modulo 2^50); VLDT and VSTT do so with a READY tile of the job from its first byte plus g[B] on (modulo 2^50), within its length; VLDL and VSTL with the lane-private slice and offset of each byte (g[B] a multiple of 64). Sub-byte elements take or change only their own bits. Stores land in index order. No other register and no other byte changes. -/
def Obligations.VmemResults : Prop :=
  ∀ (i : Instr) (s s1 : State) (v : VInstr), opOf i = some v → VReady s v → exec i s = .next s1 →
    let r := afterIssue s1
    let c := s.me
    let m := memberOf c v
    let w := typeWidth (tyOf c)
    let g1 := g1Of c v
    let g2 := g2Of c v
    (∀ mode load, memWant i = some (mode, load) → ∀ place : Nat → List (Nat × Nat),
        (∀ j, ActiveIn c m j → elemAddress c m mode g1 g2 j % elemAlign (tyOf c) = 0
          ∧ r.checkPieces s.cur (if load then .read else .write) (elemPieces (tyOf c) (elemAddress c m mode g1 g2 j)) = .ok (place j, r)) →
        MovesElements i s r m load place)
      ∧ (∀ load, tileWant i = some load → ∀ t : Tile, s.tile? s.myCore g2.toNat c.job = some t → t.state = .ready →
          let off (j : Nat) : Nat := (g1.toNat + j * w / 8) % 2 ^ 50
          let at_ (j : Nat) : Nat := 0x3000000000000 + s.myCore * 2 ^ 24 + t.off + off j
          (∀ j, ActiveIn c m j → at_ j % elemAlign (tyOf c) = 0 ∧ off j + max 1 (w / 8) ≤ t.len
            ∧ s.watched s.cur (at_ j) (max 1 (w / 8)) (if load then .read else .write) = false) →
          MovesElements i s r m load fun j => [(at_ j, max 1 (w / 8))])
      ∧ ∀ load, laneWant i = some load → g1.toNat % 64 = 0 →
          let b (j : Nat) : Nat := j * w / 8
          (∀ j, ActiveIn c m j → g1.toNat + 64 * (b j / 256) + b j % 64 + max 1 (w / 8) ≤ 16384) →
          MovesElements i s r m load fun j =>
            [(0x3000000000000 + s.myCore * 2 ^ 24 + 0x100000 + b j % 256 / 64 * 0x4000 + (g1.toNat + 64 * (b j / 256) + b j % 64),
              max 1 (w / 8))]

/-- VLSEG and VSSEG, run in a convoy of their own whose accessed segments (those with an active element) translate without a change of page tables or translation cache: raw, VLSEG gives each active element its code and the side register the scale and X of each accessed segment; decoding, it gives each active element the value of its code under the segment's scale and X, rounded to the nearest; VSSEG writes each accessed segment whole, inactive elements included, and touches no other. (ConversionValues says what a code stands for.) -/
def Obligations.VsegResults : Prop :=
  ∀ (i : Instr) (s s1 : State) (v : VInstr), opOf i = some v → VReady s v → Untrapped s v → exec i s = .next s1 →
    let r := afterIssue s1
    let c := s.me
    let m := memberOf c v
    let ty := tyOf c
    let fm := fieldOf (c.crGet 0x10C) 0 5
    let size := segStride fm
    let at_ (n : Nat) : Nat := ((g1Of c v).toNat + n * size) % 2 ^ 50
    let accessed (n : Nat) : Prop := blockOf c m n ≠ []
    ∀ (load : Bool) (place : Nat → List (Nat × Nat)),
      (∀ n, accessed n → r.checkPieces s.cur (if load then .read else .write) (pagePieces 3 (at_ n) size) = .ok (place n, r)) →
      let bytes (n : Nat) : List Byte := r.readRuns (place n)
      let scale (n : Nat) : Nat := ((bytes n).getD 0 0).toNat
      let x (n : Nat) : Nat := if fm = 17 then ((bytes n).getD 1 0).toNat else 0
      ((∃ a b d e k q, i = .vlseg a b d e k q) → load = true → ty = fm → m.d ≠ m.b →
          ∃ t, RunsAlone i s t ∧ VRest s t ∧ KeepsMemory s t ∧ KeepsRegs c t.me [m.d, m.b] []
            ∧ (∀ j, j < vlOf c → t.me.vraw m.d (typeWidth fm) j
                = if activeAt c m j then segCode fm (bytes (j / 32)) (j % 32) else c.vraw m.d (typeWidth fm) j)
            ∧ ∀ n, accessed n → (t.me.vbyte m.b (2 * n)).toNat = scale n ∧ (t.me.vbyte m.b (2 * n + 1)).toNat = x n)
        ∧ ((∃ a b d e k q, i = .vlseg a b d e k q) → load = true → ty ≠ fm →
            Computes i s m (ActiveIn c m) (typeWidth ty) fun j =>
              let n := j / 32
              let code (q : Nat) : Nat := segCode fm (bytes (q / 32)) (q % 32)
              let nv := (blockOf c m n).find? fun q => (mxValue fm (code q) (scale n) (x n)).2 != 0
              let z := toFloat false (fmtOf ty) .rne (mxValue fm (code j) (scale n) (x n)).1
              (z.1, z.2 ||| if nv = some j then flagNV else 0))
        ∧ ((∃ a b d e k q, i = .vsseg a b d e k q) → load = false →
            ∃ t, RunsAlone i s t ∧ VRest s t ∧ KeepsRegs c t.me [] []
              ∧ (Unsampled s → t.mem = ((List.range (vlOf c / 32)).filter fun n => !(blockOf c m n).isEmpty).foldl
                  (fun mem n =>
                    let codes := (List.range 32).foldl (fun y q =>
                      y + c.vraw m.d (typeWidth fm) (32 * n + q) % 2 ^ packedWidth fm * 2 ^ (packedWidth fm * q)) 0
                    let bs := [c.vbyte m.b (2 * n)] ++ (if fm = 17 then [c.vbyte m.b (2 * n + 1)] else []) ++ leBytes (4 * packedWidth fm) codes
                    ((place n).foldl (fun acc p => (pokeBytes acc.1 p.1 ((bs.drop acc.2).take p.2), acc.2 + p.2)) (mem, 0)).1) s.mem))

/-- VSET from a steward, from a strand that is not its core's vector strand, or with a type code above 22 traps ILLEGAL. Otherwise (no strip stop set for the slot, room in the queue): g[d] receives the smaller of g[a] and 16,384 / EW(code) at once and control goes on; when its convoy has run, %vl is that number, %vtype the code and the strip ordinal one higher modulo 2^32, and %vstart, the vector and mask registers and %vdirty are as they were. -/
def Obligations.VsetResults : Prop :=
  ∀ (d a ty : BitVec 5) (s : State),
    ((isSteward s.cur = true ∨ s.me.vec = false ∨ 22 < ty.toNat) → Traps (.vset d a ty) s .illegal (s.ir.setWidth 64) s.me.pc)
      ∧ (isSteward s.cur = false → s.me.vec = true → ty.toNat ≤ 22 → s.coordDest d = false →
          ((s.coreAt s.myCore).crGet 0x482).getLsbD (s.me.here % 16) = false →
          let vl := min (s.rd a).toNat (16384 / typeWidth ty.toNat)
          (s.me.occupancy < 16 → Does (.vset d a ty) s fun t =>
              t.me.g = ((s.me.wr d.toNat (BitVec.ofNat 64 vl)).advance).g ∧ t.me.pc = s.me.advance.pc
                ∧ t.me.queue.length = s.me.queue.length + 1 ∧ t.me.cr = s.me.cr ∧ OnlyMe s t)
            ∧ (s.me.hold ≠ .trapped → s.me.queue = [] → s.me.running = none → s.myCore < 256 →
                (∀ k, (s.ctxAt k).vec = true → s.coreOf k = s.myCore → k = s.cur) →
                ∃ t, RunsAlone (.vset d a ty) s t ∧ t.me.g = ((s.me.wr d.toNat (BitVec.ofNat 64 vl)).advance).g
                  ∧ (t.me.crGet 0x100).toNat = vl ∧ (t.me.crGet 0x101).toNat = ty.toNat
                  ∧ (t.me.crGet 0x10B).toNat = ((s.me.crGet 0x10B).toNat + 1) % 2 ^ 32
                  ∧ t.me.crGet 0x102 = s.me.crGet 0x102 ∧ t.me.crGet 0x10A = s.me.crGet 0x10A
                  ∧ KeepsRegs s.me t.me [] [] ∧ t.me.queue = []))

/-- Every vector instruction but VSET: from a steward, from a strand that is not its core's vector strand, or with a field outside its limits it traps ILLEGAL; with CB = 0 where no convoy is open (and none is reopened by ERET) it traps ILLEGAL once every convoy has drained; otherwise, with room in the queue and the convoy within its rules, it enters at the tail, opening a convoy with CB = 1 and joining the open one with CB = 0, with the g values of this moment, and control goes on, a synchronising one being held until its convoy has drained. With the queue full it is held. No register changes at issue. (ConvoysRefused says what happens to a convoy that breaks the rules.) -/
def Obligations.VectorIssue : Prop :=
  ∀ (i : Instr) (s : State) (v : VInstr), opOf i = some v →
    ((isSteward s.cur = true ∨ s.me.vec = false ∨ v.m.malformed = true) → Traps i s .illegal (s.ir.setWidth 64) s.me.pc)
      ∧ (isSteward s.cur = false → s.me.vec = true → v.m.malformed = false → (v.m.syncs = true → s.me.isCoord v.m.d = false) →
          let opens : Bool := v.m.cb || (s.me.reopen && !s.me.open_)
          (opens = false → s.me.open_ = false → s.me.drained = true → Traps i s .illegal (s.ir.setWidth 64) s.me.pc)
            ∧ ((opens = true ∨ s.me.open_ = true) → 16 ≤ s.me.occupancy → Does i s fun t =>
                t.me.pc = s.me.pc ∧ t.me.g = s.me.g ∧ t.me.queue = s.me.queue ∧ t.me.again = true)
            ∧ ((opens = true ∨ s.me.open_ = true) → s.me.occupancy < 16 →
                convoyOk (convoyWith s v) s.me.strip.2 s.me.strip.1 = true → Does i s fun t =>
                ∃ e : Entry, t.me.queue = s.me.queue ++ [.entry e] ∧ e.m = memberOf s.me v ∧ e.pc = s.me.pc ∧ e.opens = opens
                  ∧ e.g1 = g1Of s.me v ∧ e.g2 = g2Of s.me v ∧ e.set = s.me.settings
                  ∧ t.me.vreg = s.me.vreg ∧ t.me.mreg = s.me.mreg ∧ t.me.cr = s.me.cr ∧ OnlyMe s t
                  ∧ (if v.m.syncs then t.me.hold = .vsync ∧ t.me.pc = s.me.pc ∧ t.me.g = s.me.g
                      else t.me.pc = s.me.advance.pc ∧ t.me.g = s.me.advance.g)))

/-- A vector word that makes its convoy one with more members of a pipe than R45 allows, with two members that write one register, with a member that reads what a later one writes, with a VSET that has CB = 0, or with a member outside the limits of its chapter (at the VL and type of its place) traps ILLEGAL at the first word of the convoy: the whole convoy leaves the queue, no vector or mask register, no flag, no %vstart and no byte of memory changes, nor does a general register, but that the g[d] a VSET at the head gave at its issue is again what it was. A convoy that breaks the rules only when it opens leaves the registers, the flags, %vstart and (where no core samples its counters) memory as they are too, and its strand traps. (That a convoy is checked as its word issues and again as it opens, and that a VSET's g[d] is restored, is the choice of log 28, DEDUCED.) -/
def Obligations.ConvoysRefused : Prop :=
  (∀ (i : Instr) (s : State) (v : VInstr), opOf i = some v → isSteward s.cur = false → s.me.vec = true → v.m.malformed = false →
      (v.m.syncs = true → s.me.isCoord v.m.d = false) → (opensConvoy s v = true ∨ s.me.open_ = true) → s.me.occupancy < 16 →
      Refusable (convoyWith s v) s.me.strip.2 s.me.strip.1 →
        let first := (convoyWith s v).headD {}
        ∃ u : State, exec i s = .next (u.raise { key := s.cur, cause := .illegal, tval := first.word.setWidth 64, tepc := first.pc })
          ∧ u.me.queue = s.me.queue.take (s.me.queue.length + 1 - (convoyWith s v).length)
          ∧ u.me.vreg = s.me.vreg ∧ u.me.mreg = s.me.mreg ∧ u.me.cr = s.me.cr ∧ u.mem = s.mem ∧ OnlyMe s u
          ∧ u.me.g = (match first.m.op with | .vset _ => (s.me.wr first.m.d first.old).g | _ => s.me.g)
          ∧ Does i s fun t => t.me.hold = .trapped ∧ t.me.vreg = u.me.vreg ∧ t.me.mreg = u.me.mreg ∧ t.me.g = u.me.g
              ∧ t.me.cr = u.me.cr ∧ (Unsampled s → t.mem = u.mem))
    ∧ ∀ (s : State) (k : Nat) (e : Entry) (q : List QItem), s.vectorStrand s.input.core.toNat = some k → isSteward k = false →
        (s.ctxAt k).vec = true → (s.ctxAt k).hold ≠ .trapped → (s.ctxAt k).running = none →
        (s.ctxAt k).queue = .entry e :: q → (∀ n, e.m.op ≠ .vset n) → (s.ctxAt k).closed = true →
        Refusable (s.ctxAt k).convoy (tyOf (s.ctxAt k)) (vlOf (s.ctxAt k)) →
          Does .convoyOpen s fun t => (t.ctxAt k).hold = .trapped ∧ (t.ctxAt k).vreg = (s.ctxAt k).vreg
              ∧ (t.ctxAt k).mreg = (s.ctxAt k).mreg ∧ (t.ctxAt k).g = (s.ctxAt k).g ∧ (t.ctxAt k).cr = (s.ctxAt k).cr
              ∧ (Unsampled s → t.mem = s.mem)

/-- A VFP instruction of a convoy of its own, without exception mask, whose lowest active element that raises an enabled flag is j: %vstart becomes the first element of j's element group (2,048 bits of elements), the active elements below it commit with their flags, no other element changes, and the strand traps NUMERIC with %tcause.VEC, the vector restart point at the word, and the word with its captured values as the one queue entry. -/
def Obligations.ConvoyStops : Prop :=
  ∀ (i : Instr) (s s1 : State) (v : VInstr) (o : FpOp) (j : Nat), opOf i = some v → fpWant i = some o → o.compares = false →
    VReady s v → v.m.x = false → exec i s = .next s1 →
      let c := s.me
      let m := memberOf c v
      let w := typeWidth (tyOf c)
      let f (n : Nat) : Nat × Flags := onParts (partCount (tyOf c)) (partWidth (tyOf c)) (fpOp o (fmtOf (partTy (tyOf c))) (modeOf c))
        (c.vraw m.a w n) (c.vraw m.b w n) (c.vraw m.d w n)
      let stop := j - j % (2048 / w)
      ActiveIn c m j → (f j).2 &&& c.settings.fen ≠ 0 → (∀ n, n < j → ActiveIn c m n → (f n).2 &&& c.settings.fen = 0) →
        Does .convoyOpen (afterIssue s1) fun t =>
          t.me.hold = .trapped ∧ (t.me.crGet 0x102).toNat = stop ∧ t.me.queue = []
            ∧ (∀ n, n < vlOf c → t.me.vraw m.d w n = if activeAt c m n ∧ n < stop then (f n).1 else c.vraw m.d w n)
            ∧ FlagsRaised c t.me (fun n => ActiveIn c m n ∧ n < stop) (fun n => (f n).2)
            ∧ KeepsRegs c t.me [m.d] []
            ∧ ((s.coreAt s.myCore).servicing = false → (s.coreAt s.myCore).traps = [] →
                TrapStateOf (t.coreAt s.myCore)
                  { key := s.cur, cause := .numeric, tval := 0, tepc := s1.me.pc, vec := true, tvpc := s.me.pc
                    queue := [.entry { word := s.ir, pc := s.me.pc, m := m, opens := true, g1 := g1Of c v, g2 := g2Of c v, set := c.settings }] }
                  (s.me.here % 16) (s.ctxAt (4096 + s.myCore)).pc)

/-- From every state in which each strand's VL, and the VL that a fault-first load of its running convoy leaves, is at most the number of elements of its type that a vector register holds, in its context and in what a pre-empted job keeps of it, every step of the device leaves a state with that property. -/
def Obligations.VlStaysBounded : Prop :=
  let bounded (c : Ctx) : Prop :=
    vlOf c ≤ vlMax (tyOf c) ∧ ∀ r i, c.running = some r → r.vl = some i → i ≤ vlMax (tyOf c)
  let inv (s : State) : Prop := (∀ k, bounded (s.ctxAt k)) ∧ ∀ j ∈ s.sched.jobs, ∀ v ∈ j.saved, bounded v.ctx
  inv State.reset ∧ ∀ s t : State, inv s → step s = .next t → inv t

/-- From a steward or from a strand that is no vector strand, every ANVIL instruction traps ILLEGAL. Otherwise: ALEASE goes on under the lease and is held without it, with a standing request entered; AFREE withdraws the request and gives the lease up; ACLAIM takes the lowest run of free slots, or gives INVALID or FULL; ARELS frees slots that the strand owns, waits for its commands that name them, and traps SLOT for others; ATILE grants and keeps the three shape values; ALDA, ALDB, AMMA, AMMZ, ASMMA, ASTC and AZERO, with the lease held, room in the list and the operands that their rules ask for, enter their command, and trap SLOT with neither lease nor request; the tile of a load drains and its slot is tagged, that of a store fills, and the accumulator takes its path; AWAIT waits until no command of the strand stands. (What the checks of a multiply's slots find, the row and the path of the pair and the slots' tags, is the model's multiplySlots.) The values: an integer multiply adds each product of a K position, exactly, one by one into the i48 sum of its element, which saturates (AMMZ from 0), ASMMA those of the positions that its nibbles name; a float one adds in each pass the exact sum of the scaled products, times a tcw column's scale, to the run value, truncated into f24, and promotes it with every P-th pass into the wide value, rounded into f40; complex ones do both for each part; elements outside the shape keep their values. ASTC gives the saturated sums, or the promoted wide values rounded into the type, row by row. -/
def Obligations.AnvilResults : Prop :=
  AccumulatorValues ∧ StoredValues ∧ ∀ (s : State) (d a b : BitVec 5),
    (s.anvilStrand = false → ∀ i, isAnvil i = true → Traps i s .illegal (s.ir.setWidth 64) s.me.pc)
      ∧ (s.anvilStrand = true →
        let y := myAnvil s
        let at_ (t : State) : Cluster := t.clusterAt s.myCluster
        (y.holder = some s.cur → exec .alease s = .next s.advance)
          ∧ (y.holder ≠ some s.cur → Does .alease s fun t => Held s t ∧ t.mem = s.mem
              ∧ (at_ t).requests = if s.cur ∈ y.requests then y.requests else y.requests ++ [s.cur])
          ∧ GoesOn .afree s (fun t => t.mem = s.mem ∧ s.cur ∉ (at_ t).requests
              ∧ (y.holder = some s.cur → (∀ c ∈ commands s, c.started = true) → (at_ t).holder = none)
              ∧ (y.holder = some s.cur → (∃ c ∈ commands s, c.started = false) → (at_ t).holder = some s.cur ∧ (at_ t).passing = true)
              ∧ (y.holder ≠ some s.cur → y.passing = false → (at_ t).holder = y.holder))
          -- slots
          ∧ (let n := max 1 (s.rd a).toNat
             (s.coordDest d = true → Traps (.aclaim d a) s .illegal (s.ir.setWidth 64) s.me.pc)
              ∧ (s.coordDest d = false → 256 < n → Gives (.aclaim d a) s d (status 6))
              ∧ (s.coordDest d = false → n ≤ 256 → (∀ i, i + n ≤ 256 → ∃ j, j < n ∧ slotOf s (i + j) ≠ none) →
                  Gives (.aclaim d a) s d (status 2))
              ∧ ∀ i, s.coordDest d = false → i + n ≤ 256 → (∀ j, j < n → slotOf s (i + j) = none) →
                  (∀ h, h < i → ∃ j, j < n ∧ slotOf s (h + j) ≠ none) →
                  GivesAnd (.aclaim d a) s d (BitVec.ofNat 64 i) fun t => ∀ j,
                    Sparse.get none (at_ t).slots j = if i ≤ j ∧ j < i + n then some { owner := s.cur, job := s.me.job, tag := none } else slotOf s j)
          ∧ (let first := (s.rd a).toNat % 256
             let n := max 1 (s.rd b).toNat
             (¬ Owns s first n → Traps (.arels a b) s .slot 0 s.me.pc)
              ∧ (Owns s first n → (∃ c ∈ commands s, c.key = s.cur ∧ ∃ i ∈ c.named, first ≤ i ∧ i < first + n) → Does (.arels a b) s (Held s))
              ∧ (Owns s first n → (∀ c ∈ commands s, c.key = s.cur → ∀ i ∈ c.named, ¬ (first ≤ i ∧ i < first + n)) →
                  GoesOn (.arels a b) s fun t => ∀ j,
                    Sparse.get none (at_ t).slots j = if first ≤ j ∧ j < first + n then none else slotOf s j))
          -- the shape
          ∧ (let f := fieldOf (s.me.crGet 0x200) 0 4
             let coord := s.coordDest d = true ∨ s.coordDest a = true ∨ s.coordDest b = true
             ((13 ≤ f ∨ coord) → Traps (.atile d a b) s .illegal (s.ir.setWidth 64) s.me.pc)
              ∧ (f < 13 → ¬ coord →
                  let m := min (s.rd d).toNat 32
                  let n := min (s.rd a).toNat (if f = 11 ∨ f = 12 then 16 else 32)
                  let k := min (s.rd b).toNat (8 * kPass f)
                  Does (.atile d a b) s fun t =>
                    t.me = ((({ s.me with tileM := m, tileN := n, tileK := k }.wr d.toNat (BitVec.ofNat 64 m)).wr a.toNat
                      (BitVec.ofNat 64 n)).wr b.toNat (BitVec.ofNat 64 k)).advance))
          -- loads
          ∧ (∀ (isB : Bool) (i : Instr), i = (if isB then .aldb a b else .alda a b) →
              let fr := s.me.crGet (if isB then 0x201 else 0x200)
              let f := fieldOf fr 0 4
              let mx := fr.getLsbD 4
              let sparse := !isB && fr.getLsbD 5
              let off := fieldOf (s.rd b) 32 20
              let side := fieldOf (s.me.crGet (if isB then 0x203 else 0x202)) 0 20
              let tadv := fieldOf (s.me.crGet 0x281) 0 2
              let slot := (s.rd a).toNat % 256
              let ends := (off + dataBytes f tadv) :: (if mx then [side + sideBytes f sparse] else [])
              (¬ FormatAllowed f mx sparse isB → Traps i s .illegal (s.ir.setWidth 64) s.me.pc)
                ∧ (FormatAllowed f mx sparse isB →
                    TileTraps i s (s.rd b) ends
                      ∧ ∀ tile, TileReady s (s.rd b) tile ends →
                          ((s.lease = .none ∨ ¬ Owns s slot 1) → Traps i s .slot 0 s.me.pc)
                            ∧ (Owns s slot 1 → s.lease = .asked → Does i s (Held s))
                            ∧ (Owns s slot 1 → CommandReady s → s.anyVectorMemory = none →
                                GoesOn i s fun t => t.mem = s.mem
                                  ∧ tileAt t ((s.rd b).toNat % 64) = some { tile with state := .draining, owner := 3, by_ := s.me.pc.toNat }
                                  ∧ Sparse.get none (at_ t).slots slot = some { owner := s.cur, job := s.me.job, tag := some (f, mx, sparse) }
                                  ∧ ∃ cmd, Entered s t cmd ∧ cmd.op = (if isB then .ldb else .lda) ∧ (if isB then cmd.sb else cmd.sa) = slot
                                      ∧ cmd.tile = (s.rd b).toNat % 64 ∧ cmd.off = off ∧ cmd.fmt = f ∧ cmd.mx = mx
                                      ∧ cmd.sparse = sparse ∧ cmd.side = side ∧ cmd.tadv = tadv
                                      ∧ cmd.tlen = fieldOf (s.me.crGet 0x280) 0 5)))
          -- multiplies
          ∧ (∀ (op : AnvilOp) (i : Instr), (op = .mma ∧ i = .amma d a b) ∨ (op = .mmz ∧ i = .ammz d a b) ∨ (op = .smma ∧ i = .asmma d a b) →
              let sa := (s.rd a).toNat % 256
              let sb := (s.rd b).toNat % 256
              let old := if op = .mmz then 0 else s.accPath d.toNat
              (1 < d.toNat → Traps i s .illegal (s.ir.setWidth 64) s.me.pc)
                ∧ (d.toNat ≤ 1 → (s.lease = .none ∨ s.multiplySlots (op == .smma) sa sb = none) → Traps i s .slot 0 s.me.pc)
                ∧ ∀ row path ta tb, d.toNat ≤ 1 → s.lease ≠ .none → s.multiplySlots (op == .smma) sa sb = some (row, path, ta, tb) →
                    (old ≠ 0 → old ≠ path → Traps i s .slot 0 s.me.pc)
                      ∧ ((old = 0 ∨ old = path) → s.lease = .asked → Does i s (Held s))
                      ∧ ((old = 0 ∨ old = path) → CommandReady s →
                          GoesOn i s fun t => t.mem = s.mem ∧ PathTaken s t d.toNat path
                            ∧ ∃ cmd, Entered s t cmd ∧ cmd.op = op ∧ cmd.acc = d.toNat ∧ cmd.sa = sa ∧ cmd.sb = sb ∧ cmd.ta = ta
                                ∧ cmd.tb = tb ∧ cmd.promo = fieldOf (s.me.crGet 0x204) 0 3))
          -- the accumulator stored and cleared
          ∧ (let ty := (s.rd b).toNat % 32
             let off := fieldOf (s.rd a) 32 20
             let ends := [off + 32 * storeBytes ty * s.me.tileM]
             ((1 < d.toNat ∨ storeBytes ty = 0) → Traps (.astc d a b) s .illegal (s.ir.setWidth 64) s.me.pc)
              ∧ (d.toNat ≤ 1 → storeBytes ty ≠ 0 →
                  TileTraps (.astc d a b) s (s.rd a) ends
                    ∧ ∀ tile, TileReady s (s.rd a) tile ends →
                        ((s.lease = .none ∨ storeFits (s.accPath d.toNat) ty = false) → Traps (.astc d a b) s .slot 0 s.me.pc)
                          ∧ (storeFits (s.accPath d.toNat) ty = true → CommandReady s → s.anyVectorMemory = none →
                              GoesOn (.astc d a b) s fun t => t.mem = s.mem
                                ∧ tileAt t ((s.rd a).toNat % 64) = some { tile with state := .filling, owner := 3, by_ := s.me.pc.toNat }
                                ∧ ∃ cmd, Entered s t cmd ∧ cmd.op = .stc ∧ cmd.acc = d.toNat ∧ cmd.ty = ty ∧ cmd.off = off
                                    ∧ cmd.tile = (s.rd a).toNat % 64)))
          ∧ (1 < d.toNat → Traps (.azero d) s .illegal (s.ir.setWidth 64) s.me.pc)
          ∧ (d.toNat ≤ 1 → s.lease = .none → Traps (.azero d) s .slot 0 s.me.pc)
          ∧ (d.toNat ≤ 1 → CommandReady s →
              GoesOn (.azero d) s fun t => t.mem = s.mem ∧ PathTaken s t d.toNat 0
                ∧ ∃ cmd, Entered s t cmd ∧ cmd.op = .zero ∧ cmd.acc = d.toNat)
          ∧ ((∃ c ∈ commands s, c.key = s.cur) → Does .await s (Held s))
          ∧ ((∀ c ∈ commands s, c.key ≠ s.cur) → exec .await s = .next s.advance))

/-- HAUL, HAULNB, HMILE, TDEF, TSTAT, TSET and TFREE trap ILLEGAL for a destination that is a coordinate register. HAUL and HAULNB are held behind queued vector accesses; with 16 commands in the FIFO a HAUL is held and a HAULNB gives FULL and does nothing else; otherwise each completes: d receives the channel's next id and the command enters with what its request says, or with the code of what is wrong with it. HMILE completes with F and M of the channel. HWAIT traps HAUL for an id never issued and for one at or above a faulted id, completes once M has passed the id, and is held until then. TDEF, TSET and TFREE are held until the strand's transfers have started. Then TDEF traps PROT for the private window, gives INVALID or FULL where R308 says so, and otherwise completes with a new entry under the lowest free id; TSTAT completes with the tile's state word, or status 7; TSET completes with that word and the new state, held before a move to READY while vector accesses are queued, or gives status 6 or 7; TFREE completes with the entry gone, or gives status 6 or 7. The tile instructions change nothing but the tile table and the issuing strand. (That a request is read and checked as its command issues is the choice of log 39, DEDUCED.) -/
def Obligations.HaulAndTiles : Prop :=
  ∀ (s : State) (d a b : BitVec 5),
    let m := s.myCore
    (s.coordDest d = true → ∀ i, i ∈ [Instr.haul d a b, .haulnb d a b, .hmile d a, .tdef d a b, .tstat d a, .tset d a b, .tfree d a] →
        Traps i s .illegal (s.ir.setWidth 64) s.me.pc)
      -- HAUL and HAULNB
      ∧ (let full := 16 ≤ ((s.coreAt m).xfers.filter fun x => x.state == .waiting).length
         let id := BitVec.ofNat 64 (s.chanAt m ((s.rd b).toNat % 4)).next
         s.coordDest d = false →
          (s.anyVectorMemory ≠ none → Does (.haul d a b) s (Held s) ∧ Does (.haulnb d a b) s (Held s))
            ∧ (s.anyVectorMemory = none → full → Does (.haul d a b) s (Held s) ∧ Gives (.haulnb d a b) s d (status 2))
            ∧ (s.anyVectorMemory = none → ¬ full →
                GivesAnd (.haul d a b) s d id (fun t => HaulEntered s t a b) ∧ GivesAnd (.haulnb d a b) s d id fun t => HaulEntered s t a b))
      -- HMILE and HWAIT
      ∧ (s.coordDest d = false → ∃ (v : W64) (M : Nat), Gives (.hmile d a) s d v ∧ IsMilestone s m ((s.rd a).toNat % 4) M
          ∧ v.toNat = (if (s.chanAt m ((s.rd a).toNat % 4)).fault then 2 ^ 63 else 0) + M % 2 ^ 63)
      ∧ (let ch := (s.rd a).toNat % 4
         let i := (s.rd b).toNat
         let c := s.chanAt m ch
         (c.next ≤ i → Traps (.hwait a b) s .haul (s.rd b) s.me.pc)
          ∧ (i < c.next → c.fault = true → c.fid ≤ i → Traps (.hwait a b) s .haul (BitVec.ofNat 64 c.fid) s.me.pc)
          ∧ ∀ M, i < c.next → (c.fault = true → i < c.fid) → IsMilestone s m ch M →
              (i < M → exec (.hwait a b) s = .next s.advance) ∧ (M ≤ i → Does (.hwait a b) s (Held s)))
      ∧ (∀ i dd, tileDest i = some dd → s.coordDest dd = false → ¬ HaulsStarted s → Does i s (Held s))
      -- TDEF
      ∧ (s.coordDest d = false → HaulsStarted s →
          let va := (s.rd a).toNat % 2 ^ 50
          let len := fieldOf (s.rd b) 0 20
          let clean := fieldOf (s.rd b) 20 43 = 0
          (privateVa va = true → Traps (.tdef d a b) s .prot (BitVec.ofNat 64 va) s.me.pc)
            ∧ (privateVa va = false → windowOffset m va = none → Gives (.tdef d a b) s d (status 6))
            ∧ ∀ off, privateVa va = false → windowOffset m va = some off →
                (¬ (RegionAllowed off len ∧ clean ∧ ¬ Overlaps s off len) → Gives (.tdef d a b) s d (status 6))
                  ∧ (RegionAllowed off len → clean → ¬ Overlaps s off len → (∀ id, id < 64 → tileAt s id ≠ none) →
                      Gives (.tdef d a b) s d (status 2))
                  ∧ ∀ id, RegionAllowed off len → clean → ¬ Overlaps s off len → id < 64 → tileAt s id = none →
                      (∀ i, i < id → tileAt s i ≠ none) →
                      GivesAnd (.tdef d a b) s d (BitVec.ofNat 64 id) fun t => OnlyTiles s t
                        ∧ t.tile? m id s.me.job =
                            some { off := off, len := len, job := s.me.job, state := if (s.rd b).getLsbD 63 then .ready else .empty }
                        ∧ ∀ i, i ≠ id → Sparse.get none (t.coreAt m).tiles i = tileAt s i)
      -- TSTAT, TSET, TFREE
      ∧ (s.coordDest d = false →
          let id := (s.rd a).toNat % 64
          let new := (s.rd b).toNat % 4
          let at_ (t : State) (i : Nat) : Option Tile := Sparse.get none (t.coreAt m).tiles i
          (s.tile? m id s.me.job = none →
              Gives (.tstat d a) s d (status 7)
                ∧ (HaulsStarted s → Gives (.tset d a b) s d (status 7) ∧ Gives (.tfree d a) s d (status 7)))
            ∧ ∀ tl, s.tile? m id s.me.job = some tl →
                let refused := (new ≠ 0 ∧ new ≠ 2) ∨ tl.state = .draining
                  ∨ (tl.state = .filling ∧ (tl.owner ≠ 1 ∨ s.tileXfers m id false ≠ 0))
                (∃ v, IsTileWord v tl ∧ Gives (.tstat d a) s d v)
                  ∧ (HaulsStarted s → refused → Gives (.tset d a b) s d (status 6))
                  ∧ (HaulsStarted s → ¬ refused → new = 2 → s.anyVectorMemory ≠ none → Does (.tset d a b) s (Held s))
                  ∧ (HaulsStarted s → ¬ refused → (new = 0 ∨ s.anyVectorMemory = none) →
                      ∃ v, IsTileWord v tl ∧ GivesAnd (.tset d a b) s d v fun t => OnlyTiles s t
                        ∧ at_ t id = some { tl with state := if new = 0 then .empty else .ready, owner := 0, arr := if new = 0 then 0 else tl.arr }
                        ∧ ∀ i, i ≠ id → at_ t i = tileAt s i)
                  ∧ (HaulsStarted s → (tl.state = .filling ∨ tl.state = .draining) → Gives (.tfree d a) s d (status 6))
                  ∧ (HaulsStarted s → (tl.state = .empty ∨ tl.state = .ready) → GivesAnd (.tfree d a) s d 0 fun t => OnlyTiles s t
                      ∧ at_ t id = none ∧ ∀ i, i ≠ id → at_ t i = tileAt s i))

/-- TENC, CSUB, FHARM and FHSEND make their checks in the order of their rules, wait for a busy tile, for the queued vector accesses and for room in their queue, and then enter their command, with the next id or handle in d, the tiles they read DRAINING and those they write FILLING under their owner number. A coding request or fronthaul record that its rules refuse, or whose bytes pass its tile, gives INVALID and takes no tile; FHARM and FHSEND give FULL when the port's 64 are in use. TWAIT and CWAIT trap for an id never issued, go on once their milestone has passed the id, and are held until then; CMILE gives F and M; FHSTAT gives the status word of a kept handle, or UNKNOWN. (Which requests and records the rules allow is the model's CodeReq.valid, FhItem.valid, fhConfigured and fhFits. That FHARM and FHSEND trap TILE_EMPTY before a fault of their record's address is log 46, DEDUCED from the ranking of R194.) -/
def Obligations.EngineRequests : Prop :=
  ∀ (s : State) (d a b : BitVec 5),
    -- TENC
    (let src := (s.rd a).toNat % 64
     let dst := (s.rd b).toNat % 64
     let nseg := fieldOf (s.rd a) 8 6
     let bf := (s.rd a).getLsbD 16
     let soff := fieldOf (s.rd a) 32 20
     let doff := fieldOf (s.rd b) 32 20
     let tadv := fieldOf (s.me.crGet 0x281) 0 2
     let id := (s.coreAt s.myCore).tencNext
     let i : Instr := .tenc d a b
     let bad : Prop := s.coordDest d = true ∨ nseg = 0 ∨ 32 < nseg ∨ src = dst
     (bad → Traps i s .illegal (s.ir.setWidth 64) s.me.pc)
      ∧ (¬ bad → (∀ ts td, myTile s src = some ts → myTile s dst = some td → ts.state = .empty ∨ td.state = .empty) →
          Traps i s .tileEmpty 0 s.me.pc)
      ∧ ∀ ts td, ¬ bad → myTile s src = some ts → myTile s dst = some td → ts.state ≠ .empty → td.state ≠ .empty →
          let fits : Prop := soff + nseg * (96 * (if bf then 2 else 4)) ≤ ts.len ∧ doff + nseg * segmentBytes tadv ≤ td.len
          ((Busy ts ∨ Busy td) → Does i s (Held s))
            ∧ (AtRest ts → AtRest td →
                ((soff % 64 ≠ 0 ∨ doff % 64 ≠ 0) → Traps i s .misalign 0 s.me.pc)
                  ∧ (soff % 64 = 0 → doff % 64 = 0 → ¬ fits → Traps i s .prot 0 s.me.pc)
                  ∧ (soff % 64 = 0 → doff % 64 = 0 → fits →
                      (s.anyVectorMemory ≠ none ∨ 8 ≤ (s.clusterAt s.myCluster).tenc.length) → Does i s (Held s))
                  ∧ (soff % 64 = 0 → doff % 64 = 0 → fits → s.anyVectorMemory = none → (s.clusterAt s.myCluster).tenc.length < 8 →
                      GivesAnd i s d (BitVec.ofNat 64 id) fun t => t.mem = s.mem
                        ∧ tileAt t src = some { ts with state := .draining, owner := 5, by_ := s.me.pc.toNat }
                        ∧ tileAt t dst = some { td with state := .filling, owner := 5, by_ := s.me.pc.toNat }
                        ∧ (t.coreAt s.myCore).tencNext = id + 1
                        ∧ ∃ c : TencCmd, (t.clusterAt s.myCluster).tenc = (s.clusterAt s.myCluster).tenc ++ [c] ∧ c.id = id
                            ∧ c.key = s.cur ∧ c.job = s.me.job ∧ c.core = s.myCore ∧ c.scale = fieldOf (s.rd d) 0 16 ∧ c.src = src
                            ∧ c.soff = soff ∧ c.bf = bf ∧ c.nseg = nseg ∧ c.dst = dst ∧ c.doff = doff ∧ c.tadv = tadv
                            ∧ c.tlen = fieldOf (s.me.crGet 0x280) 0 5 ∧ c.started = false)))
      -- TWAIT, CMILE, CWAIT
      ∧ (let c := s.coreAt s.myCore
         let i := (s.rd a).toNat
         (c.tencNext ≤ i → Traps (.twait a) s .illegal (s.ir.setWidth 64) s.me.pc)
          ∧ (i < c.tencNext → i < c.tmile → exec (.twait a) s = .next s.advance)
          ∧ (i < c.tencNext → c.tmile ≤ i → Does (.twait a) s (Held s))
          ∧ (s.coordDest d = false → ∃ v, IsMileWord v c.codeFault c.cmile ∧ Gives (.cmile d) s d v)
          ∧ (c.codeNext ≤ i → Traps (.cwait a) s .code (s.rd a) s.me.pc)
          ∧ (i < c.codeNext → c.codeFault = true → c.codeFid ≤ i → Traps (.cwait a) s .code (BitVec.ofNat 64 c.codeFid) s.me.pc)
          ∧ (i < c.codeNext → (c.codeFault = true → i < c.codeFid) → i < c.cmile → exec (.cwait a) s = .next s.advance)
          ∧ (i < c.codeNext → (c.codeFault = true → i < c.codeFid) → c.cmile ≤ i → Does (.cwait a) s (Held s)))
      -- CSUB
      ∧ (let va := (s.rd a).toNat % 2 ^ 50
         let y := (s.rd b).toNat % 16
         let i : Instr := .csub d a b
         let id := (s.coreAt s.myCore).codeNext
         let queue (t : State) : List CodeReq := Sparse.get [] t.coding y
         (s.coordDest d = true → Traps i s .illegal (s.ir.setWidth 64) s.me.pc)
          ∧ (s.coordDest d = false → ∀ c, s.request va 64 64 .read = .error c → Traps i s c (BitVec.ofNat 64 va) s.me.pc)
          ∧ ∀ p s1 (r : CodeReq), s.coordDest d = false → s.request va 64 64 .read = .ok (p, s1) →
              r.key = s.cur → r.core = s.myCore → r.job = s.me.job → r.root = s.rootOf s.cur → r.id = id → r.started = false →
              r.words = (List.range 8).map (fun j => s1.read64 (p.loc + 8 * j)) →
              (s.anyVectorMemory ≠ none → Does i s (Held s))
                ∧ (s.anyVectorMemory = none →
                    ((∀ ti tout, myTile s r.tin = some ti → myTile s r.tout = some tout → ti.state = .empty) →
                        ∃ u : State, exec i s = .next (u.raise { key := s.cur, cause := .tileEmpty, tval := 0, tepc := s.me.pc })
                          ∧ (Unsampled s → u.mem = s1.mem) ∧ ∀ k, u.ctxAt k = s.ctxAt k)
                      ∧ ∀ ti tout, myTile s r.tin = some ti → myTile s r.tout = some tout → ti.state ≠ .empty →
                          let fits : Prop := r.valid = true ∧ r.tin ≠ r.tout ∧ r.inOff + r.inBytes ≤ ti.len ∧ r.outOff + r.outBytes ≤ tout.len
                          ((Busy ti ∨ Busy tout) → Does i s (Held s))
                            ∧ (¬ Busy ti → ¬ Busy tout → ¬ fits → GivesAnd i s d (status 6) fun t => queue t = queue s)
                            ∧ (¬ Busy ti → ¬ Busy tout → fits → 64 ≤ (queue s).length → Does i s (Held s))
                            ∧ (¬ Busy ti → ¬ Busy tout → fits → (queue s).length < 64 →
                                GivesAnd i s d (BitVec.ofNat 64 id) fun t => (Unsampled s → t.mem = s1.mem) ∧ queue t = queue s ++ [r]
                                  ∧ (t.coreAt s.myCore).codeNext = id + 1
                                  ∧ tileAt t r.tin = some { ti with state := .draining, owner := 4, by_ := s.me.pc.toNat }
                                  ∧ tileAt t r.tout = some { tout with state := .filling, owner := 4, by_ := s.me.pc.toNat })))
      -- FHARM and FHSEND
      ∧ (∀ (isSend : Bool) (i : Instr), i = (if isSend then .fhsend d a b else .fharm d a b) →
          let va := (s.rd a).toNat % 2 ^ 50
          let id := (s.rd b).toNat % 64
          let hd := (s.coreAt s.myCore).fhNext
          (s.coordDest d = true → Traps i s .illegal (s.ir.setWidth 64) s.me.pc)
            ∧ (s.coordDest d = false → (∀ tl, myTile s id = some tl → tl.state = .empty) → Traps i s .tileEmpty 0 s.me.pc)
            ∧ ∀ tl, s.coordDest d = false → myTile s id = some tl → tl.state ≠ .empty →
                (∀ c, s.request va 8 32 .read = .error c → Traps i s c (BitVec.ofNat 64 va) s.me.pc)
                  ∧ ∀ p s1 (r : FhItem), s.request va 8 32 .read = .ok (p, s1) →
                      r = { core := s.myCore, key := s.cur, job := s.me.job, handle := hd, isSend := isSend, tile := id, order := s.dev.fhOrder
                            words := (List.range 4).map fun j => s1.read64 (p.loc + 8 * j), state := if isSend then .queued else .armed } →
                      let good : Prop := r.valid = true ∧ s1.fhConfigured r.fields = true ∧ s1.fhFits r tl = true
                      ((Busy tl ∨ s.anyVectorMemory ≠ none) → Does i s (Held s))
                        ∧ (AtRest tl → s.anyVectorMemory = none →
                            (¬ good → GivesAnd i s d (status 6) fun t => tileAt t id = some tl)
                              ∧ (good → 64 ≤ s1.portUse r.fields.port isSend → GivesAnd i s d (status 2) fun t => tileAt t id = some tl)
                              ∧ (good → s1.portUse r.fields.port isSend < 64 → GivesAnd i s d (BitVec.ofNat 64 hd) fun t => (Unsampled s → t.mem = s1.mem)
                                  ∧ (t.coreAt s.myCore).fh = (s.coreAt s.myCore).fh ++ [r] ∧ (t.coreAt s.myCore).fhNext = hd + 1
                                  ∧ t.dev.fhOrder = s.dev.fhOrder + 1
                                  ∧ tileAt t id = some { tl with
                                      state := if isSend then .draining else .filling, owner := 2, arr := if isSend then tl.arr else 0
                                      by_ := s.me.pc.toNat })))
      -- FHSTAT
      ∧ (let h := (s.rd a).toNat
         let c := s.coreAt s.myCore
         (s.coordDest d = true → Traps (.fhstat d a) s .illegal (s.ir.setWidth 64) s.me.pc)
          ∧ (s.coordDest d = false → (h + 128 < c.fhNext ∨ ∀ f ∈ c.fh, f.handle ≠ h) → Gives (.fhstat d a) s d (status 7))
          ∧ (s.coordDest d = false → c.fhNext ≤ h + 128 → ∀ f, c.fh.find? (fun f => f.handle == h) = some f →
              ∃ v, Gives (.fhstat d a) s d v
                ∧ fieldOf v 60 3 = (match f.state with | .armed => 1 | .opened => 2 | .closed => 3 | .queued => 4 | .sending => 5 | .sent => 6)
                ∧ v.getLsbD 63 = false ∧ v.getLsbD 59 = f.late ∧ fieldOf v 32 27 = 0
                ∧ fieldOf v 0 32 = (if f.isSend then f.sent else f.slots.length * (if f.fields.mode = 1 then 64 else 48)) % 2 ^ 32))

/-- A coordinate register as the destination of an instruction that R369 does not name traps ILLEGAL. An ALU, MULDIV or immediate instruction may name one: its result is written at once where the pair it makes is the record's own or lies in the strand's own tract, whose record then takes the pair; traps COORD, writing nothing, where the pair is in no tract; and is held, unwritten, where it lies in another tract. The six instructions trap ILLEGAL from a vector strand. WJOIN traps ILLEGAL and COORD as R376 says (that it traps ILLEGAL from a steward too is log 45, DEDUCED), enters the tract of its core where the pair lies there and there is room, with %wcoord, a record of zeros and the handle in d, and is held otherwise. WLEAVE gives up record and count, and every halo where a copy stands is sent its removal; it does nothing for a strand that is no wayfarer. WNEAR stores the nearest records in order and says how many, clamped, lost or more; WPUB takes three words into its own record; WGET stores a record of the job by handle, or gives UNKNOWN; WTRACT reads the map. -/
def Obligations.Wayfarers : Prop :=
  ∀ (s : State) (d a b : BitVec 5),
    (∀ i, plainDest i = some d → s.coordDest d = true → Traps i s .illegal (s.ir.setWidth 64) s.me.pc)
      -- a result for a coordinate register
      ∧ (∀ i p, CoordRule i s d p → s.coordDest d = true → ∃ v, p v
          ∧ let x := (if d.toNat = s.me.xreg then v else s.me.rd s.me.xreg).toNat
            let y := (if d.toNat = s.me.yreg then v else s.me.rd s.me.yreg).toNat
            let kept : Ctx := { s.me with coordWrite := none }
            ((x, y) = s.recordPair s.cur → Does i s fun t => t.me = (kept.wr d.toNat v).advance ∧ t.mem = s.mem)
              ∧ ((x, y) ≠ s.recordPair s.cur →
                  (hostOf s x y = none → TrapsCoord i s (pairWord x y))
                    ∧ (hostOf s x y = some s.myCore → Does i s fun t => t.me = (kept.wr d.toNat v).advance ∧ t.mem = s.mem
                        ∧ ∀ r, s.record? s.myCore s.cur = some r → RecordNow s t { r with x := x, y := y })
                    ∧ ∀ m, hostOf s x y = some m → m ≠ s.myCore → Does i s fun t => WaitsForTract s t x y))
      -- WJOIN and WLEAVE
      ∧ (let x := (s.rd a).toNat
         let y := (s.rd b).toNat
         let i : Instr := .wjoin d a b
         let refused : Prop := s.me.vec = true ∨ isSteward s.cur = true ∨ s.me.wayfarer = true ∨ a = 0 ∨ b = 0 ∨ a = b ∨ d = a ∨ d = b
           ∨ s.me.bindsTarget a = true ∨ s.me.bindsTarget b = true
         (refused → Traps i s .illegal (s.ir.setWidth 64) s.me.pc)
          ∧ (¬ refused → hostOf s x y = none → TrapsCoord i s 0)
          ∧ (¬ refused → hostOf s x y = some s.myCore →
              (s.admissionStands x y = true
                ∨ (s.giveUpAdmission s.cur).tractCount s.myCore < fieldOf ((s.coreAt s.myCore).crGet 0x3C2) 0 4) →
              Does i s fun t =>
                t.me = ((({ s.me with coordWrite := none } : Ctx).crSet 0x3C0 (BitVec.ofNat 64 (2 ^ 63 + a.toNat * 32 + b.toNat))).wr d.toNat
                    (BitVec.ofNat 64 s.cur)).advance
                  ∧ RecordNow s t { key := s.cur, job := s.me.job, x := x, y := y }
                  ∧ t.countsIn (s.cur, s.me.job) = some s.myCore ∧ t.mem = s.mem)
          ∧ (¬ refused → ∀ m, hostOf s x y = some m → (m = s.myCore → s.admissionStands x y = false
                ∧ fieldOf ((s.coreAt s.myCore).crGet 0x3C2) 0 4 ≤ (s.giveUpAdmission s.cur).tractCount s.myCore) →
              Does i s fun t => WaitsForTract s t x y))
      ∧ (s.me.vec = true → Traps .wleave s .illegal (s.ir.setWidth 64) s.me.pc)
      ∧ (s.me.vec = false → s.me.wayfarer = false → exec .wleave s = .next s.advance)
      ∧ (s.me.vec = false → s.me.wayfarer = true → Does .wleave s fun t =>
          t.me = ({ s.me.crSet 0x3C0 0 with coordWrite := none, handover := none } : Ctx).advance
            ∧ t.mem = s.mem ∧ t.countsIn (s.cur, s.me.job) = none ∧ t.record? s.myCore s.cur = none
            ∧ ∀ r, s.record? s.myCore s.cur = some r → ∀ k ∈ r.copies,
                ∃ h ∈ t.way.halo, h.remove = true ∧ h.dst = k ∧ h.record.key = s.cur ∧ h.record.job = s.me.job)
      -- queries
      ∧ (let va := (s.rd b).toNat % 2 ^ 50
         let dist := s.haloDist
         let r := min (s.rd a).toNat dist
         let illegal (i : Instr) : Prop := Traps i s .illegal (s.ir.setWidth 64) s.me.pc
         ((s.me.vec = true ∨ s.coordDest d = true) → illegal (.wnear d a b) ∧ illegal (.wget d a b) ∧ illegal (.wtract d a))
          ∧ ((s.me.vec = true ∨ s.record? s.myCore s.cur = none) → illegal (.wpub a))
          ∧ (s.record? s.myCore s.cur = none → illegal (.wnear d a b))
          ∧ (s.me.vec = false → s.coordDest d = false →
              (va % 8 ≠ 0 → Traps (.wget d a b) s .misalign (BitVec.ofNat 64 va) s.me.pc)
                ∧ (va % 8 = 0 → (∀ p, InReach s p → p.key ≠ (s.rd a).toNat % 4096) → Gives (.wget d a b) s d (status 7))
                ∧ (∀ p s1, va % 8 = 0 → (s.recordsAt s.myCore s.me.job).find? (fun p => p.key == (s.rd a).toNat % 4096) = some p →
                    s.storeRecords va [p] = .ok s1 →
                    exec (.wget d a b) s = .next (s1.wr d (p.words.headD 0)).advance)
                ∧ ∀ q, s.record? s.myCore s.cur = some q →
                    (va % 8 ≠ 0 → Traps (.wnear d a b) s .misalign (BitVec.ofNat 64 va) s.me.pc)
                      ∧ (va % 8 = 0 → ∃ all, IsNearest s q r all
                          ∧ let n := min all.length (fieldOf (s.me.crGet 0x3C4) 0 7)
                            ∀ s1, s.storeRecords va (all.take n) = .ok s1 →
                              ∃ v : W64, exec (.wnear d a b) s = .next (s1.wr d v).advance
                                ∧ v.getLsbD 63 = decide (dist < (s.rd a).toNat) ∧ v.getLsbD 62 = !(s.coreAt s.myCore).lost.isEmpty
                                ∧ v.getLsbD 61 = decide (n < all.length) ∧ fieldOf v 0 61 = n))
          ∧ (∀ q, s.me.vec = false → s.record? s.myCore s.cur = some q →
              let wa := (s.rd a).toNat % 2 ^ 50
              (wa % 8 ≠ 0 → Traps (.wpub a) s .misalign (BitVec.ofNat 64 wa) s.me.pc)
                ∧ (wa % 8 = 0 → ∀ c ad, s.ctxSpan s.cur .read 2 wa 24 = .error (c, ad) → Traps (.wpub a) s c (BitVec.ofNat 64 ad) s.me.pc)
                ∧ (wa % 8 = 0 → ∀ ps s1, s.ctxSpan s.cur .read 2 wa 24 = .ok (ps, s1) →
                    GoesOn (.wpub a) s fun t => (Unsampled s → t.mem = s1.mem)
                      ∧ RecordNow s t { q with
                          u1 := wordIn (s1.readRuns (runsOf ps)) 0, u2 := wordIn (s1.readRuns (runsOf ps)) 1, u3 := wordIn (s1.readRuns (runsOf ps)) 2 }))
          ∧ (s.me.vec = false → s.coordDest d = false →
              let i := fieldOf (s.rd a) 0 5
              let c := fieldOf (s.rd a) 5 4
              (16 < i → Gives (.wtract d a) s d (status 6))
                ∧ (i ≤ 16 → (s.rd a).getLsbD 9 = true → Gives (.wtract d a) s d (BitVec.ofNat 64 (s.way.map.x i)))
                ∧ (i ≤ 16 → (s.rd a).getLsbD 9 = false →
                    Gives (.wtract d a) s d (BitVec.ofNat 64 (s.way.map.y c i + if i = 16 then 0 else s.tractCount (16 * i + c) % 16 * 2 ^ 32)))))

/-- A coordinate register as destination traps ILLEGAL. A request that comes to the scheduler finds the held operations that can complete gone ahead of it. SPAWN accepts a valid record as one more queued job of the executing job, and gives its id, INVALID or NOSPACE. JDONE is held while the child runs, gives a retained value once and UNKNOWN otherwise. QPUSH and QPOP trap QUEUE on a queue that is not enabled; a push goes to the chip part, or to the ring once records are there or the chip part is full, and a pop takes the chip part's oldest record and stores it; each gives the count after it. Without room or record the result is FULL or EMPTY, or with WAIT the strand is held and its operation stands at the queue, as that of a pop does whose record a refill is still to bring. QLEN gives the snapshot. CHSEND, CHRECV and CHREL trap QUEUE outside a route or at its ends and act on the channel as R238 says, or give GONE. TIME gives device time, SLACK the saturated difference, for a steward with the deadline of the strand in %tslot. TRACE writes a user record where %dtctl.USER is set and the ring has a base; CNTRD and CNTCFG act as R390 says. A refused operation changes no queue, channel or job. (How a record is checked is the model's prepare, the id it gets its newId; a request is served when its instruction issues, log 3.) -/
def Obligations.SchedulerResults : Prop :=
  ∀ (s : State) (d a b : BitVec 5),
    (∀ i, schedDest i = some d → s.coordDest d = true → Traps i s .illegal (s.ir.setWidth 64) s.me.pc)
      ∧ (s.coordDest d = false →
        let va := (s.rd a).toNat % 2 ^ 50
        let wait := (s.rd b).getLsbD 8
        let q := (s.rd b).toNat % 64
        let on := (s.queueDesc q).w1.getLsbD 32
        let cap := fieldOf (s.queueDesc q).w1 0 17
        -- what a request finds
        Asked s s.toScheduler
          ∧ (∀ p s1 acc, s.spawnPlace va = .ok (p, s1) ∨ RecordAt s a acc p s1 → Asked s1 (s1.withRecord p (acc == .write)))
          -- SPAWN and JDONE
          ∧ (∀ c, s.spawnPlace va = .error c → Traps (.spawn d a) s c (BitVec.ofNat 64 va) s.me.pc)
          ∧ (∀ p s1, s.spawnPlace va = .ok (p, s1) → s.anyVectorMemory ≠ none → Does (.spawn d a) s (Held s))
          ∧ (∀ p s1, s.spawnPlace va = .ok (p, s1) → s.anyVectorMemory = none →
              let u := s1.withRecord p false
              let rec_ := recordOf (u.readBytes p.loc 64)
              (u.prepare u.myCore (u.rootOf s.cur) rec_ = none → Refused u (.spawn d a) s d 6)
                ∧ ∀ list s3, u.prepare u.myCore (u.rootOf s.cur) rec_ = some (list, s3) →
                    (16384 ≤ u.sched.jobs.length → Refused u (.spawn d a) s d 5)
                      ∧ (u.sched.jobs.length < 16384 → GivesAt u (.spawn d a) s d (BitVec.ofNat 64 s3.newId) fun t =>
                          (s3.newId ≠ 0 → ∀ k ∈ u.sched.jobs, k.id ≠ s3.newId ∧ k.tree ≠ s3.newId)
                            ∧ ∃ j : Job, t.sched.jobs = u.sched.jobs ++ [j] ∧ j.id = s3.newId ∧ j.parent = u.me.job ∧ j.state = .queued
                                ∧ j.list = list ∧ j.record.w0 = rec_.w0 ∧ j.record.w1 = rec_.w1 ∧ j.record.w2 = rec_.w2
                                ∧ (rec_.w3 ≠ 0 → j.record.w3 = rec_.w3)
                                ∧ (rec_.w3 = 0 → isSteward s.cur = false → u.me.crGet 0x400 ≠ 0 → j.record.w3 = u.me.crGet 0x400)
                                ∧ (treeOf rec_ ≠ 0 → j.tree = treeOf rec_) ∧ (treeOf rec_ = 0 → u.myTree ≠ 0 → j.tree = u.myTree)))
          ∧ (let child := (s.rd a).toNat
             let u := s.toScheduler
             (ChildRuns s child → Does (.jdone d a) s fun t => HeldAt u t .jdone ∧ LeavesHeld s t.sched.held 4 d ∧ t.mem = u.mem)
              ∧ (¬ ChildRuns s child → ∀ v, u.retainedFor s.me.job child = some v →
                  GivesAt u (.jdone d a) s d v fun t => t.mem = u.mem ∧ t.retainedFor s.me.job child = none)
              ∧ (¬ ChildRuns s child → u.retainedFor s.me.job child = none → Refused u (.jdone d a) s d 7))
          -- the checks of the record instructions
          ∧ (∀ i acc, ((i = .qpush d a b ∨ i = .chsend d a b) ∧ acc = .read) ∨ ((i = .qpop d a b ∨ i = .chrecv d a b) ∧ acc = .write) →
              (∀ c, s.request va 64 64 acc = .error c → Traps i s c (BitVec.ofNat 64 va) s.me.pc)
                ∧ ∀ p s1, RecordAt s a acc p s1 →
                    ((i = .qpush d a b ∨ i = .qpop d a b) → on = false → Traps i s .queue 0 s.me.pc)
                      ∧ ((i = .qpush d a b ∨ i = .qpop d a b) → on = true → s.anyVectorMemory ≠ none → Does i s (Held s))
                      ∧ ((i = .chsend d a b ∨ i = .chrecv d a b) → s.stageOf s.cur = none → Traps i s .queue 0 s.me.pc))
          -- queues
          ∧ (∀ p s1, RecordAt s a .read p s1 → on = true → s.anyVectorMemory = none →
              let i : Instr := .qpush d a b
              let u := s1.withRecord p false
              let x := u.queueAt q
              let bs := u.readBytes p.loc 64
              let spills := x.ring ≠ [] ∨ 32 ≤ x.chip.length
              let full := spills ∧ cap ≤ x.ring.length
              (full → wait = false → Refused u i s d 2)
                ∧ (full → wait = true → Does i s fun t => HeldAt u t .queue ∧ LeavesHeld s (t.queueAt q).held 0 d)
                ∧ (¬ full → GivesAt u i s d (BitVec.ofNat 64 (QueueCount x + 1)) fun t =>
                    (spills → (t.queueAt q).chip = x.chip ∧ (t.queueAt q).ring = x.ring ++ [bs]
                        ∧ t.mem = pokeBytes u.mem (fieldOf (s.queueDesc q).w0 12 36 * 4096 + 64 * ((x.head + x.ring.length) % max cap 1)) bs)
                      ∧ (¬ spills → (t.queueAt q).chip = x.chip ++ [bs] ∧ (t.queueAt q).ring = x.ring ∧ t.mem = u.mem)))
          ∧ (∀ p s1, RecordAt s a .write p s1 → on = true → s.anyVectorMemory = none →
              let i : Instr := .qpop d a b
              let u := s1.withRecord p true
              let x := u.queueAt q
              let none_ := QueueCount x ≤ (x.held.filter fun h => h.kind == 1).length
              (none_ → wait = false → Refused u i s d 1)
                ∧ ((none_ ∧ wait = true ∨ ¬ none_ ∧ x.chip = []) → Does i s fun t => HeldAt u t .queue ∧ LeavesHeld s (t.queueAt q).held 1 d)
                ∧ ∀ r rs, ¬ none_ → x.chip = r :: rs → GivesAt u i s d (BitVec.ofNat 64 (QueueCount x - 1)) fun t =>
                    (t.queueAt q).chip = rs ∧ (t.queueAt q).ring = x.ring ∧ t.mem = pokeBytes u.mem p.loc r)
          ∧ (on = false → Traps (.qlen d b) s .queue 0 s.me.pc)
          ∧ (let u := s.toScheduler
             let x := u.queueAt q
             on = true → GivesAt u (.qlen d b) s d
              (BitVec.ofNat 64 ((if x.ring ≠ [] then 2 ^ 63 else 0) + x.chip.length * 2 ^ 32 + QueueCount x)) fun t => t.sched = u.sched)
          -- channels
          ∧ (∀ r n, s.stageOf s.cur = some (r, n) →
              (∀ p s1, RecordAt s a .read p s1 →
                let i : Instr := .chsend d a b
                let u := s1.withRecord p false
                (r.stages.length ≤ n + 1 → Traps i s .queue 0 s.me.pc)
                  ∧ (n + 1 < r.stages.length → s.anyVectorMemory ≠ none → Does i s (Held s))
                  ∧ (n + 1 < r.stages.length → s.anyVectorMemory = none → ∀ x, u.sched.routes.find? (fun y => y.id == r.id) = some x →
                      let c := x.channels.getD n {}
                      let gone := (x.statuses.getD (n + 1) none).isSome = true
                      let room := c.records.length + c.taken < c.allowance
                      (gone → Refused u i s d 3)
                        ∧ (¬ gone → ¬ room → wait = false → Refused u i s d 2)
                        ∧ (¬ gone → ¬ room → wait = true → Does i s fun t => HeldAt u t .channel ∧ LeavesHeld s t.sched.held 2 d)
                        ∧ (¬ gone → room → n < x.channels.length →
                            GivesAt u i s d (BitVec.ofNat 64 (c.allowance - c.records.length - c.taken - 1)) fun t => t.mem = u.mem
                              ∧ channelOf t r.id n = some { c with records := c.records ++ [u.readBytes p.loc 64] })))
                ∧ (∀ p s1, RecordAt s a .write p s1 →
                    let i : Instr := .chrecv d a b
                    let u := s1.withRecord p true
                    (n = 0 → Traps i s .queue 0 s.me.pc)
                      ∧ (0 < n → s.anyVectorMemory ≠ none → Does i s (Held s))
                      ∧ (0 < n → s.anyVectorMemory = none → ∀ x, u.sched.routes.find? (fun y => y.id == r.id) = some x →
                          let c := x.channels.getD (n - 1) {}
                          let gone := (x.statuses.getD (n - 1) none).isSome = true
                          (c.records = [] → gone → Refused u i s d 3)
                            ∧ (c.records = [] → ¬ gone → wait = false → Refused u i s d 1)
                            ∧ (c.records = [] → ¬ gone → wait = true → Does i s fun t => HeldAt u t .channel ∧ LeavesHeld s t.sched.held 3 d)
                            ∧ ∀ bs bss, c.records = bs :: bss → n - 1 < x.channels.length →
                                GivesAt u i s d (BitVec.ofNat 64 (c.taken + 1)) fun t => t.mem = pokeBytes u.mem p.loc bs
                                  ∧ channelOf t r.id (n - 1) = some { c with records := bss, taken := c.taken + 1 }))
                ∧ (let u := s.toScheduler
                   ((n = 0 ∨ (r.channels.getD (n - 1) {}).taken = 0) → Traps (.chrel d) s .queue 0 s.me.pc)
                    ∧ (0 < n → 0 < (r.channels.getD (n - 1) {}).taken → ∀ x, u.sched.routes.find? (fun y => y.id == r.id) = some x →
                        let c := x.channels.getD (n - 1) {}
                        n - 1 < x.channels.length → GivesAt u (.chrel d) s d (BitVec.ofNat 64 (c.taken - 1)) fun t =>
                          t.mem = u.mem ∧ channelOf t r.id (n - 1) = some { c with taken := c.taken - 1 })))
          ∧ (s.stageOf s.cur = none → Traps (.chrel d) s .queue 0 s.me.pc)
          -- time and debug
          ∧ Gives (.time d) s d s.dev.time
          ∧ (∃ v : W64, Gives (.slack d a) s d v
              ∧ ∀ k, (isSteward s.cur = false ∧ k = s.cur ∨ isSteward s.cur = true ∧ s.crStrand s.cur = some k) →
                  v.toInt = max (-(2 ^ 63)) (min (2 ^ 63 - 1) ((((s.ctxAt k).crGet 0x400).toNat : Int) - s.dev.time.toNat - (s.rd a).toInt)))
          ∧ (let c := s.coreAt s.myCore
             let base := fieldOf (c.crGet 0x483) 12 36 * 4096
             let user := (c.crGet 0x484).getLsbD 6
             ((user = false ∨ base = 0) → exec (.trace a b) s = .next s.advance)
              ∧ (user = true → base ≠ 0 → GoesOn (.trace a b) s fun t =>
                  (t.coreAt s.myCore).crGet 0x485 = c.crGet 0x485 + 1
                    ∧ ∃ ws, IsUserRecord s a b ws
                        ∧ t.mem = pokeBytes s.mem (base + 32 * ((c.crGet 0x485).toNat % 2 ^ fieldOf (c.crGet 0x484) 0 5))
                            (ws.flatMap fun w => leBytes 8 w.toNat)))
          ∧ (let c := s.coreAt s.myCore
             let sel := s.rd a
             let counter := fieldOf sel 12 4 = 0 ∧ fieldOf sel 3 9 = 0
             let entry := fieldOf sel 12 4 = 1 ∧ fieldOf sel 8 4 = 0 ∧ fieldOf sel 3 1 = 0 ∧ fieldOf sel 0 3 ≤ 4
             (counter → Gives (.cntrd d a) s d (c.crGet (0x490 + fieldOf sel 0 3)))
              ∧ (entry → ((∀ e, c.stalls.getD (fieldOf sel 4 4) none = some e → e.job ≠ s.me.job) → Gives (.cntrd d a) s d 0)
                  ∧ ∀ e, c.stalls.getD (fieldOf sel 4 4) none = some e → e.job = s.me.job →
                      Gives (.cntrd d a) s d (BitVec.ofNat 64 (match fieldOf sel 0 3 with
                        | 0 => e.ppc | 1 => e.cpc | 2 => e.lost | 3 => e.maxlag | _ => e.count)))
              ∧ (¬ counter → ¬ entry → Gives (.cntrd d a) s d (status 6)))
          ∧ (let c := s.coreAt s.myCore
             let k := fieldOf (s.rd a) 0 3
             let bad := 15 < fieldOf (s.rd b) 0 8 ∨ fieldOf (s.rd b) 13 51 ≠ 0
             (bad → Gives (.cntcfg d a b) s d (status 6))
              ∧ (¬ bad → GivesAnd (.cntcfg d a b) s d (c.crGet (0x498 + k)) fun t => t.mem = s.mem
                  ∧ (t.coreAt s.myCore).crGet (0x498 + k) = s.rd b ∧ (t.coreAt s.myCore).crGet (0x490 + k) = 0)))

/-- DOORBELL sets RPROD. The packet at the head of the served ring is taken as its kind says: LAUNCH_ROUTE queues every stage of its template, as the template's header lays it out, as a job, or none; LAUNCH_JOB queues one job of the host; WRITE stores its words, and nothing else of memory changes; WRITE_SIGNAL stores the data and then the signal word; ABANDON_TREE abandons the tree; a discarded packet counts in RERR with the RCONS it stood at; each time RCONS goes past the packet. SLICE_EXPIRY passes to the next ring. The host's accesses to BAR0 are of eight bytes, aligned, and act as R391 says, or complete as Unsupported Requests; a new firmware image counts while the device waits for one. A steward's write of a control register acts on it; a fault cleared in %hstat or %cstat goes with what was discarded meanwhile; %tflags keeps the bits written 1. LOCK reads the tables once and extends hallmarks 4 and 5; posted writes land before it and are dropped after it; an acknowledged fence ends. When the twin link goes down, a transfer in flight through its window is severed, a load whose result has not come returns all ones, and each core that had such an access outstanding is sent a notice. An invalidation empties a core's translations, or its cached lines and break bits. (The packet's kind, and what abandoning does, are the model's packet and abandonTree. The model's choices: that RERR's index is RCONS at the packet, and how far RCONS goes, log 37; that a step whose condition does not hold leaves the state, log 13; that every posted write is dropped after the lock, and what a twin access outstanding comes to, log 23; that the tables come with the LOCK step, log 12; where an invalidation's message goes, log 20.) -/
def Obligations.HostSteps : Prop :=
  ∀ s : State,
    let m := s.input.core.toNat
    (let r := s.input.index.toNat % 16
     Does .doorbell s fun t => OnlyDevice s t ∧ (t.dev.ringReg r 2).toNat = s.input.value.toNat % 2 ^ 32
        ∧ ∀ q i, i < 4 → (q ≠ r ∨ i ≠ 2) → t.dev.ringReg q i = s.dev.ringReg q i)
      ∧ (∀ r, s.servedRing = some r →
          (s.packet r = .route → Does .launchRoute s fun t => PastPacket s t r ∧
              ∃ tp, s.dev.tables.templates[(s.packetWord r 1).toNat]? = some tp
                ∧ let h := headerWord tp
                  let n := fieldOf (h 0) 0 4
                  let rs := (tp.records.take (n + 1)).map fun x : JobRecord => { x with w1 := s.packetWord r 3, w3 := s.packetWord r 2 }
                  (∀ i, s.prepareAll 0 rs = .error i → t.sched.jobs = s.sched.jobs ∧ t.sched.routes = s.sched.routes)
                    ∧ ∀ ls s1, s.prepareAll 0 rs = .ok (ls, s1) →
                        t.sched.jobs.length = s.sched.jobs.length + (n + 1)
                          ∧ ∃ run : RouteRun, t.sched.routes = s.sched.routes ++ [run] ∧ run.id = s.sched.nextRoute
                              ∧ run.statuses = List.replicate (n + 1) none ∧ run.caddr = fieldOf (h 0) 17 47 * 8 ∧ run.scope = fieldOf (h 0) 4 3
                              ∧ run.channels = (List.range n).map fun k => ({ allowance := fieldOf (h (k + 1)) 0 6 } : Channel))
            ∧ (s.packet r = .job → Does .launchJob s fun t => PastPacket s t r
                ∧ t.sched.jobs.length = s.sched.jobs.length + 1
                ∧ ∃ j ∈ t.sched.jobs, j.hosted = true ∧ j.state = .queued ∧ j.parent = 0 ∧ j.record.w0 = s.packetWord r 1
                    ∧ j.record.w1 = s.packetWord r 2 ∧ j.record.w2 = s.packetWord r 3)
            ∧ (s.packet r = .write →
                let pa := (s.packetWord r 1).toNat
                let n := s.packetWords r - 1
                Does .writePacket s fun t => PastPacket s t r ∧ t.sched = s.sched ∧ KeepsMemoryBut s t pa (8 * n)
                  ∧ ∀ i, i < n → bytesAt t (pa + 8 * i) 8 = (s.packetWord r (2 + i)).toNat)
            ∧ (s.packet r = .signal →
                let pa := (s.packetWord r 1).toNat
                let sg := (s.packetWord r 2).toNat
                let n := s.packetWords r - 3
                Does .writeSignal s fun t => PastPacket s t r ∧ t.sched = s.sched ∧ bytesAt t sg 8 = (s.packetWord r 3).toNat
                  ∧ (∀ i, i < n → pa + 8 * i ≠ sg → bytesAt t (pa + 8 * i) 8 = (s.packetWord r (4 + i)).toNat)
                  ∧ ∀ a, (a < pa ∨ pa + 8 * n ≤ a) → (a < sg ∨ sg + 8 ≤ a) → t.readByte a = s.readByte a)
            ∧ (s.packet r = .abandon →
                exec .abandonTree s = .next ((s.abandonTree (fieldOf (s.packetWord r 1) 0 32)).pastPacket r
                  (min (s.packetEntries r) (s.dev.ringCount r))))
            ∧ (s.packet r = .discard → Does .discardedPacket s fun t => PastPacket s t r ∧ t.sched = s.sched
                ∧ (s.discardWord r = false → t.mem = s.mem)
                ∧ let old := Sparse.get 0 s.dev.rerr r
                  let new := Sparse.get 0 t.dev.rerr r
                  fieldOf new 0 32 = (s.dev.ringReg r 3).toNat % 2 ^ 32 ∧ fieldOf new 32 32 = min (fieldOf old 32 32 + 1) (2 ^ 32 - 1)))
      ∧ Does .sliceExpiry s (fun t => t.dev.serving = (s.dev.serving + 1) % 16 ∧ t.mem = s.mem ∧ t.sched = s.sched)
      -- registers
      ∧ (∀ off size, s.input.port = .bar off size ∨ s.input.port = .barRead off size → ¬ (size = 8 ∧ off % 8 = 0) →
          exec .registerWrite s = .next { s with dev := { s.dev with completion := .unsupported } })
      ∧ (∀ off, s.input.port = .bar off 8 → off % 8 = 0 → Does .registerWrite s fun t => t.dev.completion = .written ∧ WritesAs s t off s.input.value)
      ∧ (∀ off, s.input.port = .barRead off 8 → off % 8 = 0 →
          ∃ v, ReadsAs s off v ∧ exec .registerWrite s = .next { s with dev := { s.dev with completion := .read v } })
      ∧ (∀ i, s.input.port = .image i → Does .registerWrite s fun t => (s.dev.recov = false → t = s)
          ∧ (s.dev.recov = true → OnlyDevice s t ∧ ∀ k, k < 3 →
              t.dev.images.getD k {} = if k = i then s.input.boot.images.headD {} else s.dev.images.getD k {}))
      ∧ (∀ c n, s.input.port = .cr c n →
          exec .registerWrite s = .next (if crAssigned n.toNat then s.crWrite (4096 + c.toNat) n.toNat s.input.value else s))
      ∧ (let ch := s.input.index.toNat % 4
         ((s.chanAt m ch).fault = false → exec .hstatFaultClear s = .next s)
          ∧ ((s.chanAt m ch).fault = true → Does .hstatFaultClear s fun t =>
              (t.chanAt m ch).fault = false ∧ (t.chanAt m ch).next = (s.chanAt m ch).next
                ∧ (∀ x ∈ (t.coreAt m).xfers, x.chan = ch → x.state ≠ .faulted ∧ x.state ≠ .discarded)
                ∧ t.mem = s.mem ∧ t.ctx = s.ctx))
      ∧ Does .cstatFaultClear s (fun t => (t.coreAt m).codeFault = false ∧ t.mem = s.mem ∧ t.ctx = s.ctx
          ∧ ((s.coreAt m).codeFault = true → (t.coreAt m).codeDiscard = []
              ∧ ∀ i, i ∈ (t.coreAt m).codeOpen ↔ i ∈ (s.coreAt m).codeOpen ∧ i ≠ (s.coreAt m).codeFid ∧ i ∉ (s.coreAt m).codeDiscard))
      ∧ Does .tflagsClear s (fun t => t.mem = s.mem ∧ t.ctx = s.ctx
          ∧ ∀ j, j < 2 → (t.coreAt m).tflags.getLsbD j = ((s.coreAt m).tflags.getLsbD j && s.input.value.getLsbD j))
      -- the lock
      ∧ ((s.dev.locked = true ∨ s.input.value.getLsbD 0 = false) → exec .lock s = .next s)
      ∧ (s.dev.locked = false → s.input.value.getLsbD 0 = true → Does .lock s fun t => OnlyDevice s t
          ∧ t.dev.locked = true ∧ t.dev.tables = s.input.tables ∧ t.dev.cbase = s.dev.cbase ∧ t.dev.csize = s.dev.csize
          ∧ (∀ k m, (k = 4 ∧ m = shake256 (s.readBytes (fieldOf s.dev.cbase 21 27 * 2 ^ 21) (s.dev.csize.toNat * 2 ^ 21))
                ∨ k = 5 ∧ m = shake256 (leBytes 8 s.dev.feaen.toNat)) →
              Sparse.get 0 t.dev.hallmarks k = shake256 (leBytes 64 (Sparse.get 0 s.dev.hallmarks k).toNat ++ leBytes 64 m.toNat))
          ∧ ∀ k, k ≠ 4 → k ≠ 5 → Sparse.get 0 t.dev.hallmarks k = Sparse.get 0 s.dev.hallmarks k)
      ∧ (s.dev.locked = true → Does .postedWrite s fun t => OnlyDevice s t ∧ t.dev.dropped = s.dev.dropped + 1)
      ∧ (s.dev.locked = false → s.input.addr.toNat + s.input.bytes.length ≤ 0x6000000000 → Does .postedWrite s fun t =>
          t.mem = pokeBytes s.mem s.input.addr.toNat s.input.bytes ∧ t.dev = s.dev ∧ t.sched = s.sched ∧ t.ctx = s.ctx)
      ∧ ((s.coreAt m).fenced = true → Does .fencedAcknowledge s fun t => (t.coreAt m).fenced = false ∧ m ∉ t.dev.reported
          ∧ t.sched.choosing = true ∧ t.sched.jobs = s.sched.jobs ∧ t.ctx = s.ctx ∧ t.mem = s.mem)
      ∧ ((s.coreAt m).fenced = false → exec .fencedAcknowledge s = .next s)
      ∧ Does .twinLinkUp s (fun t => OnlyDevice s t ∧ t.dev.twinUp = true)
      ∧ Does .twinLinkDown s (fun t => t.dev = { s.dev with twinUp := false } ∧ t.mem = s.mem ∧ t.sched = s.sched
          ∧ (∀ c, c < 256 → ∀ x ∈ (s.coreAt c).xfers, x.state = .inFlight → (∃ r ∈ x.spans, inTwin r.1 = true) →
              { x with severed := true } ∈ (t.coreAt c).xfers ∧ ∃ q ∈ t.mesh.flight, q.cls = .sys ∧ q.kind = .twin ∧ q.dst = c)
          ∧ (∀ c, c < 256 → (∃ q ∈ s.mesh.flight, q.src = c ∧ q.dst = twinStop ∨ q.src = twinStop ∧ q.dst = c) →
              ∃ q ∈ t.mesh.flight, q.cls = .sys ∧ q.kind = .twin ∧ q.dst = c)
          ∧ ∀ k, ∀ l ∈ (s.ctxAt k).late, ∀ v, l.reg ≠ 0 → s.now < l.at_ → l.ones = some v → (s.ctxAt k).isCoord l.reg = false →
              (∀ l' ∈ (s.ctxAt k).late, l'.reg = l.reg → l' = l) → (t.ctxAt k).rd l.reg = v)
      -- invalidations
      ∧ Does .translationInvalidation s (fun t => (t.coreAt m).tlb = [] ∧ t.ctx = s.ctx ∧ t.mem = s.mem ∧ t.dev = s.dev
          ∧ (∃ q, t.mesh.flight = s.mesh.flight ++ [q] ∧ q.cls = .sys ∧ q.src = m)
          ∧ ∀ c, c ≠ m → t.coreAt c = s.coreAt c)
      ∧ Does .instructionCacheInvalidation s (fun t => (t.coreAt m).lines = [] ∧ (t.coreAt m).breaks = [] ∧ t.ctx = s.ctx ∧ t.mem = s.mem
          ∧ t.dev = s.dev ∧ ∀ c, c ≠ m → t.coreAt c = s.coreAt c)

/-- RESET puts every register, job, queue and unit at its reset value and keeps memory and the fuses; the boot chain checks each image's signature, digest and version: where a check fails, RECOV and its code are set and no context runs; otherwise RDY is set and every core's steward runs at the image's entry with its root and vector base; hallmarks 0 to 3 are extended with the ROM's digest and those of the images that passed. GET_MEASUREMENTS answers the eight hallmarks, HALLMARK_EXTEND extends the named one alone with the hash of old and digest, SPDM_REQUEST answers what the standard says (log 11). The governor's measurement is %pmeas, with the measurements above 750 W in a row counted; after 100 of them the tier drops by one; after 10 measurements at which the higher tier keeps within the budget it rises by one; at 105 °C it goes to tier 3 and no rise comes before the junction has cooled; a clock switch takes the new tier. PATROL_SCRUB changes nothing that software sees. (The model's choices: that RESET keeps memory, log 6; which of several failed checks gives the code, log 11; what the power at the next higher tier is, log 30; that a step whose condition does not hold leaves the state, log 13; that an error that comes to a line in a home cache is told with PATROL_SCRUB, log 22.) -/
def Obligations.BootAndPower : Prop :=
  ∀ s : State,
    let b := s.input.boot
    (Does .reset s fun t => t.mem = s.mem ∧ UnitsReset t ∧ t.dev.rootKey = s.dev.rootKey ∧ t.dev.rollback = s.dev.rollback
        ∧ (∀ i, i < 3 → t.dev.images.getD i {} = bootImage s i) ∧ t.dev.locked = State.reset.dev.locked ∧ t.dev.tier = State.reset.dev.tier ∧ t.dev.ring = State.reset.dev.ring
        ∧ (let digest (k : Nat) : BitVec 512 := if k = 0 then Config.romDigest else (bootImage s (k - 1)).digest
           ∀ k, k < 4 → (∀ i, i < k → bootFault s i = 0) →
            Sparse.get 0 t.dev.hallmarks k = shake256 (leBytes 64 0 ++ leBytes 64 (digest k).toNat))
        ∧ (∀ n, BootStops s n → t.dev.recov = true ∧ t.dev.ready = false ∧ t.dev.berr.toNat = bootFault s n ∧ t.ctx = State.reset.ctx
            ∧ t.core = State.reset.core)
        ∧ (BootPasses s → t.dev.recov = false ∧ t.dev.ready = true ∧ t.dev.berr = 0 ∧ ∀ m, m < 256 →
            (t.ctxAt (4096 + m)).hold = .ready ∧ (t.ctxAt (4096 + m)).pc = b.entry.setWidth 50
              ∧ (t.coreAt m).crGet 0x807 = BitVec.ofNat 64 (fieldOf b.root 18 30 * 2 ^ 18)
              ∧ (t.coreAt m).crGet 0x800 = BitVec.ofNat 64 (fieldOf b.tvec 12 38 * 2 ^ 12)))
      ∧ Does .getMeasurements s (fun t => OnlyDevice s t ∧ t.dev.hallmarks = s.dev.hallmarks
          ∧ t.dev.spdm = (List.range 8).map fun k => Sparse.get 0 s.dev.hallmarks k)
      ∧ (let k := 6 + s.input.index.toNat % 2
         Does .hallmarkExtend s fun t => OnlyDevice s t
          ∧ Sparse.get 0 t.dev.hallmarks k
              = shake256 (leBytes 64 (Sparse.get 0 s.dev.hallmarks k).toNat ++ leBytes 64 s.input.digest.toNat)
          ∧ ∀ j, j ≠ k → Sparse.get 0 t.dev.hallmarks j = Sparse.get 0 s.dev.hallmarks j)
      ∧ Does .spdmRequest s (fun t => OnlyDevice s t ∧ t.dev.spdm = Config.spdmAnswer s.input.bytes)
      ∧ Does .governorMeasurement s (fun t => OnlyDevice s t ∧ t.dev.pmeas.toNat = s.input.num.toNat % 2 ^ 20
          ∧ t.dev.overruns = (if 750000 < t.dev.pmeas.toNat then s.dev.overruns + 1 else 0)
          ∧ t.dev.within = (if t.projectedHigher ≤ (fieldOf (s.dev.crGet 0x403) 0 20 : Int) then s.dev.within + 1 else 0))
      ∧ (s.dev.overruns < 100 → exec .powerExceeded s = .next s)
      ∧ (100 ≤ s.dev.overruns → Does .powerExceeded s fun t => OnlyDevice s t ∧ t.dev.overruns = 0 ∧ t.dev.tier = s.dev.tier
          ∧ t.dev.switching = if s.tierNow = 3 then s.dev.switching else some (s.tierNow + 1))
      ∧ (let may := 10 ≤ s.dev.within ∧ s.dev.tier ≠ 0 ∧ s.dev.thermal = false ∧ s.dev.switching = none
         (¬ may → exec .tierRise s = .next s)
          ∧ (may → Does .tierRise s fun t => OnlyDevice s t ∧ t.dev.switching = some (s.dev.tier - 1) ∧ t.dev.tier = s.dev.tier
              ∧ t.dev.within = 0))
      ∧ Does .junctionTemperature s (fun t => OnlyDevice s t ∧ t.dev.thermal = true ∧ t.dev.switching = some 3)
      ∧ Does .junctionCooled s (fun t => OnlyDevice s t ∧ t.dev.thermal = false ∧ t.dev.switching = s.dev.switching)
      ∧ (s.dev.switching = none → exec .clockSwitch s = .next s)
      ∧ (∀ x, s.dev.switching = some x → Does .clockSwitch s fun t => OnlyDevice s t ∧ t.dev.tier = x ∧ t.dev.switching = none)
      ∧ (let line := s.input.addr.toNat / 32
         ((s.input.struck = false ∨ 0x6000000000 ≤ line * 32) → exec .patrolScrub s = .next s)
          ∧ (s.input.struck = true → line * 32 < 0x6000000000 → Does .patrolScrub s fun t =>
              t = { s with dev := { s.dev with badLines := t.dev.badLines } } ∧ ∀ l, l ∈ t.dev.badLines ↔ l ∈ s.dev.badLines ∨ l = line))

/-- A tick of the scheduler moves time to the next multiple of 32 ns (and by a phase step), and the cycle count by the cycles that come with the step or have been counted, and asks for a choice, which the next one makes; a placed strand becomes ready; an acknowledged crew becomes PREEMPTED with its strands kept, or is cut where the watchdog asked; a deadline abandons the job, so that without descendants a queued job ends ABANDONED_UNSTARTED and a running one is cut, or has its notices and its grace; grace, watchdog, fence and steward cut it; a job that completes is gone, its word written. SYS takes the oldest message and lets one held operation complete that can, each kind with the result and the record of its rule, and where none can nothing else changes. A refill moves the ring's oldest record, and what waited for it goes on; a held operation that times out returns TIMEOUT, unless the operations that can complete then take it along; a wake notice, the end of %waitto and a changed double-word return a WAITA, and a spurious notice lets its strand take a slot to read again; a phase is released in its cycle, with the strands whose wait ended before it on their time-out, and a wait that times out returns; a pending trap is delivered to its steward, or the oldest notice of a held strand raised; a strip stop writes its record and traps. The tract map unit takes a map while no wayfarer exists, admits a request where there is room and leaves it waiting where neither its tract nor a vertical neighbour has any, its answer lets the strand go on or sends it out, a migrant arrives in its place once its state is the next message of its pair, and copies of the map and of records follow. (Model's choices, not the spec's: that a step that is not due changes nothing is log 13; that a load of a map is a step of index 1, log 12; which jobs a stage's abandonment and its word wait for, logs 33 and 35; which cores a fence takes and whom it cuts, log 36; parks, notices to held strands and the value a notice brings, log 44; the release of a phase that an END completes and of a tie with a time-out, log 57; the slot a migrant holds and the order in which halo changes land, log 59. What abandoning, cutting, completing, rebalancing and choosing do in full is the model's abandon, cutJob, complete, tryHandOver and choose.) -/
def Obligations.JobSteps : Prop :=
  ∀ s : State,
    let m := s.input.core.toNat
    let k := s.input.key.toNat
    let c := s.ctxAt k
    let job := s.input.job.toNat
    (s.sched.choosing = true → exec .schedulerTick s = .next s.choose)
      ∧ (s.sched.choosing = false → Does .schedulerTick s fun t => t.sched.choosing = true
          ∧ (s.input.num.toNat ≤ s.rounds → t.mem = s.mem ∧ t.ctx = s.ctx)
          ∧ (∀ n, t.ctxAt n = { s.ctxAt n with stall := (t.ctxAt n).stall }) ∧ (Unsampled s → t.mem = s.mem)
          ∧ t.dev.time.toNat = ((s.dev.time.toNat / 32 + 1) * 32 + s.dev.phaseStep.toNat) % 2 ^ 64 ∧ t.dev.phaseStep = 0
          ∧ t.dev.cycle.toNat = (s.dev.cycle.toNat + max s.input.num.toNat s.rounds) % 2 ^ 64 ∧ t.rounds = 0 ∧ t.sched.jobs.length = s.sched.jobs.length)
      ∧ (c.hold = .placed → isSteward k = false → Does .firstInstruction s fun t => t.ctxAt k = { c with hold := .ready } ∧ t.mem = s.mem
          ∧ t.sched = s.sched)
      ∧ ((c.hold ≠ .placed ∨ isSteward k = true) → exec .firstInstruction s = .next s)
      -- jobs
      ∧ (s.job? job = none → ∀ i, (i = .preemptionAck ∨ i = .deadlineTick ∨ i = .graceExpiry ∨ i = .watchdogRun ∨ i = .watchdogKill
            ∨ i = .watchdogFence ∨ i = .stewardEndsJob ∨ i = .completion ∨ i = .crossingRelease) → exec i s = .next s)
      ∧ (∀ j, s.job? job = some j →
          (s.stopsLate j = false → s.ackReady j = false → exec .preemptionAck s = .next s)
            ∧ (s.stopsLate j = false → s.ackReady j = true → j.runAsked = none → Does .preemptionAck s fun t => t.sched.choosing = true
                ∧ JobNow t j.id fun x => x.state = .preempted ∧ x.preempt = false ∧ x.live = [] ∧ x.saved.map (·.key) = j.live
                    ∧ x.places = j.places ∧ x.channel = j.channel)
            ∧ (s.stopsLate j = false → s.ackReady j = true → j.runAsked ≠ none → Does .preemptionAck s fun t => CutBegun t j.id .killed)
            ∧ (exec .deadlineTick s = .next (if s.deadlineDue j then s.abandon j else s))
            ∧ (s.deadlineDue j = true → j.state = .queued → s.descendants j = [] → j.stage = none → Does .deadlineTick s fun t =>
                t.mem = s.mem ∧ JobNow t j.id fun x => x.state = .finished ∧ x.status = .abandonedUnstarted ∧ x.acted = true)
            ∧ (s.deadlineDue j = true → j.state = .running → s.descendants j = [] → j.stage = none →
                ((policyOf j.record = 0 ∨ graceOf j.record = 0) → Does .deadlineTick s fun t => CutBegun t j.id .abandonedCut)
                  ∧ (policyOf j.record ≠ 0 → graceOf j.record ≠ 0 → Does .deadlineTick s fun t => t.mem = s.mem
                      ∧ (∀ n ∈ j.live, Cause.deadline ∈ (t.ctxAt n).notices)
                      ∧ JobNow t j.id fun x => x.state = .running ∧ x.acted = true ∧ x.graceEnd = some (s.dev.time.toNat + graceOf j.record)))
            ∧ (s.graceDue j = false → exec .graceExpiry s = .next s)
            ∧ (s.graceDue j = true → s.downstreamRuns j = false → Does .graceExpiry s fun t => CutBegun t j.id .abandonedCut)
            ∧ (s.runDue j = false → exec .watchdogRun s = .next s)
            ∧ (s.runDue j = true → Does .watchdogRun s fun t => t.mem = s.mem
                ∧ JobNow t j.id fun x => x.preempt = true ∧ x.runAsked = some s.dev.time.toNat ∧ x.state = j.state)
            ∧ (s.killDue j = false → exec .watchdogKill s = .next s)
            ∧ (s.killDue j = true → Does .watchdogKill s fun t => CutBegun t j.id .killed)
            ∧ (s.fenceDue j = false → exec .watchdogFence s = .next s)
            ∧ (s.fenceDue j = true → Does .watchdogFence s fun t => (∀ n ∈ s.uncutCores j.id, FencedCore t n)
                ∧ JobNow t j.id fun x => x.cutAt = none)
            ∧ ((j.state ≠ .running ∨ ∀ n ∈ j.live, (s.ctxAt n).hold ≠ .trapped) → exec .stewardEndsJob s = .next s)
            ∧ (j.state = .running → (∃ n ∈ j.live, (s.ctxAt n).hold = .trapped) →
                Does .stewardEndsJob s fun t => CutBegun t j.id .faulted)
            ∧ (s.completionDue j = false → exec .completion s = .next s)
            ∧ (s.completionDue j = true → Does .completion s fun t => t = s.complete j ∧ t.job? j.id = none
                ∧ ∀ n, IsEndCode s j n → j.stage = none → policyOf j.record ≠ 2 → Unsampled s →
                    (caddrOf j.record = 0 → t.mem = s.mem)
                      ∧ (caddrOf j.record ≠ 0 → ∀ s1, s.engineWrite schedCore j.root (caddrOf j.record)
                          (leBytes 8 ((j.id * 2 ^ 32 + n) % 2 ^ 64)) = .ok s1 → t.mem = s1.mem))
            ∧ (s.releaseDue j = false → exec .crossingRelease s = .next s)
            ∧ (s.releaseDue j = true → Does .crossingRelease s fun t => t.mem = s.mem
                ∧ (JobNow t j.id fun x => x.phase = j.phase + 1 ∧ x.arrived = [])
                ∧ ∀ n ∈ j.live, (s.ctxAt n).hold = .cross → ∀ r, IsReleaseCycle j r →
                    let lim := fieldOf ((s.ctxAt n).crGet 0x032) 0 32
                    ∃ e : Bool, t.ctxAt n = { s.ctxAt n with hold := .ready, expired := e }
                      ∧ (e = true ↔ (s.ctxAt n).expired = true ∨ (lim ≠ 0 ∧ (s.ctxAt n).since + lim < r))))
      -- queues
      ∧ (let s1 : State := match s.oldestOf .sys with
           | none => s
           | some x => { s with
               mesh := { s.mesh with flight := s.mesh.flight.erase x }
               dev := { s.dev with twinNotices := s.dev.twinNotices ++ if x.kind = .twin then [x.dst] else [] } }
         (NoneCanComplete s1 → exec .sys s = .next s1) ∧ (¬ NoneCanComplete s1 → Does .sys s (Served s1))
          ∧ (s1.serveOne = none ↔ NoneCanComplete s1) ∧ ∀ t, s1.serveOne = some t → Served s1 t)
      ∧ (let q := s.input.num.toNat
         (s.refillDue q = false → exec .refill s = .next s)
          ∧ ∀ r rs, s.refillDue q = true → (s.queueAt q).ring = r :: rs → Does .refill s fun t => ∃ u : State,
              (Sparse.rising s.sched.queues = true → CatchesUp u t)
                ∧ (u.queueAt q).ring = rs ∧ u.mem = s.mem ∧ u.ctx = s.ctx ∧ QueueCount (u.queueAt q) = QueueCount (s.queueAt q)
                ∧ (s.readBytes (ringSlot (s.queueDesc q) (s.queueAt q).head) 64 = r → (u.queueAt q).chip = (s.queueAt q).chip ++ [r]))
      -- strands that wait
      ∧ ((s.heldBy k = none ∨ s.holdExpired k = false) → exec .timeout s = .next s)
      ∧ (s.holdExpired k = true → ∃ u : State, (Sparse.rising s.sched.queues = true → CatchesUp s u)
          ∧ (u.heldBy k = none → exec .timeout s = .next u)
          ∧ ∀ h, u.heldBy k = some h → Does .timeout s fun t => t.ctxAt k = Returned (u.ctxAt k) h.d (status 4) ∧ t.mem = u.mem
              ∧ ((u.ctxAt k).hold = c.hold → t.heldBy k = none))
      ∧ (∀ n v rest, s.notices = (n, v) :: rest →
          ((s.ctxAt n).hold ≠ .waita → exec .wakeNotice s = .next { s with notices := rest })
            ∧ ((s.ctxAt n).hold = .waita → Does .wakeNotice s fun t =>
                t.notices = rest ∧ (∀ d x, v = some (d, x) → t.ctxAt n = Returned (s.ctxAt n) d x)
                  ∧ (v = none → t.ctxAt n = { s.ctxAt n with recheck := true })))
      ∧ (s.notices = [] → exec .wakeNotice s = .next s)
      ∧ (s.parkOf k = none → exec .waitaTimeout s = .next s ∧ exec .waitaReload s = .next s)
      ∧ (∀ p, s.parkOf k = some p →
          (s.parkExpired k = false → exec .waitaTimeout s = .next s)
            ∧ (s.parkExpired k = true → Does .waitaTimeout s fun t => t.ctxAt k = Returned c p.d p.seen ∧ t.parkOf k = none ∧ t.mem = s.mem)
            ∧ ((c.hold ≠ .waita ∨ s.parkValue p = p.cmp) → exec .waitaReload s = .next s)
            ∧ (c.hold = .waita → s.parkValue p ≠ p.cmp → Does .waitaReload s fun t =>
                t.ctxAt k = Returned c p.d (s.parkValue p) ∧ t.parkOf k = none ∧ t.mem = s.mem))
      ∧ (s.crossExpired k = false → exec .crossingTimeout s = .next s)
      ∧ (s.crossExpired k = true → Does .crossingTimeout s fun t => t = s.setCtx k { c with hold := .ready, expired := true })
      ∧ (∀ p ps, (s.coreAt m).servicing = false → (s.coreAt m).traps = p :: ps → Does .trapDelivery s fun t =>
          (t.coreAt m).servicing = true ∧ (t.coreAt m).traps = ps
            ∧ TrapStateOf (t.coreAt m) p ((s.ctxAt p.key).here % 16) (s.ctxAt (4096 + m)).pc
            ∧ (t.ctxAt (4096 + m)).hold = .ready ∧ (t.ctxAt (4096 + m)).g = (s.ctxAt (4096 + m)).g
            ∧ (t.ctxAt (4096 + m)).pc.toNat = (fieldOf ((s.coreAt m).crGet 0x800) 12 38 * 2 ^ 12 + 64 * causeCode p.cause) % 2 ^ 50
            ∧ (∀ n, n ≠ 4096 + m → t.ctxAt n = s.ctxAt n) ∧ (Unsampled s → t.mem = s.mem))
      ∧ (((s.coreAt m).servicing = true ∨ (s.coreAt m).traps = []) →
          (s.noticed m = none → exec .trapDelivery s = .next s)
            ∧ ∀ n cause rest, s.noticed m = some n → (s.ctxAt n).notices = cause :: rest → exec .trapDelivery s = .next
                ((s.setCtx n { s.ctxAt n with notices := rest }).raise { key := n, cause := cause, tval := 0, tepc := (s.ctxAt n).resumePc }))
      ∧ (s.stripDue m = none → exec .stripStop s = .next s)
      ∧ (∀ n, s.stripDue m = some n → ∃ u : State,
          exec .stripStop s = .next (u.raise
              { key := n, cause := .brk, tval := BitVec.ofNat 64 (fieldOf ((s.ctxAt n).crGet 0x10B) 0 32), tepc := (s.ctxAt n).pc })
            ∧ u.ctxAt n = { s.ctxAt n with breakAt := some (s.ctxAt n).pc } ∧ (∀ x, x ≠ n → u.ctxAt x = s.ctxAt x)
            ∧ let r := s.coreAt (s.coreOf n)
              let base := fieldOf (r.crGet 0x483) 12 36 * 4096
              (base = 0 → u.mem = s.mem)
                ∧ (base ≠ 0 → (u.coreAt (s.coreOf n)).crGet 0x485 = r.crGet 0x485 + 1
                    ∧ ∃ ws, IsStopRecord s n ws
                        ∧ u.mem = pokeBytes s.mem (base + 32 * ((r.crGet 0x485).toNat % 2 ^ fieldOf (r.crGet 0x484) 0 5))
                            (ws.flatMap fun w => leBytes 8 w.toNat)))
      -- the tract map unit and migration
      ∧ (s.input.index = 1 →
          ((s.dev.tables.cells = none ∨ s.way.counts ≠ []) → exec .tractMapRequest s = .next s)
            ∧ ∀ xb yb, s.dev.tables.cells = some (xb, yb) → s.way.counts = [] →
                (¬ MapAllowed xb yb → exec .tractMapRequest s = .next s)
                  ∧ (MapAllowed xb yb → exec .tractMapRequest s = .next
                      { s with way := { s.way with map := { xb := xb, yb := yb }, version := s.way.version + 1, updates := List.range 256 } }))
      ∧ (∀ n ns, s.input.index ≠ 1 → s.way.left = n :: ns →
          let rest : State := { s with way := { s.way with left := ns } }
          let near (r : TractReq) : Prop := s.wantedTract r = n ∨ s.wantedTract r = n + 16 ∨ s.wantedTract r + 16 = n
          ((∀ r ∈ s.way.waiting, ¬ near r) → exec .tractMapRequest s = .next rest)
            ∧ (∀ r, s.way.waiting = [r] → near r → Admissible s r → Does .tractMapRequest s fun t => t.way.waiting = []
                ∧ AdmittedTo s t r (s.wantedTract r))
            ∧ Does .tractMapRequest s fun t => t.mem = s.mem ∧ t.sched = s.sched ∧ t.dev = s.dev)
      ∧ (s.input.index ≠ 1 → s.way.left = [] → s.nextRequest = none → exec .tractMapRequest s = .next s)
      ∧ (∀ r, s.input.index ≠ 1 → s.way.left = [] → s.nextRequest = some r →
          let dst := s.wantedTract r
          let full (n : Nat) : Prop := fieldOf ((s.coreAt n).crGet 0x3C2) 0 4 ≤ s.tractCount n
          (Admissible s r → Does .tractMapRequest s fun t => t.mem = s.mem ∧ AdmittedTo s t r dst ∧ ∀ q ∈ t.way.requests, q.key ≠ r.key)
            ∧ (s.countsIn (s.who r.key) ≠ some dst → full dst → (∀ n, n < 256 → (n + 16 = dst ∨ n = dst + 16) → full n) →
                Does .tractMapRequest s fun t => t.mem = s.mem ∧ t.ctx = s.ctx ∧ t.way.waiting = s.way.waiting ++ [r]
                  ∧ r.key ∈ t.way.answers ∧ ∀ q ∈ t.way.requests, q.key ≠ r.key))
      ∧ (k ∉ s.way.answers → exec .tractMapAnswer s = .next s)
      ∧ (∀ w, k ∈ s.way.answers → c.coordWrite = some w →
          (w.admitted = false → Does .tractMapAnswer s fun t => k ∉ t.way.answers ∧ t.mem = s.mem
              ∧ t.ctxAt k = { c with
                  coordWrite := some { w with answered := true }, since := if w.answered then c.since else s.now })
            ∧ (w.admitted = true → w.join = false → s.countsIn (s.who k) = some (s.coreOf k) → Does .tractMapAnswer s fun t => t.mem = s.mem
                ∧ t.ctxAt k = (({ c with coordWrite := none, hold := .ready } : Ctx).wr w.d w.v).advance)
            ∧ (w.admitted = true → w.join = true → s.countsIn (s.who k) = some (s.coreOf k) → Does .tractMapAnswer s fun t => t.mem = s.mem
                ∧ t.countsIn (s.who k) = some (s.coreOf k)
                ∧ t.ctxAt k = ((({ c with coordWrite := none, hold := .ready } : Ctx).crSet 0x3C0
                    (BitVec.ofNat 64 (2 ^ 63 + w.xreg * 32 + w.yreg))).wr w.d (BitVec.ofNat 64 k)).advance)
            ∧ (w.admitted = true → s.countsIn (s.who k) ≠ some (s.coreOf k) →
                (s.wayPlace k = none → exec .tractMapAnswer s = .next s)
                  ∧ ∀ p, s.wayPlace k = some p → Does .tractMapAnswer s fun t => (Unsampled s → t.mem = s.mem)
                      ∧ t.ctxAt k = { c with hold := .migrate p, again := true }))
      ∧ ((∀ p, c.hold = .migrate p → s.arrives k p = false) →
          (s.strayState k = none → exec .migration s = .next s)
            ∧ (s.strayState k ≠ none → Does .migration s fun t => t.mem = s.mem ∧ t.ctx = s.ctx ∧ t.core = s.core ∧ t.sched = s.sched
                ∧ t.way = s.way))
      ∧ (∀ p, c.hold = .migrate p → s.arrives k p = true → c.coordWrite = none → Does .migration s fun t => t.mem = s.mem
          ∧ t.ctxAt k = { c with here := p, hold := .ready, handover := none, levels := c.levels.map fun l => { l with words := [] } }
          ∧ ∀ r, s.record? (s.coreOf k) k = some r → ∃ cs, t.record? (p / 16) k = some { r with copies := cs })
      ∧ (s.handOverReady k = false → exec .handover s = .next s)
      ∧ (∀ p, s.handOverReady k = true → s.wayPlace k = some p → Does .handover s fun t => (t.ctxAt k).hold = .migrate p
          ∧ (t.ctxAt k).pc = c.pc ∧ (t.ctxAt k).g = c.g)
      ∧ (s.tractFullDue k = false → exec .tractFull s = .next s)
      ∧ (s.tractFullDue k = true → exec .tractFull s = .next ((s.onCtx k fun c => { c with coordWrite := none }).raise
          { key := k, cause := .tractFull, tval := 0, tepc := c.pc }))
      ∧ (m ∉ s.way.updates → exec .mapCopyUpdate s = .next s)
      ∧ (m ∈ s.way.updates → Does .mapCopyUpdate s fun t => (t.coreAt m).map = s.way.map ∧ (t.coreAt m).mapVersion = s.way.version
          ∧ (t.coreAt m).shown = none ∧ m ∉ t.way.updates ∧ t.ctx = s.ctx ∧ t.mem = s.mem)
      ∧ (s.haloNext m = none → exec .haloUpdate s = .next s)
      ∧ (∀ h, s.haloNext m = some h → Does .haloUpdate s fun t => t.mem = s.mem ∧ t.ctx = s.ctx
          ∧ let same (r : WayRecord) : Prop := r.key = h.record.key ∧ r.job = h.record.job
            (h.remove = true → (∀ r ∈ (t.coreAt m).halo, ¬ same r) ∧ (h.record.key, h.record.job) ∉ (t.coreAt m).lost)
              ∧ (h.remove = false → (h.record ∈ (t.coreAt m).halo ∧ (h.record.key, h.record.job) ∉ (t.coreAt m).lost)
                  ∨ ((t.coreAt m).halo = (s.coreAt m).halo ∧ (h.record.key, h.record.job) ∈ (t.coreAt m).lost))
              ∧ ∀ r ∈ (s.coreAt m).halo, ¬ same r → r ∈ (t.coreAt m).halo)

/-- While the schedule holds a step, the next step of the machine is that one, with what it carries (the schedule is the model's way to let the outside act, log 4). A transfer that starts takes its tile and is in flight; one that completes has moved its bytes and its tile and is done, and a struck one performs some leading chunks and has MEM to record; a fault is recorded in its channel, once. A free lease goes to the winner, an idle one is to pass; the first anvil command not started starts, to complete in the cycle its class gives, and of those started the one with the earliest cycle completes, its results where its rule puts them; commands of the trellis encoder and the coding engines start at the head of their lists and leave them when they complete, with their tiles at rest and their milestone past them; an uncorrectable error is marked in %astat.ERR and the job, and in %tflags.ERR; a coding fault is recorded once, with its code, and leaves the request uncounted. Fronthaul items arrive, open, close, expire, launch and finish, each when its time has come, and what a send puts out bears the time of its start; of a received section the PRBs that match no window are reported, and one of a single PRB is dropped, counted early, late or duplicate, or takes its slot in the window armed first; a frame from a link that is up goes to the steward. The oldest request is answered or waits for its line, a store merges its bytes by their mask and closes the line's window, a returned line answers every registered reader by a message that names them all and each held request in its own, and the oldest response is taken, each copy of a multicast counted. A parity error counts at the receiver, which clears its copy, answers RETRY and discards; when the RETRY reaches the sender, the messages of the pair that are still kept are sent again in order, the first with RST. An image enters the inbox of the strand it is for. (Model's choices, not the spec's: that a step that is not due changes nothing is log 13; that an uncorrectable error comes with a step and what it leaves, log 22; the chunks a transfer or a coding request has written when it stops, logs 22 and 40; the order of a PRB's mantissas and when a frame leaves, log 29; the written bytes of a line that the L2 does not hold, log 49; the TAG of a copy and who is no multicast's reader, log 20. What a send's frames hold is the model's sendData.) -/
def Obligations.EngineSteps : Prop :=
  ∀ s : State,
    let m := s.input.core.toNat
    let y := s.input.index.toNat % 32
    let e := s.input.index.toNat % 16
    (∀ i x rest, s.schedule = (i, x) :: rest → step s = exec i { s with schedule := rest, input := x })
      -- haul
      ∧ (let named := (s.coreAt m).xfers.find? fun x => x.chan == s.input.index.toNat && x.id == s.input.num.toNat
         (named = none → exec .transferStart s = .next s ∧ exec .transferComplete s = .next s ∧ exec .haulFault s = .next s)
          ∧ ∀ x, named = some x →
              (s.xferStarts m x = false → exec .transferStart s = .next s)
                ∧ (s.xferStarts m x = true → x.len ≠ 0 → Does .transferStart s fun t => XferNow t m x (fun z => z.state = .inFlight)
                    ∧ ∀ tl, s.xferTile m x = some tl →
                        (tileStart (some tl) x = .fill →
                            Sparse.get none (t.coreAt m).tiles x.tile = some { tl with state := .filling, owner := 1, arr := 0, by_ := x.pc })
                          ∧ (tileStart (some tl) x = .drain →
                            Sparse.get none (t.coreAt m).tiles x.tile = some { tl with state := .draining, owner := 1, by_ := x.pc }))
                ∧ ((x.state ≠ .inFlight ∨ x.code ≠ 0) → exec .transferComplete s = .next s)
                ∧ (x.state = .inFlight → x.code = 0 →
                    (s.xferStruck x = false → Does .transferComplete s fun t => XferNow t m x (fun _ => False)
                        ∧ ∀ tl, Sparse.get none (s.coreAt m).tiles x.tile = some tl → TransferDone s t m x tl)
                      ∧ (s.xferStruck x = true → Does .transferComplete s fun t => XferNow t m x (fun z => z.code = 7)
                          ∧ ∃ n, (s.xferLost x = none → n = s.input.value.toNat)
                            ∧ (Unsampled s → t.mem = (s.performChunks ((s.xferWrites m x).take n)).mem)))
                ∧ ((x.state ≠ .inFlight ∨ x.code = 0) → exec .haulFault s = .next s)
                ∧ (x.state = .inFlight → x.code ≠ 0 → Does .haulFault s fun t => t.mem = s.mem ∧ (t.chanAt m x.chan).fault = true
                    ∧ ((s.chanAt m x.chan).fault = false → (t.chanAt m x.chan).code = x.code ∧ (t.chanAt m x.chan).fid = x.id)
                    ∧ ((s.chanAt m x.chan).fault = true → t.chanAt m x.chan = s.chanAt m x.chan)))
      -- the anvil
      ∧ (let cl := s.clusterAt y
         ((cl.holder ≠ none ∨ cl.requests = []) → exec .leaseWin s = .next s)
          ∧ (∀ k, cl.holder = none → s.leaseWinner y = some k → Does .leaseWin s fun t => (t.clusterAt y).holder = some k
              ∧ (t.clusterAt y).used = 0 ∧ k ∉ (t.clusterAt y).requests ∧ k ∈ cl.requests)
          ∧ (s.leaseIdle y = false → exec .leaseIdlePass s = .next s)
          ∧ (∀ k, s.leaseIdle y = true → cl.holder = some k → Does .leaseIdlePass s fun t => k ∈ (t.clusterAt y).requests
              ∧ ((∀ c ∈ (s.coreAt (s.coreOf k)).anvil, c.started = true) → (t.clusterAt y).holder = none)
              ∧ ((∃ c ∈ (s.coreAt (s.coreOf k)).anvil, c.started = false) → (t.clusterAt y).holder = some k ∧ (t.clusterAt y).passing = true)))
      ∧ (s.startable m = none → exec .anvilCommandStart s = .next s)
      ∧ (∀ c, s.startable m = some c → (c.multiplies = true → pairRow c.fa c.fb ≠ none) → Does .anvilCommandStart s fun t =>
          t.mem = s.mem ∧ t.ctx = s.ctx ∧ ∃ before after e, (s.coreAt m).anvil = before ++ c :: after ∧ (∀ b ∈ before, b.started = true)
            ∧ c.started = false ∧ (t.coreAt m).anvil = before ++ { c with started := true, endsAt := e } :: after ∧ IsEndCycle s m c e)
      ∧ ((∀ c ∈ (s.coreAt m).anvil, c.started = false) → exec .anvilCommandComplete s = .next s)
      ∧ (∀ c, (s.coreAt m).finishing = some c → Does .anvilCommandComplete s fun t => (t.coreAt m).anvil = (s.coreAt m).anvil.erase c
          ∧ c.started = true ∧ (∀ x ∈ (s.coreAt m).anvil, x.started = true → c.endsAt ≤ x.endsAt)
          ∧ (s.anvilStruck c = false → CommandDone s t m c)
          ∧ (s.anvilStruck c = true → (t.ctxAt c.key).anvilErr = true
              ∧ (s.job? (s.ctxAt c.key).job ≠ none → JobNow t (s.ctxAt c.key).job fun x => x.struck = true)))
      -- the encoder
      ∧ (∀ c cs, (s.clusterAt y).tenc = c :: cs →
          (Does .tencStart s fun t => t.mem = s.mem ∧ (t.clusterAt y).tenc = { c with started := true } :: cs)
            ∧ (c.started = false → exec .tencComplete s = .next s)
            ∧ (c.started = true → Does .tencComplete s fun t => (t.clusterAt y).tenc = cs ∧ c.id ∉ (t.coreAt c.core).tencOpen
                ∧ (s.input.struck = true → (t.coreAt c.core).tflags.getLsbD 1 = true)
                ∧ ∀ n tl, (n = c.src ∨ n = c.dst) → Sparse.get none (t.coreAt c.core).tiles n = some tl → tl.state = .ready ∧ tl.owner = 0))
      ∧ ((s.clusterAt y).tenc = [] → exec .tencComplete s = .next s ∧ Does .tencStart s fun t => t.mem = s.mem ∧ (t.clusterAt y).tenc = [])
      -- the coding engines
      ∧ (Sparse.get [] s.coding e = [] →
          exec .codingRequestStart s = .next s ∧ exec .codingRequestComplete s = .next s ∧ exec .codingFault s = .next s)
      ∧ (∀ r rs, Sparse.get [] s.coding e = r :: rs →
          (Does .codingRequestStart s fun t => t.mem = s.mem ∧ Sparse.get [] t.coding e = { r with started := true } :: rs)
            ∧ (r.started = false → exec .codingRequestComplete s = .next s ∧ exec .codingFault s = .next s)
            ∧ (r.started = true → s.codeFault r = none → Does .codingRequestComplete s fun t => r.id ∉ (t.coreAt r.core).codeOpen
                ∧ (∀ q ∈ Sparse.get [] t.coding e, ¬ (q.core = r.core ∧ q.id = r.id))
                ∧ ∀ n tl, (n = r.tin ∨ n = r.tout) → Sparse.get none (t.coreAt r.core).tiles n = some tl → tl.state = .ready ∧ tl.owner = 0)
            ∧ (r.started = true → s.codeFault r = none → s.input.struck = false → exec .codingFault s = .next s)
            ∧ (∀ code, r.started = true → (if s.input.struck = true then code = 7 else s.codeFault r = some code) →
                Does .codingFault s fun t => (t.coreAt r.core).codeFault = true
                ∧ ((∃ e, s.codeBuffer r = .error e) → Unsampled s → t.mem = s.mem)
                ∧ ((s.coreAt r.core).codeFault = false → (t.coreAt r.core).codeFid = r.id ∧ (t.coreAt r.core).codeCode = code)
                ∧ ∀ q ∈ Sparse.get [] t.coding e, ¬ (q.core = r.core ∧ q.id = r.id)))
      -- fronthaul
      ∧ (let named := (s.coreAt m).fh.find? fun f => f.handle == s.input.num.toNat
         (∀ i, (i = .portArrival ∨ i = .windowOpen ∨ i = .windowClose ∨ i = .windowExpiry ∨ i = .sendLaunch ∨ i = .sendFinish) →
            named = none → exec i s = .next s)
          ∧ ∀ f, named = some f → f.core = m →
              (f.travels = false → exec .portArrival s = .next s)
                ∧ (f.travels = true → f.isSend = true → f.start ≠ 0 → f.start < s.dev.time.toNat → Does .portArrival s fun t =>
                    t.mem = s.mem ∧ (t.coreAt m).crGet 0x34E = (s.coreAt m).crGet 0x34E + 1
                      ∧ ItemNow t m f.handle fun g => g.arrived = true ∧ g.late = true ∧ (LineFree s f → g.state = .sending))
                ∧ (f.travels = true → (f.isSend = false ∨ f.start = 0 ∨ s.dev.time.toNat ≤ f.start) → Does .portArrival s fun t =>
                    t.mem = s.mem ∧ ItemNow t m f.handle fun g => g.arrived = true ∧ (f.isSend = true → g.late = false))
                ∧ (s.opensNow f = true → Does .windowOpen s fun t => t.mem = s.mem ∧ ItemNow t m f.handle fun g => g.state = .opened)
                ∧ (s.opensNow f = false → exec .windowOpen s = .next s)
                ∧ (s.closesNow f = true → Does .windowClose s fun t => t.mem = s.mem
                    ∧ (ItemNow t m f.handle fun g => g.state = .closed ∧ g.closedAt = s.dev.time.toNat
                        ∧ g.late = decide (g.slots.length * g.fields.z < g.fields.bytes false))
                    ∧ ∀ tl, Sparse.get none (t.coreAt m).tiles f.tile = some tl → tl.state = .ready ∧ tl.owner = 0)
                ∧ (s.closesNow f = false → exec .windowClose s = .next s)
                ∧ (s.expiresNow f = true → Does .windowExpiry s fun t => t.mem = s.mem ∧ ItemNow t m f.handle fun g => g.gone = true)
                ∧ (s.expiresNow f = false → exec .windowExpiry s = .next s)
                ∧ (s.launchesNow f = true → Does .sendLaunch s fun t => t.mem = s.mem ∧ ItemNow t m f.handle fun g => g.state = .sending)
                ∧ (s.launchesNow f = false → exec .sendLaunch s = .next s)
                ∧ (f.leaving = true → Does .sendFinish s fun t => t.mem = s.mem ∧ (ItemNow t m f.handle fun g => g.state = .sent)
                    ∧ (∀ tl, Sparse.get none (t.coreAt m).tiles f.tile = some tl → tl.state = .ready ∧ tl.owner = 0)
                    ∧ ∃ fs, t.dev.sent = s.dev.sent ++ fs
                      ∧ fs.map (fun x => { x with stamp := 0 }) = (s.sendData f).map (fun x => { x with stamp := 0 })
                      ∧ fs.Pairwise (fun x y => x.stamp ≤ y.stamp)
                      ∧ ∀ x ∈ fs, f.launchedAt ≤ x.stamp ∧ (f.launchedAt ≤ s.dev.time.toNat → x.stamp ≤ s.dev.time.toNat))
                ∧ (f.leaving = false → exec .sendFinish s = .next s))
      ∧ (let u := s.input.section_
         let f := fhFields u.w0 u.w1
         let at_ := s.stamp
         let n := u.prbs.length
         (s.linkUp f.port f.half = false → exec .uPlaneMessage s = .next s)
          ∧ (s.linkUp f.port f.half = true → (∀ i, i < n → ∀ p ∈ s.core, ∀ w ∈ p.2.fh, ¬ Covers w f (f.prb0 + i) at_) →
              exec .uPlaneMessage s = .next { s with dev := { s.dev with prbReports := s.dev.prbReports + n } })
          ∧ ∀ bs w, s.linkUp f.port f.half = true → u.prbs = [bs] → TakenBy s f f.prb0 at_ w →
              let g := w.fields
              let slot := (f.sym0 - g.sym0) * g.nprb + (f.prb0 - g.prb0)
              let counts (c : Nat) : Prop := Does .uPlaneMessage s fun t => OnlyCounts s t w.core c
              (g.width ≠ f.width → Does .uPlaneMessage s fun t => t.mem = s.mem ∧ t.ctx = s.ctx ∧ t.dev = s.dev
                  ∧ (t.coreAt w.core).fh = (s.coreAt w.core).fh ∧ (t.coreAt w.core).crGet 0x34C = (s.coreAt w.core).crGet 0x34C + 1)
                ∧ (g.width = f.width →
                    (at_ < w.start → counts 0x34A)
                      ∧ (w.start ≤ at_ → w.stop ≤ at_ → counts 0x349)
                      ∧ (w.start ≤ at_ → at_ < w.stop → slot ∈ w.slots → counts 0x34B)
                      ∧ (w.start ≤ at_ → at_ < w.stop → slot ∉ w.slots → w.state = .closed → counts 0x349)
                      ∧ (w.start ≤ at_ → at_ < w.stop → slot ∉ w.slots → w.state ≠ .closed →
                          ∀ tl, Sparse.get none (s.coreAt w.core).tiles w.tile = some tl →
                            Does .uPlaneMessage s fun t => PrbTaken s t w slot tl bs)))
      ∧ (let port := s.input.index.toNat % 8
         let half := s.input.index.toNat / 8 % 2
         ((s.linkUp port half = false ∨ 9216 < s.input.bytes.length) → exec .receivedFrame s = .next s)
          ∧ (s.linkUp port half = true → s.input.bytes.length ≤ 9216 → Does .receivedFrame s fun t => OnlyDevice s t
              ∧ t.dev.frames = s.dev.frames ++ [{ port := port, half := half, stamp := s.stamp, bytes := s.input.bytes }]))
      -- the mesh
      ∧ (s.oldestOf .req = none → exec .req s = .next s)
      ∧ (∀ x, s.oldestOf .req = some x →
          let line := x.loc / 256
          let waits := isSlice x.dst = true ∧ inLpddr x.loc = true ∧ x.wr = false ∧ line ∉ s.mesh.present
          Does .req s fun t => t.mem = s.mem ∧ t.ctx = s.ctx
            ∧ (x.kind ≠ .plain → t = s.dropMsg x)
            ∧ (x.kind = .plain → waits → (∃ w ∈ t.mesh.windows, w.line = line ∧ (x ∈ w.readers ∨ x ∈ w.held))
                ∧ (s.mesh.awaits line = true → t.mesh.flight = s.mesh.flight.erase x)
                ∧ (s.mesh.awaits line = false → ∃ a, t.mesh.flight = s.mesh.flight.erase x ++ [a] ∧ a.kind = .line ∧ a.loc = line * 256
                    ∧ a.dst = channelStop (lpddrChannel (line * 256))))
            ∧ (x.kind = .plain → ¬ waits →
                let merges := x.wr = true ∧ isSlice x.dst = true ∧ inLpddr x.loc = true
                let here := line ∈ s.mesh.present ∨ s.mesh.awaits line = true
                let mask := x.mask * 2 ^ (x.loc % 256)
                ∃ ys a, t.mesh.flight = s.mesh.flight.erase x ++ ys ++ [a] ∧ a.cls = .rsp ∧ a.src = x.dst ∧ a.dst = x.src ∧ a.tag = x.tag
                  ∧ ((merges ∧ ¬ here) → ∃ y, ys = [y] ∧ y.kind = .command ∧ y.wr = true ∧ y.loc = line * 256 ∧ y.mask = mask
                      ∧ y.dst = channelStop (lpddrChannel (line * 256)))
                  ∧ ((merges → here) → ys = [])
                  ∧ (merges → ∀ w ∈ t.mesh.windows, w.line = line → w.joins = false)
                  ∧ ((merges ∧ here) → Sparse.get 0 t.mesh.dirty line = Sparse.get 0 s.mesh.dirty line ||| mask)
                  ∧ (¬ merges → t.mesh.windows = s.mesh.windows ∧ t.mesh.dirty = s.mesh.dirty)))
      ∧ (s.oldestOf .rsp = none → exec .rsp s = .next s)
      ∧ (∀ x, s.oldestOf .rsp = some x → Does .rsp s fun t => t.mem = s.mem ∧ t.ctx = s.ctx
          ∧ (x.kind ≠ .retry →
              let copies := x.dst < 256 ∧ ∃ r ∈ x.readers, r.core ≠ x.dst
              t.mesh = { s.mesh with flight := s.mesh.flight.erase x } ∧ (¬ copies → t.core = s.core)
                ∧ (copies → (t.coreAt x.dst).crGet 0x309 = (s.coreAt x.dst).crGet 0x309 + 1 ∧ ∀ n, n ≠ x.dst → t.coreAt n = s.coreAt n))
          ∧ (x.kind = .retry →
              let own (a : Message) : Bool := a.cls == .msg && a.src == x.dst && a.dst == x.src
              let what (a : Message) := (a.kind, a.key, a.raw, a.words)
              let again := s.mesh.flight.filter own
              (t.mesh.flight.filter own).map what = again.map what
                ∧ (t.mesh.flight.filter own).map (·.rst) = (List.range again.length).map (· == 0)
                ∧ t.mesh.flight.filter (fun a => !own a) = (s.mesh.flight.erase x).filter (fun a => !own a)))
      ∧ (let line := s.input.addr.toNat / 256
         ((s.mesh.awaits line = false ∨ s.lineAsked line = false) → exec .lpddr6ReadReturn s = .next s)
          ∧ (∀ w, s.mesh.windows.find? (fun w => w.line == line) = some w → s.lineAsked line = true →
              Does .lpddr6ReadReturn s fun t => (Unsampled s → t.mem = s.mem) ∧ t.ctx = s.ctx
                ∧ line ∈ t.mesh.present ∧ (∀ v ∈ t.mesh.windows, v.line ≠ line)
                ∧ (∀ r ∈ w.readers, ∃ r' ∈ w.readers, r'.src = r.src ∧ ∃ a ∈ t.mesh.flight, a.cls = .rsp ∧ a.src = r'.dst ∧ a.dst = r.src
                    ∧ a.tag = r'.tag ∧ a.readers = w.readers.map fun q => { core := q.src, tag := q.tag, key := q.key })
                ∧ ∀ r ∈ w.held, ∃ a ∈ t.mesh.flight, a.cls = .rsp ∧ a.src = r.dst ∧ a.dst = r.src ∧ a.tag = r.tag))
      ∧ (let src := s.input.index.toNat % 256
         (s.firstMsg .msg src m = none → exec .retry s = .next s)
          ∧ (∀ x, s.firstMsg .msg src m = some x → x.rst = false → (s.dict src m).discarding = true → exec .retry s = .next s)
          ∧ (∀ x, s.firstMsg .msg src m = some x → (x.rst = true ∨ (s.dict src m).discarding = false) → Does .retry s fun t =>
              t.mem = s.mem ∧ t.ctx = s.ctx
              ∧ (∃ a, t.mesh.flight = s.mesh.flight ++ [a] ∧ a.cls = .rsp ∧ a.kind = .retry ∧ a.src = m ∧ a.dst = src)
              ∧ (t.dict src m).sender = (s.dict src m).sender ∧ (t.dict src m).receiver = List.replicate 8 0 ∧ (t.dict src m).recvP = 0 ∧ (t.dict src m).discarding = true
              ∧ (t.coreAt m).crGet 0x308 = (s.coreAt m).crGet 0x308 + 1))
      ∧ (s.imageNext m = none → exec .imageArrival s = .next s)
      ∧ (∀ i, s.imageNext m = some i → Does .imageArrival s fun t => t.mem = s.mem ∧ t.ctx = s.ctx
          ∧ (t.coreAt m).arriving = (s.coreAt m).arriving.erase i
          ∧ (s.job? i.job = none → (t.coreAt m).inbox = (s.coreAt m).inbox)
          ∧ (∀ k, s.job? i.job ≠ none → s.vectorStrand m = some k → (s.ctxAt k).job = i.job →
              (t.coreAt m).inbox = (s.coreAt m).inbox ++ [i]))
end

