-- ==== Sys2Proof/Laws/Sparse.lean ====
section
/-! SUPPORT. Laws of data held by key: what is read after a change, and that every change keeps the canonical form. -/

namespace Sys2Proof.Machine

/-! ### Reading after a change -/

@[simp] theorem Sparse.get_nil (d : α) (k : Nat) : Sparse.get d [] k = d := rfl

theorem Sparse.get_erase (d : α) (m : Sparse α) (j k : Nat) : Sparse.get d (Sparse.erase m j) k = if k = j then d else Sparse.get d m k := by
  induction m with
  | nil => simp [Sparse.erase]
  | cons p m ih =>
    obtain ⟨i, x⟩ := p
    by_cases h : i = j
    · rw [Sparse.erase, if_pos h, ih]
      by_cases hk : k = j
      · rw [if_pos hk, if_pos hk]
      · rw [if_neg hk, if_neg hk, Sparse.get, if_neg (by omega)]
    · rw [Sparse.erase, if_neg h, Sparse.get, ih, Sparse.get]
      by_cases hk : k = j
      · rw [if_neg (by omega), if_pos hk, if_pos hk]
      · rw [if_neg hk, if_neg hk]

theorem Sparse.get_insert (d : α) (m : Sparse α) (j : Nat) (v : α) (h : Sparse.get none (m.map fun p => (p.1, some p.2)) j = none) (k : Nat) :
    Sparse.get d (Sparse.insert m j v) k = if k = j then v else Sparse.get d m k := by
  induction m with
  | nil => simp only [Sparse.insert, Sparse.get, eq_comm]
  | cons p m ih =>
    obtain ⟨i, x⟩ := p
    have hij : i ≠ j := by
      intro e
      simp [Sparse.get, e] at h
    have hm : Sparse.get none (m.map fun p => (p.1, some p.2)) j = none := by
      simpa [Sparse.get, hij] using h
    rw [Sparse.insert]
    split
    · simp only [Sparse.get, eq_comm]
    · rw [Sparse.get, ih hm, Sparse.get]
      by_cases hk : k = j
      · rw [if_neg (by omega), if_pos hk, if_pos hk]
      · rw [if_neg hk, if_neg hk]

/-- A key erased is not listed. -/
theorem Sparse.erase_absent (m : Sparse α) (j : Nat) : Sparse.get none ((Sparse.erase m j).map fun p => (p.1, some p.2)) j = none := by
  induction m with
  | nil => rfl
  | cons p m ih =>
    obtain ⟨i, x⟩ := p
    rw [Sparse.erase]
    split
    · exact ih
    · simpa [Sparse.get, ‹i ≠ j›] using ih

@[simp] theorem Sparse.get_put (d : α) (m : Sparse α) (j : Nat) (v : α) (k : Nat) :
    Sparse.get d (Sparse.put m j v) k = if k = j then v else Sparse.get d m k := by
  rw [Sparse.put, Sparse.get_insert d _ _ _ (Sparse.erase_absent m j), Sparse.get_erase]
  split <;> rfl

@[simp] theorem Sparse.get_set [DecidableEq α] (d : α) (m : Sparse α) (j : Nat) (v : α) (k : Nat) :
    Sparse.get d (Sparse.set d m j v) k = if k = j then v else Sparse.get d m k := by
  rw [Sparse.set]
  split
  · rename_i h
    rw [Sparse.get_erase, h]
  · rw [Sparse.get_insert d _ _ _ (Sparse.erase_absent m j), Sparse.get_erase]
    split <;> rfl

/-! ### The canonical form -/

/-- Every key of a listing is at or above a bound. -/
def Sparse.above (b : Nat) (m : Sparse α) : Prop := ∀ p ∈ m, b ≤ p.1

theorem Sparse.rising_cons (j : Nat) (x : α) (m : Sparse α) :
    Sparse.rising ((j, x) :: m) = true ↔ Sparse.above (j + 1) m ∧ Sparse.rising m = true := by
  induction m generalizing j x with
  | nil => simp [Sparse.rising, Sparse.above]
  | cons p m ih =>
    obtain ⟨k, y⟩ := p
    rw [Sparse.rising, Bool.and_eq_true, decide_eq_true_eq, ih]
    constructor
    · rintro ⟨hjk, ha, hr⟩
      refine ⟨fun q hq => ?_, ha, hr⟩
      rcases List.mem_cons.mp hq with rfl | hq
      · exact hjk
      · have := ha q hq
        omega
    · rintro ⟨ha, hb, hr⟩
      exact ⟨ha (k, y) (List.mem_cons_self ..), hb, hr⟩

theorem Sparse.above_erase {b : Nat} {m : Sparse α} (h : Sparse.above b m) (k : Nat) : Sparse.above b (Sparse.erase m k) := by
  induction m with
  | nil => exact h
  | cons p m ih =>
    obtain ⟨i, x⟩ := p
    have hm : Sparse.above b m := fun q hq => h q (List.mem_cons_of_mem _ hq)
    rw [Sparse.erase]
    split
    · exact ih hm
    · intro q hq
      rcases List.mem_cons.mp hq with rfl | hq
      · exact h _ (List.mem_cons_self ..)
      · exact ih hm q hq

theorem Sparse.rising_erase {m : Sparse α} (h : Sparse.rising m = true) (k : Nat) : Sparse.rising (Sparse.erase m k) = true := by
  induction m with
  | nil => exact h
  | cons p m ih =>
    obtain ⟨i, x⟩ := p
    obtain ⟨ha, hr⟩ := (Sparse.rising_cons i x m).mp h
    rw [Sparse.erase]
    split
    · exact ih hr
    · exact (Sparse.rising_cons ..).mpr ⟨Sparse.above_erase ha k, ih hr⟩

theorem Sparse.above_insert {b : Nat} {m : Sparse α} (h : Sparse.above b m) {k : Nat} (hk : b ≤ k) (v : α) :
    Sparse.above b (Sparse.insert m k v) := by
  induction m with
  | nil => intro q hq; rcases List.mem_singleton.mp hq with rfl; exact hk
  | cons p m ih =>
    obtain ⟨i, x⟩ := p
    rw [Sparse.insert]
    split
    · intro q hq
      rcases List.mem_cons.mp hq with rfl | hq
      · exact hk
      · exact h q hq
    · intro q hq
      rcases List.mem_cons.mp hq with rfl | hq
      · exact h _ (List.mem_cons_self ..)
      · exact ih (fun r hr => h r (List.mem_cons_of_mem _ hr)) q hq

/-- Inserting a key that is not listed keeps the keys rising. -/
theorem Sparse.rising_insert {m : Sparse α} (h : Sparse.rising m = true) {k : Nat} (hk : ∀ p ∈ m, p.1 ≠ k) (v : α) :
    Sparse.rising (Sparse.insert m k v) = true := by
  induction m with
  | nil => rfl
  | cons p m ih =>
    obtain ⟨i, x⟩ := p
    obtain ⟨ha, hr⟩ := (Sparse.rising_cons i x m).mp h
    have hik : i ≠ k := hk (i, x) (List.mem_cons_self ..)
    rw [Sparse.insert]
    split
    · rename_i hlt
      refine (Sparse.rising_cons ..).mpr ⟨fun q hq => ?_, h⟩
      rcases List.mem_cons.mp hq with rfl | hq
      · exact hlt
      · have := ha q hq
        omega
    · refine (Sparse.rising_cons ..).mpr ⟨Sparse.above_insert ha (by omega) v, ih hr fun p hp => hk p (List.mem_cons_of_mem _ hp)⟩

theorem Sparse.mem_erase_key {m : Sparse α} {k : Nat} : ∀ p ∈ Sparse.erase m k, p.1 ≠ k ∧ p ∈ m := by
  induction m with
  | nil => intro p hp; cases hp
  | cons q m ih =>
    obtain ⟨i, x⟩ := q
    rw [Sparse.erase]
    split
    · intro p hp
      exact ⟨(ih p hp).1, List.mem_cons_of_mem _ (ih p hp).2⟩
    · rename_i hi
      intro p hp
      rcases List.mem_cons.mp hp with rfl | hp
      · exact ⟨hi, List.mem_cons_self ..⟩
      · exact ⟨(ih p hp).1, List.mem_cons_of_mem _ (ih p hp).2⟩

theorem Sparse.mem_insert {m : Sparse α} {k : Nat} {v : α} : ∀ p ∈ Sparse.insert m k v, p = (k, v) ∨ p ∈ m := by
  induction m with
  | nil => intro p hp; exact .inl (List.mem_singleton.mp hp)
  | cons q m ih =>
    obtain ⟨i, x⟩ := q
    rw [Sparse.insert]
    split
    · intro p hp
      exact List.mem_cons.mp hp
    · intro p hp
      rcases List.mem_cons.mp hp with rfl | hp
      · exact .inr (List.mem_cons_self ..)
      · exact (ih p hp).imp id (List.mem_cons_of_mem _)

theorem Sparse.rising_put {m : Sparse α} (h : Sparse.rising m = true) (k : Nat) (v : α) : Sparse.rising (Sparse.put m k v) = true :=
  Sparse.rising_insert (Sparse.rising_erase h k) (fun p hp => (Sparse.mem_erase_key p hp).1) v

theorem Sparse.rising_set [DecidableEq α] {d : α} {m : Sparse α} (h : Sparse.rising m = true) (k : Nat) (v : α) :
    Sparse.rising (Sparse.set d m k v) = true := by
  rw [Sparse.set]
  split
  · exact Sparse.rising_erase h k
  · exact Sparse.rising_put h k v

theorem Sparse.above_mono {b c : Nat} {m : Sparse α} (h : Sparse.above c m) (hb : b ≤ c) : Sparse.above b m :=
  fun p hp => Nat.le_trans hb (h p hp)

theorem Sparse.rising_filter {m : Sparse α} (h : Sparse.rising m = true) (f : Nat × α → Bool) : Sparse.rising (List.filter f m) = true := by
  induction m with
  | nil => exact h
  | cons p m ih =>
    obtain ⟨i, x⟩ := p
    obtain ⟨ha, hr⟩ := (Sparse.rising_cons i x m).mp h
    rw [List.filter]
    split
    · exact (Sparse.rising_cons ..).mpr ⟨fun q hq => ha q (List.mem_filter.mp hq).1, ih hr⟩
    · exact ih hr

theorem Sparse.rising_without {m : Sparse α} (h : Sparse.rising m = true) (lo hi : Nat) : Sparse.rising (Sparse.without m lo hi) = true :=
  Sparse.rising_filter h _

end Sys2Proof.Machine
end

