-- ==== Sys2Proof/Laws/Memory.lean ====
section
/-! SUPPORT. Laws of memory: what a byte reads after a store, and that every store keeps the canonical form (log 1). -/

namespace Sys2Proof.Machine

/-! ### Reading after a store -/

/-- A byte after some bytes were stored: the byte stored there, or what was there. -/
theorem get_pokeBytes (m : Sparse Byte) (a : Nat) (bs : List Byte) (x : Nat) :
    Sparse.get 0 (pokeBytes m a bs) x = if a ≤ x ∧ x < a + bs.length then bs.getD (x - a) 0 else Sparse.get 0 m x := by
  induction bs generalizing m a with
  | nil => rw [if_neg (by simp only [List.length_nil]; omega)]; rfl
  | cons b bs ih =>
    rw [pokeBytes, ih, Sparse.get_set, List.length_cons]
    by_cases h : x = a
    · subst h
      rw [if_neg (by omega), if_pos rfl, if_pos (by omega), Nat.sub_self]
      rfl
    · rw [if_neg h]
      by_cases h2 : a + 1 ≤ x ∧ x < a + 1 + bs.length
      · rw [if_pos h2, if_pos (by omega), show x - a = (x - (a + 1)) + 1 by omega]
        rfl
      · rw [if_neg h2, if_neg (by omega)]

@[simp] theorem State.perform_mem (s : State) (a : Nat) (bs : List Byte) : (s.perform a bs).mem = pokeBytes s.mem a bs := rfl
@[simp] theorem State.perform_ctx (s : State) (a : Nat) (bs : List Byte) : (s.perform a bs).ctx = s.ctx := rfl
@[simp] theorem State.perform_core (s : State) (a : Nat) (bs : List Byte) : (s.perform a bs).core = s.core := rfl
@[simp] theorem State.perform_cluster (s : State) (a : Nat) (bs : List Byte) : (s.perform a bs).cluster = s.cluster := rfl
@[simp] theorem State.perform_coding (s : State) (a : Nat) (bs : List Byte) : (s.perform a bs).coding = s.coding := rfl
@[simp] theorem State.perform_sched (s : State) (a : Nat) (bs : List Byte) : (s.perform a bs).sched = s.sched := rfl
@[simp] theorem State.perform_dev (s : State) (a : Nat) (bs : List Byte) : (s.perform a bs).dev = s.dev := rfl
@[simp] theorem State.perform_way (s : State) (a : Nat) (bs : List Byte) : (s.perform a bs).way = s.way := rfl
@[simp] theorem State.perform_mesh (s : State) (a : Nat) (bs : List Byte) : (s.perform a bs).mesh = s.mesh := rfl
@[simp] theorem State.perform_cur (s : State) (a : Nat) (bs : List Byte) : (s.perform a bs).cur = s.cur := rfl
@[simp] theorem State.perform_free (s : State) (a : Nat) (bs : List Byte) : (s.perform a bs).free = s.free := rfl

/-- A store changes the bytes stored to. -/
theorem State.readByte_perform (s : State) (a : Nat) (bs : List Byte) (x : Nat) :
    (s.perform a bs).readByte x = if a ≤ x ∧ x < a + bs.length then bs.getD (x - a) 0 else s.readByte x :=
  get_pokeBytes s.mem a bs x

/-- A store leaves every byte outside it alone. -/
theorem State.readByte_perform_outside (s : State) (a : Nat) (bs : List Byte) (x : Nat) (h : x < a ∨ a + bs.length ≤ x) :
    (s.perform a bs).readByte x = s.readByte x := by
  rw [State.readByte_perform, if_neg (by omega)]

@[simp] theorem leBytes_length (n v : Nat) : (leBytes n v).length = n := by
  induction n generalizing v with
  | zero => rfl
  | succ n ih => rw [leBytes, List.length_cons, ih]

/-- The bytes of a number give it back. -/
theorem leNat_leBytes (n v : Nat) : leNat (leBytes n v) = v % 256 ^ n := by
  induction n generalizing v with
  | zero => rw [Nat.pow_zero, Nat.mod_one]; rfl
  | succ n ih =>
    rw [leBytes, leNat, ih, BitVec.toNat_ofNat, Nat.pow_succ (n := 256), Nat.mul_comm (256 ^ n) 256, Nat.mod_mul]

theorem State.readBytes_length (s : State) (a n : Nat) : (s.readBytes a n).length = n := by
  induction n generalizing a with
  | zero => rfl
  | succ n ih => rw [State.readBytes, List.length_cons, ih]

/-- Bytes read where they were stored. -/
theorem State.readBytes_of_bytes (s : State) (a : Nat) (bs : List Byte) (h : ∀ i, i < bs.length → s.readByte (a + i) = bs.getD i 0) :
    s.readBytes a bs.length = bs := by
  induction bs generalizing a with
  | nil => rfl
  | cons b bs ih =>
    rw [List.length_cons, State.readBytes]
    congr 1
    · exact h 0 (Nat.succ_pos _)
    · apply ih
      intro i hi
      rw [Nat.add_assoc, Nat.add_comm 1 i]
      exact h (i + 1) (Nat.succ_lt_succ hi)

/-- A read after a write to the same place gives what was written. -/
theorem State.readBytes_perform (s : State) (a : Nat) (bs : List Byte) : (s.perform a bs).readBytes a bs.length = bs := by
  apply State.readBytes_of_bytes
  intro i hi
  rw [State.readByte_perform, if_pos (by omega), Nat.add_sub_cancel_left]

theorem State.readNat_performNat (s : State) (a n v : Nat) : (s.performNat a n v).readNat a n = v % 256 ^ n := by
  have h := State.readBytes_perform s a (leBytes n v)
  rw [leBytes_length] at h
  rw [State.readNat, State.performNat, h, leNat_leBytes]

theorem State.read64_performNat (s : State) (a : Nat) (v : W64) : (s.performNat a 8 v.toNat).read64 a = v := by
  rw [State.read64, State.readNat_performNat, Nat.mod_eq_of_lt (by have := v.isLt; omega), BitVec.ofNat_toNat, BitVec.setWidth_eq]

/-- Reads of bytes that agree are the same. -/
theorem State.readBytes_congr (s t : State) (a n : Nat) (h : ∀ x, a ≤ x → x < a + n → t.readByte x = s.readByte x) :
    t.readBytes a n = s.readBytes a n := by
  induction n generalizing a with
  | zero => rfl
  | succ n ih =>
    rw [State.readBytes, State.readBytes, h a (Nat.le_refl a) (by omega), ih (a + 1) fun x h1 h2 => h x (by omega) (by omega)]

/-- A store leaves every read apart from it alone. -/
theorem State.readNat_perform_apart (s : State) (a : Nat) (bs : List Byte) (b n : Nat) (h : b + n ≤ a ∨ a + bs.length ≤ b) :
    (s.perform a bs).readNat b n = s.readNat b n := by
  rw [State.readNat, State.readNat,
    State.readBytes_congr s (s.perform a bs) b n fun x h1 h2 => State.readByte_perform_outside s a bs x (by omega)]

/-! ### The canonical form -/

theorem Memory.wf_iff (m : Sparse Byte) : Memory.wf m = true ↔ Sparse.rising m = true ∧ ∀ p ∈ m, p.2 ≠ 0 := by
  rw [Memory.wf, Bool.and_eq_true, List.all_eq_true]
  exact and_congr_right fun _ => forall_congr' fun p => imp_congr_right fun _ => bne_iff_ne

theorem Memory.wf_set {m : Sparse Byte} (h : Memory.wf m = true) (a : Nat) (b : Byte) : Memory.wf (Sparse.set 0 m a b) = true := by
  obtain ⟨hr, hz⟩ := (Memory.wf_iff m).mp h
  refine (Memory.wf_iff _).mpr ⟨Sparse.rising_set hr a b, ?_⟩
  intro p hp
  rw [Sparse.set] at hp
  split at hp
  · exact hz p (Sparse.mem_erase_key p hp).2
  · rename_i hb
    rcases Sparse.mem_insert p hp with rfl | hp
    · exact hb
    · exact hz p (Sparse.mem_erase_key p hp).2

theorem Memory.wf_poke {m : Sparse Byte} (h : Memory.wf m = true) (a : Nat) (bs : List Byte) : Memory.wf (pokeBytes m a bs) = true := by
  induction bs generalizing m a with
  | nil => exact h
  | cons b bs ih => exact ih (Memory.wf_set h a b) (a + 1)

theorem Memory.wf_without {m : Sparse Byte} (h : Memory.wf m = true) (lo hi : Nat) : Memory.wf (Sparse.without m lo hi) = true := by
  obtain ⟨hr, hz⟩ := (Memory.wf_iff m).mp h
  exact (Memory.wf_iff _).mpr ⟨Sparse.rising_without hr lo hi, fun p hp => hz p (List.mem_filter.mp hp).1⟩

theorem State.perform_wf {s : State} (h : Memory.wf s.mem = true) (a : Nat) (bs : List Byte) : Memory.wf (s.perform a bs).mem = true :=
  Memory.wf_poke h a bs

theorem State.performNat_wf {s : State} (h : Memory.wf s.mem = true) (a n v : Nat) : Memory.wf (s.performNat a n v).mem = true :=
  Memory.wf_poke h a _

theorem State.writeRuns_wf (runs : List (Nat × Nat)) {s : State} (h : Memory.wf s.mem = true) (bs : List Byte) :
    Memory.wf (s.writeRuns runs bs).mem = true := by
  induction runs generalizing s bs with
  | nil => exact h
  | cons r rs ih => exact ih (State.perform_wf h _ _) _

/-- A fold of steps that keep the canonical form keeps it. -/
theorem State.fold_wf {β : Type} (f : State → β → State) (hf : ∀ s b, Memory.wf s.mem = true → Memory.wf (f s b).mem = true) (bs : List β)
    {s : State} (h : Memory.wf s.mem = true) : Memory.wf (bs.foldl f s).mem = true := by
  induction bs generalizing s with
  | nil => exact h
  | cons b bs ih => exact ih (hf s b h)

theorem State.performChunks_wf {s : State} (h : Memory.wf s.mem = true) (cs : List (Nat × List Byte)) :
    Memory.wf (s.performChunks cs).mem = true :=
  State.fold_wf _ (fun _ _ h => State.perform_wf h _ _) _ h

theorem State.performMix_wf {s : State} (h : Memory.wf s.mem = true) (cs : List (Nat × List Byte)) : Memory.wf (s.performMix cs).mem = true :=
  State.performChunks_wf h _

/-- The memory after reset has the canonical form. -/
theorem State.reset_wf : Memory.wf State.reset.mem = true := rfl

end Sys2Proof.Machine
end

