-- ==== Sys2Proof/Laws/State.lean ====
section
/-! SUPPORT. What each update of the state leaves as it was, field by field, and what contexts, cores, clusters and registers read after it. -/

namespace Sys2Proof.Machine

/-! ### setCtx -/

@[simp] theorem State.setCtx_mem (s : State) (k : Nat) (c : Ctx) : (s.setCtx k c).mem = s.mem := rfl
@[simp] theorem State.setCtx_core (s : State) (k : Nat) (c : Ctx) : (s.setCtx k c).core = s.core := rfl
@[simp] theorem State.setCtx_cluster (s : State) (k : Nat) (c : Ctx) : (s.setCtx k c).cluster = s.cluster := rfl
@[simp] theorem State.setCtx_coding (s : State) (k : Nat) (c : Ctx) : (s.setCtx k c).coding = s.coding := rfl
@[simp] theorem State.setCtx_sched (s : State) (k : Nat) (c : Ctx) : (s.setCtx k c).sched = s.sched := rfl
@[simp] theorem State.setCtx_dev (s : State) (k : Nat) (c : Ctx) : (s.setCtx k c).dev = s.dev := rfl
@[simp] theorem State.setCtx_way (s : State) (k : Nat) (c : Ctx) : (s.setCtx k c).way = s.way := rfl
@[simp] theorem State.setCtx_mesh (s : State) (k : Nat) (c : Ctx) : (s.setCtx k c).mesh = s.mesh := rfl
@[simp] theorem State.setCtx_parks (s : State) (k : Nat) (c : Ctx) : (s.setCtx k c).parks = s.parks := rfl
@[simp] theorem State.setCtx_notices (s : State) (k : Nat) (c : Ctx) : (s.setCtx k c).notices = s.notices := rfl
@[simp] theorem State.setCtx_cur (s : State) (k : Nat) (c : Ctx) : (s.setCtx k c).cur = s.cur := rfl
@[simp] theorem State.setCtx_turn (s : State) (k : Nat) (c : Ctx) : (s.setCtx k c).turn = s.turn := rfl
@[simp] theorem State.setCtx_rounds (s : State) (k : Nat) (c : Ctx) : (s.setCtx k c).rounds = s.rounds := rfl
@[simp] theorem State.setCtx_served (s : State) (k : Nat) (c : Ctx) : (s.setCtx k c).served = s.served := rfl
@[simp] theorem State.setCtx_schedule (s : State) (k : Nat) (c : Ctx) : (s.setCtx k c).schedule = s.schedule := rfl
@[simp] theorem State.setCtx_input (s : State) (k : Nat) (c : Ctx) : (s.setCtx k c).input = s.input := rfl
@[simp] theorem State.setCtx_ir (s : State) (k : Nat) (c : Ctx) : (s.setCtx k c).ir = s.ir := rfl
@[simp] theorem State.setCtx_free (s : State) (k : Nat) (c : Ctx) : (s.setCtx k c).free = s.free := rfl

/-! ### onCtx -/

@[simp] theorem State.onCtx_mem (s : State) (k : Nat) (f : Ctx → Ctx) : (s.onCtx k f).mem = s.mem := rfl
@[simp] theorem State.onCtx_core (s : State) (k : Nat) (f : Ctx → Ctx) : (s.onCtx k f).core = s.core := rfl
@[simp] theorem State.onCtx_cluster (s : State) (k : Nat) (f : Ctx → Ctx) : (s.onCtx k f).cluster = s.cluster := rfl
@[simp] theorem State.onCtx_coding (s : State) (k : Nat) (f : Ctx → Ctx) : (s.onCtx k f).coding = s.coding := rfl
@[simp] theorem State.onCtx_sched (s : State) (k : Nat) (f : Ctx → Ctx) : (s.onCtx k f).sched = s.sched := rfl
@[simp] theorem State.onCtx_dev (s : State) (k : Nat) (f : Ctx → Ctx) : (s.onCtx k f).dev = s.dev := rfl
@[simp] theorem State.onCtx_way (s : State) (k : Nat) (f : Ctx → Ctx) : (s.onCtx k f).way = s.way := rfl
@[simp] theorem State.onCtx_mesh (s : State) (k : Nat) (f : Ctx → Ctx) : (s.onCtx k f).mesh = s.mesh := rfl
@[simp] theorem State.onCtx_parks (s : State) (k : Nat) (f : Ctx → Ctx) : (s.onCtx k f).parks = s.parks := rfl
@[simp] theorem State.onCtx_notices (s : State) (k : Nat) (f : Ctx → Ctx) : (s.onCtx k f).notices = s.notices := rfl
@[simp] theorem State.onCtx_cur (s : State) (k : Nat) (f : Ctx → Ctx) : (s.onCtx k f).cur = s.cur := rfl
@[simp] theorem State.onCtx_turn (s : State) (k : Nat) (f : Ctx → Ctx) : (s.onCtx k f).turn = s.turn := rfl
@[simp] theorem State.onCtx_rounds (s : State) (k : Nat) (f : Ctx → Ctx) : (s.onCtx k f).rounds = s.rounds := rfl
@[simp] theorem State.onCtx_served (s : State) (k : Nat) (f : Ctx → Ctx) : (s.onCtx k f).served = s.served := rfl
@[simp] theorem State.onCtx_schedule (s : State) (k : Nat) (f : Ctx → Ctx) : (s.onCtx k f).schedule = s.schedule := rfl
@[simp] theorem State.onCtx_input (s : State) (k : Nat) (f : Ctx → Ctx) : (s.onCtx k f).input = s.input := rfl
@[simp] theorem State.onCtx_ir (s : State) (k : Nat) (f : Ctx → Ctx) : (s.onCtx k f).ir = s.ir := rfl
@[simp] theorem State.onCtx_free (s : State) (k : Nat) (f : Ctx → Ctx) : (s.onCtx k f).free = s.free := rfl

/-! ### setMe -/

@[simp] theorem State.setMe_mem (s : State) (c : Ctx) : (s.setMe c).mem = s.mem := rfl
@[simp] theorem State.setMe_core (s : State) (c : Ctx) : (s.setMe c).core = s.core := rfl
@[simp] theorem State.setMe_cluster (s : State) (c : Ctx) : (s.setMe c).cluster = s.cluster := rfl
@[simp] theorem State.setMe_coding (s : State) (c : Ctx) : (s.setMe c).coding = s.coding := rfl
@[simp] theorem State.setMe_sched (s : State) (c : Ctx) : (s.setMe c).sched = s.sched := rfl
@[simp] theorem State.setMe_dev (s : State) (c : Ctx) : (s.setMe c).dev = s.dev := rfl
@[simp] theorem State.setMe_way (s : State) (c : Ctx) : (s.setMe c).way = s.way := rfl
@[simp] theorem State.setMe_mesh (s : State) (c : Ctx) : (s.setMe c).mesh = s.mesh := rfl
@[simp] theorem State.setMe_parks (s : State) (c : Ctx) : (s.setMe c).parks = s.parks := rfl
@[simp] theorem State.setMe_notices (s : State) (c : Ctx) : (s.setMe c).notices = s.notices := rfl
@[simp] theorem State.setMe_cur (s : State) (c : Ctx) : (s.setMe c).cur = s.cur := rfl
@[simp] theorem State.setMe_turn (s : State) (c : Ctx) : (s.setMe c).turn = s.turn := rfl
@[simp] theorem State.setMe_rounds (s : State) (c : Ctx) : (s.setMe c).rounds = s.rounds := rfl
@[simp] theorem State.setMe_served (s : State) (c : Ctx) : (s.setMe c).served = s.served := rfl
@[simp] theorem State.setMe_schedule (s : State) (c : Ctx) : (s.setMe c).schedule = s.schedule := rfl
@[simp] theorem State.setMe_input (s : State) (c : Ctx) : (s.setMe c).input = s.input := rfl
@[simp] theorem State.setMe_ir (s : State) (c : Ctx) : (s.setMe c).ir = s.ir := rfl
@[simp] theorem State.setMe_free (s : State) (c : Ctx) : (s.setMe c).free = s.free := rfl

/-! ### onMe -/

@[simp] theorem State.onMe_mem (s : State) (f : Ctx → Ctx) : (s.onMe f).mem = s.mem := rfl
@[simp] theorem State.onMe_core (s : State) (f : Ctx → Ctx) : (s.onMe f).core = s.core := rfl
@[simp] theorem State.onMe_cluster (s : State) (f : Ctx → Ctx) : (s.onMe f).cluster = s.cluster := rfl
@[simp] theorem State.onMe_coding (s : State) (f : Ctx → Ctx) : (s.onMe f).coding = s.coding := rfl
@[simp] theorem State.onMe_sched (s : State) (f : Ctx → Ctx) : (s.onMe f).sched = s.sched := rfl
@[simp] theorem State.onMe_dev (s : State) (f : Ctx → Ctx) : (s.onMe f).dev = s.dev := rfl
@[simp] theorem State.onMe_way (s : State) (f : Ctx → Ctx) : (s.onMe f).way = s.way := rfl
@[simp] theorem State.onMe_mesh (s : State) (f : Ctx → Ctx) : (s.onMe f).mesh = s.mesh := rfl
@[simp] theorem State.onMe_parks (s : State) (f : Ctx → Ctx) : (s.onMe f).parks = s.parks := rfl
@[simp] theorem State.onMe_notices (s : State) (f : Ctx → Ctx) : (s.onMe f).notices = s.notices := rfl
@[simp] theorem State.onMe_cur (s : State) (f : Ctx → Ctx) : (s.onMe f).cur = s.cur := rfl
@[simp] theorem State.onMe_turn (s : State) (f : Ctx → Ctx) : (s.onMe f).turn = s.turn := rfl
@[simp] theorem State.onMe_rounds (s : State) (f : Ctx → Ctx) : (s.onMe f).rounds = s.rounds := rfl
@[simp] theorem State.onMe_served (s : State) (f : Ctx → Ctx) : (s.onMe f).served = s.served := rfl
@[simp] theorem State.onMe_schedule (s : State) (f : Ctx → Ctx) : (s.onMe f).schedule = s.schedule := rfl
@[simp] theorem State.onMe_input (s : State) (f : Ctx → Ctx) : (s.onMe f).input = s.input := rfl
@[simp] theorem State.onMe_ir (s : State) (f : Ctx → Ctx) : (s.onMe f).ir = s.ir := rfl
@[simp] theorem State.onMe_free (s : State) (f : Ctx → Ctx) : (s.onMe f).free = s.free := rfl

/-! ### wr -/

@[simp] theorem State.wr_mem (s : State) (r : BitVec 5) (v : W64) : (s.wr r v).mem = s.mem := rfl
@[simp] theorem State.wr_core (s : State) (r : BitVec 5) (v : W64) : (s.wr r v).core = s.core := rfl
@[simp] theorem State.wr_cluster (s : State) (r : BitVec 5) (v : W64) : (s.wr r v).cluster = s.cluster := rfl
@[simp] theorem State.wr_coding (s : State) (r : BitVec 5) (v : W64) : (s.wr r v).coding = s.coding := rfl
@[simp] theorem State.wr_sched (s : State) (r : BitVec 5) (v : W64) : (s.wr r v).sched = s.sched := rfl
@[simp] theorem State.wr_dev (s : State) (r : BitVec 5) (v : W64) : (s.wr r v).dev = s.dev := rfl
@[simp] theorem State.wr_way (s : State) (r : BitVec 5) (v : W64) : (s.wr r v).way = s.way := rfl
@[simp] theorem State.wr_mesh (s : State) (r : BitVec 5) (v : W64) : (s.wr r v).mesh = s.mesh := rfl
@[simp] theorem State.wr_parks (s : State) (r : BitVec 5) (v : W64) : (s.wr r v).parks = s.parks := rfl
@[simp] theorem State.wr_notices (s : State) (r : BitVec 5) (v : W64) : (s.wr r v).notices = s.notices := rfl
@[simp] theorem State.wr_cur (s : State) (r : BitVec 5) (v : W64) : (s.wr r v).cur = s.cur := rfl
@[simp] theorem State.wr_turn (s : State) (r : BitVec 5) (v : W64) : (s.wr r v).turn = s.turn := rfl
@[simp] theorem State.wr_rounds (s : State) (r : BitVec 5) (v : W64) : (s.wr r v).rounds = s.rounds := rfl
@[simp] theorem State.wr_served (s : State) (r : BitVec 5) (v : W64) : (s.wr r v).served = s.served := rfl
@[simp] theorem State.wr_schedule (s : State) (r : BitVec 5) (v : W64) : (s.wr r v).schedule = s.schedule := rfl
@[simp] theorem State.wr_input (s : State) (r : BitVec 5) (v : W64) : (s.wr r v).input = s.input := rfl
@[simp] theorem State.wr_ir (s : State) (r : BitVec 5) (v : W64) : (s.wr r v).ir = s.ir := rfl
@[simp] theorem State.wr_free (s : State) (r : BitVec 5) (v : W64) : (s.wr r v).free = s.free := rfl

/-! ### dropCtx -/

@[simp] theorem State.dropCtx_mem (s : State) (k : Nat) : (s.dropCtx k).mem = s.mem := rfl
@[simp] theorem State.dropCtx_core (s : State) (k : Nat) : (s.dropCtx k).core = s.core := rfl
@[simp] theorem State.dropCtx_cluster (s : State) (k : Nat) : (s.dropCtx k).cluster = s.cluster := rfl
@[simp] theorem State.dropCtx_coding (s : State) (k : Nat) : (s.dropCtx k).coding = s.coding := rfl
@[simp] theorem State.dropCtx_sched (s : State) (k : Nat) : (s.dropCtx k).sched = s.sched := rfl
@[simp] theorem State.dropCtx_dev (s : State) (k : Nat) : (s.dropCtx k).dev = s.dev := rfl
@[simp] theorem State.dropCtx_way (s : State) (k : Nat) : (s.dropCtx k).way = s.way := rfl
@[simp] theorem State.dropCtx_mesh (s : State) (k : Nat) : (s.dropCtx k).mesh = s.mesh := rfl
@[simp] theorem State.dropCtx_parks (s : State) (k : Nat) : (s.dropCtx k).parks = s.parks := rfl
@[simp] theorem State.dropCtx_notices (s : State) (k : Nat) : (s.dropCtx k).notices = s.notices := rfl
@[simp] theorem State.dropCtx_cur (s : State) (k : Nat) : (s.dropCtx k).cur = s.cur := rfl
@[simp] theorem State.dropCtx_turn (s : State) (k : Nat) : (s.dropCtx k).turn = s.turn := rfl
@[simp] theorem State.dropCtx_rounds (s : State) (k : Nat) : (s.dropCtx k).rounds = s.rounds := rfl
@[simp] theorem State.dropCtx_served (s : State) (k : Nat) : (s.dropCtx k).served = s.served := rfl
@[simp] theorem State.dropCtx_schedule (s : State) (k : Nat) : (s.dropCtx k).schedule = s.schedule := rfl
@[simp] theorem State.dropCtx_input (s : State) (k : Nat) : (s.dropCtx k).input = s.input := rfl
@[simp] theorem State.dropCtx_ir (s : State) (k : Nat) : (s.dropCtx k).ir = s.ir := rfl
@[simp] theorem State.dropCtx_free (s : State) (k : Nat) : (s.dropCtx k).free = s.free := rfl

/-! ### setCore -/

@[simp] theorem State.setCore_mem (s : State) (m : Nat) (c : Core) : (s.setCore m c).mem = s.mem := rfl
@[simp] theorem State.setCore_ctx (s : State) (m : Nat) (c : Core) : (s.setCore m c).ctx = s.ctx := rfl
@[simp] theorem State.setCore_cluster (s : State) (m : Nat) (c : Core) : (s.setCore m c).cluster = s.cluster := rfl
@[simp] theorem State.setCore_coding (s : State) (m : Nat) (c : Core) : (s.setCore m c).coding = s.coding := rfl
@[simp] theorem State.setCore_sched (s : State) (m : Nat) (c : Core) : (s.setCore m c).sched = s.sched := rfl
@[simp] theorem State.setCore_dev (s : State) (m : Nat) (c : Core) : (s.setCore m c).dev = s.dev := rfl
@[simp] theorem State.setCore_way (s : State) (m : Nat) (c : Core) : (s.setCore m c).way = s.way := rfl
@[simp] theorem State.setCore_mesh (s : State) (m : Nat) (c : Core) : (s.setCore m c).mesh = s.mesh := rfl
@[simp] theorem State.setCore_parks (s : State) (m : Nat) (c : Core) : (s.setCore m c).parks = s.parks := rfl
@[simp] theorem State.setCore_notices (s : State) (m : Nat) (c : Core) : (s.setCore m c).notices = s.notices := rfl
@[simp] theorem State.setCore_cur (s : State) (m : Nat) (c : Core) : (s.setCore m c).cur = s.cur := rfl
@[simp] theorem State.setCore_turn (s : State) (m : Nat) (c : Core) : (s.setCore m c).turn = s.turn := rfl
@[simp] theorem State.setCore_rounds (s : State) (m : Nat) (c : Core) : (s.setCore m c).rounds = s.rounds := rfl
@[simp] theorem State.setCore_served (s : State) (m : Nat) (c : Core) : (s.setCore m c).served = s.served := rfl
@[simp] theorem State.setCore_schedule (s : State) (m : Nat) (c : Core) : (s.setCore m c).schedule = s.schedule := rfl
@[simp] theorem State.setCore_input (s : State) (m : Nat) (c : Core) : (s.setCore m c).input = s.input := rfl
@[simp] theorem State.setCore_ir (s : State) (m : Nat) (c : Core) : (s.setCore m c).ir = s.ir := rfl
@[simp] theorem State.setCore_free (s : State) (m : Nat) (c : Core) : (s.setCore m c).free = s.free := rfl

/-! ### onCore -/

@[simp] theorem State.onCore_mem (s : State) (m : Nat) (f : Core → Core) : (s.onCore m f).mem = s.mem := rfl
@[simp] theorem State.onCore_ctx (s : State) (m : Nat) (f : Core → Core) : (s.onCore m f).ctx = s.ctx := rfl
@[simp] theorem State.onCore_cluster (s : State) (m : Nat) (f : Core → Core) : (s.onCore m f).cluster = s.cluster := rfl
@[simp] theorem State.onCore_coding (s : State) (m : Nat) (f : Core → Core) : (s.onCore m f).coding = s.coding := rfl
@[simp] theorem State.onCore_sched (s : State) (m : Nat) (f : Core → Core) : (s.onCore m f).sched = s.sched := rfl
@[simp] theorem State.onCore_dev (s : State) (m : Nat) (f : Core → Core) : (s.onCore m f).dev = s.dev := rfl
@[simp] theorem State.onCore_way (s : State) (m : Nat) (f : Core → Core) : (s.onCore m f).way = s.way := rfl
@[simp] theorem State.onCore_mesh (s : State) (m : Nat) (f : Core → Core) : (s.onCore m f).mesh = s.mesh := rfl
@[simp] theorem State.onCore_parks (s : State) (m : Nat) (f : Core → Core) : (s.onCore m f).parks = s.parks := rfl
@[simp] theorem State.onCore_notices (s : State) (m : Nat) (f : Core → Core) : (s.onCore m f).notices = s.notices := rfl
@[simp] theorem State.onCore_cur (s : State) (m : Nat) (f : Core → Core) : (s.onCore m f).cur = s.cur := rfl
@[simp] theorem State.onCore_turn (s : State) (m : Nat) (f : Core → Core) : (s.onCore m f).turn = s.turn := rfl
@[simp] theorem State.onCore_rounds (s : State) (m : Nat) (f : Core → Core) : (s.onCore m f).rounds = s.rounds := rfl
@[simp] theorem State.onCore_served (s : State) (m : Nat) (f : Core → Core) : (s.onCore m f).served = s.served := rfl
@[simp] theorem State.onCore_schedule (s : State) (m : Nat) (f : Core → Core) : (s.onCore m f).schedule = s.schedule := rfl
@[simp] theorem State.onCore_input (s : State) (m : Nat) (f : Core → Core) : (s.onCore m f).input = s.input := rfl
@[simp] theorem State.onCore_ir (s : State) (m : Nat) (f : Core → Core) : (s.onCore m f).ir = s.ir := rfl
@[simp] theorem State.onCore_free (s : State) (m : Nat) (f : Core → Core) : (s.onCore m f).free = s.free := rfl

/-! ### onCluster -/

@[simp] theorem State.onCluster_mem (s : State) (y : Nat) (f : Cluster → Cluster) : (s.onCluster y f).mem = s.mem := rfl
@[simp] theorem State.onCluster_ctx (s : State) (y : Nat) (f : Cluster → Cluster) : (s.onCluster y f).ctx = s.ctx := rfl
@[simp] theorem State.onCluster_core (s : State) (y : Nat) (f : Cluster → Cluster) : (s.onCluster y f).core = s.core := rfl
@[simp] theorem State.onCluster_coding (s : State) (y : Nat) (f : Cluster → Cluster) : (s.onCluster y f).coding = s.coding := rfl
@[simp] theorem State.onCluster_sched (s : State) (y : Nat) (f : Cluster → Cluster) : (s.onCluster y f).sched = s.sched := rfl
@[simp] theorem State.onCluster_dev (s : State) (y : Nat) (f : Cluster → Cluster) : (s.onCluster y f).dev = s.dev := rfl
@[simp] theorem State.onCluster_way (s : State) (y : Nat) (f : Cluster → Cluster) : (s.onCluster y f).way = s.way := rfl
@[simp] theorem State.onCluster_mesh (s : State) (y : Nat) (f : Cluster → Cluster) : (s.onCluster y f).mesh = s.mesh := rfl
@[simp] theorem State.onCluster_parks (s : State) (y : Nat) (f : Cluster → Cluster) : (s.onCluster y f).parks = s.parks := rfl
@[simp] theorem State.onCluster_notices (s : State) (y : Nat) (f : Cluster → Cluster) : (s.onCluster y f).notices = s.notices := rfl
@[simp] theorem State.onCluster_cur (s : State) (y : Nat) (f : Cluster → Cluster) : (s.onCluster y f).cur = s.cur := rfl
@[simp] theorem State.onCluster_turn (s : State) (y : Nat) (f : Cluster → Cluster) : (s.onCluster y f).turn = s.turn := rfl
@[simp] theorem State.onCluster_rounds (s : State) (y : Nat) (f : Cluster → Cluster) : (s.onCluster y f).rounds = s.rounds := rfl
@[simp] theorem State.onCluster_served (s : State) (y : Nat) (f : Cluster → Cluster) : (s.onCluster y f).served = s.served := rfl
@[simp] theorem State.onCluster_schedule (s : State) (y : Nat) (f : Cluster → Cluster) : (s.onCluster y f).schedule = s.schedule := rfl
@[simp] theorem State.onCluster_input (s : State) (y : Nat) (f : Cluster → Cluster) : (s.onCluster y f).input = s.input := rfl
@[simp] theorem State.onCluster_ir (s : State) (y : Nat) (f : Cluster → Cluster) : (s.onCluster y f).ir = s.ir := rfl
@[simp] theorem State.onCluster_free (s : State) (y : Nat) (f : Cluster → Cluster) : (s.onCluster y f).free = s.free := rfl

/-! ### onJob -/

@[simp] theorem State.onJob_mem (s : State) (j : Nat) (f : Job → Job) : (s.onJob j f).mem = s.mem := rfl
@[simp] theorem State.onJob_ctx (s : State) (j : Nat) (f : Job → Job) : (s.onJob j f).ctx = s.ctx := rfl
@[simp] theorem State.onJob_core (s : State) (j : Nat) (f : Job → Job) : (s.onJob j f).core = s.core := rfl
@[simp] theorem State.onJob_cluster (s : State) (j : Nat) (f : Job → Job) : (s.onJob j f).cluster = s.cluster := rfl
@[simp] theorem State.onJob_coding (s : State) (j : Nat) (f : Job → Job) : (s.onJob j f).coding = s.coding := rfl
@[simp] theorem State.onJob_dev (s : State) (j : Nat) (f : Job → Job) : (s.onJob j f).dev = s.dev := rfl
@[simp] theorem State.onJob_way (s : State) (j : Nat) (f : Job → Job) : (s.onJob j f).way = s.way := rfl
@[simp] theorem State.onJob_mesh (s : State) (j : Nat) (f : Job → Job) : (s.onJob j f).mesh = s.mesh := rfl
@[simp] theorem State.onJob_parks (s : State) (j : Nat) (f : Job → Job) : (s.onJob j f).parks = s.parks := rfl
@[simp] theorem State.onJob_notices (s : State) (j : Nat) (f : Job → Job) : (s.onJob j f).notices = s.notices := rfl
@[simp] theorem State.onJob_cur (s : State) (j : Nat) (f : Job → Job) : (s.onJob j f).cur = s.cur := rfl
@[simp] theorem State.onJob_turn (s : State) (j : Nat) (f : Job → Job) : (s.onJob j f).turn = s.turn := rfl
@[simp] theorem State.onJob_rounds (s : State) (j : Nat) (f : Job → Job) : (s.onJob j f).rounds = s.rounds := rfl
@[simp] theorem State.onJob_served (s : State) (j : Nat) (f : Job → Job) : (s.onJob j f).served = s.served := rfl
@[simp] theorem State.onJob_schedule (s : State) (j : Nat) (f : Job → Job) : (s.onJob j f).schedule = s.schedule := rfl
@[simp] theorem State.onJob_input (s : State) (j : Nat) (f : Job → Job) : (s.onJob j f).input = s.input := rfl
@[simp] theorem State.onJob_ir (s : State) (j : Nat) (f : Job → Job) : (s.onJob j f).ir = s.ir := rfl
@[simp] theorem State.onJob_free (s : State) (j : Nat) (f : Job → Job) : (s.onJob j f).free = s.free := rfl

/-! ### freshen -/

@[simp] theorem State.freshen_mem (s : State) (n : Nat) : (s.freshen n).mem = s.mem := rfl
@[simp] theorem State.freshen_ctx (s : State) (n : Nat) : (s.freshen n).ctx = s.ctx := rfl
@[simp] theorem State.freshen_core (s : State) (n : Nat) : (s.freshen n).core = s.core := rfl
@[simp] theorem State.freshen_cluster (s : State) (n : Nat) : (s.freshen n).cluster = s.cluster := rfl
@[simp] theorem State.freshen_coding (s : State) (n : Nat) : (s.freshen n).coding = s.coding := rfl
@[simp] theorem State.freshen_sched (s : State) (n : Nat) : (s.freshen n).sched = s.sched := rfl
@[simp] theorem State.freshen_dev (s : State) (n : Nat) : (s.freshen n).dev = s.dev := rfl
@[simp] theorem State.freshen_way (s : State) (n : Nat) : (s.freshen n).way = s.way := rfl
@[simp] theorem State.freshen_mesh (s : State) (n : Nat) : (s.freshen n).mesh = s.mesh := rfl
@[simp] theorem State.freshen_parks (s : State) (n : Nat) : (s.freshen n).parks = s.parks := rfl
@[simp] theorem State.freshen_notices (s : State) (n : Nat) : (s.freshen n).notices = s.notices := rfl
@[simp] theorem State.freshen_cur (s : State) (n : Nat) : (s.freshen n).cur = s.cur := rfl
@[simp] theorem State.freshen_turn (s : State) (n : Nat) : (s.freshen n).turn = s.turn := rfl
@[simp] theorem State.freshen_rounds (s : State) (n : Nat) : (s.freshen n).rounds = s.rounds := rfl
@[simp] theorem State.freshen_served (s : State) (n : Nat) : (s.freshen n).served = s.served := rfl
@[simp] theorem State.freshen_schedule (s : State) (n : Nat) : (s.freshen n).schedule = s.schedule := rfl
@[simp] theorem State.freshen_input (s : State) (n : Nat) : (s.freshen n).input = s.input := rfl
@[simp] theorem State.freshen_ir (s : State) (n : Nat) : (s.freshen n).ir = s.ir := rfl

/-! ### jump -/

@[simp] theorem State.jump_mem (s : State) (a : VA) : (s.jump a).mem = s.mem := rfl
@[simp] theorem State.jump_core (s : State) (a : VA) : (s.jump a).core = s.core := rfl
@[simp] theorem State.jump_cluster (s : State) (a : VA) : (s.jump a).cluster = s.cluster := rfl
@[simp] theorem State.jump_coding (s : State) (a : VA) : (s.jump a).coding = s.coding := rfl
@[simp] theorem State.jump_sched (s : State) (a : VA) : (s.jump a).sched = s.sched := rfl
@[simp] theorem State.jump_dev (s : State) (a : VA) : (s.jump a).dev = s.dev := rfl
@[simp] theorem State.jump_way (s : State) (a : VA) : (s.jump a).way = s.way := rfl
@[simp] theorem State.jump_mesh (s : State) (a : VA) : (s.jump a).mesh = s.mesh := rfl
@[simp] theorem State.jump_parks (s : State) (a : VA) : (s.jump a).parks = s.parks := rfl
@[simp] theorem State.jump_notices (s : State) (a : VA) : (s.jump a).notices = s.notices := rfl
@[simp] theorem State.jump_cur (s : State) (a : VA) : (s.jump a).cur = s.cur := rfl
@[simp] theorem State.jump_turn (s : State) (a : VA) : (s.jump a).turn = s.turn := rfl
@[simp] theorem State.jump_rounds (s : State) (a : VA) : (s.jump a).rounds = s.rounds := rfl
@[simp] theorem State.jump_served (s : State) (a : VA) : (s.jump a).served = s.served := rfl
@[simp] theorem State.jump_schedule (s : State) (a : VA) : (s.jump a).schedule = s.schedule := rfl
@[simp] theorem State.jump_input (s : State) (a : VA) : (s.jump a).input = s.input := rfl
@[simp] theorem State.jump_ir (s : State) (a : VA) : (s.jump a).ir = s.ir := rfl
@[simp] theorem State.jump_free (s : State) (a : VA) : (s.jump a).free = s.free := rfl

/-! ### advance -/

@[simp] theorem State.advance_mem (s : State) : (s.advance).mem = s.mem := rfl
@[simp] theorem State.advance_core (s : State) : (s.advance).core = s.core := rfl
@[simp] theorem State.advance_cluster (s : State) : (s.advance).cluster = s.cluster := rfl
@[simp] theorem State.advance_coding (s : State) : (s.advance).coding = s.coding := rfl
@[simp] theorem State.advance_sched (s : State) : (s.advance).sched = s.sched := rfl
@[simp] theorem State.advance_dev (s : State) : (s.advance).dev = s.dev := rfl
@[simp] theorem State.advance_way (s : State) : (s.advance).way = s.way := rfl
@[simp] theorem State.advance_mesh (s : State) : (s.advance).mesh = s.mesh := rfl
@[simp] theorem State.advance_parks (s : State) : (s.advance).parks = s.parks := rfl
@[simp] theorem State.advance_notices (s : State) : (s.advance).notices = s.notices := rfl
@[simp] theorem State.advance_cur (s : State) : (s.advance).cur = s.cur := rfl
@[simp] theorem State.advance_turn (s : State) : (s.advance).turn = s.turn := rfl
@[simp] theorem State.advance_rounds (s : State) : (s.advance).rounds = s.rounds := rfl
@[simp] theorem State.advance_served (s : State) : (s.advance).served = s.served := rfl
@[simp] theorem State.advance_schedule (s : State) : (s.advance).schedule = s.schedule := rfl
@[simp] theorem State.advance_input (s : State) : (s.advance).input = s.input := rfl
@[simp] theorem State.advance_ir (s : State) : (s.advance).ir = s.ir := rfl
@[simp] theorem State.advance_free (s : State) : (s.advance).free = s.free := rfl

/-! ### Contexts -/

theorem State.ctxAt_setCtx (s : State) (k : Nat) (c : Ctx) (j : Nat) : (s.setCtx k c).ctxAt j = if j = k then c else s.ctxAt j := by
  show ((Sparse.get none (Sparse.put s.ctx k (some c)) j).getD (ctxDefault j)) = _
  rw [Sparse.get_put]
  split <;> rfl

@[simp] theorem State.ctxAt_setCtx_same (s : State) (k : Nat) (c : Ctx) : (s.setCtx k c).ctxAt k = c := by
  rw [State.ctxAt_setCtx, if_pos rfl]

theorem State.ctxAt_setCtx_other (s : State) {j k : Nat} (h : j ≠ k) (c : Ctx) : (s.setCtx k c).ctxAt j = s.ctxAt j := by
  rw [State.ctxAt_setCtx, if_neg h]

theorem State.ctxAt_onCtx (s : State) (k : Nat) (f : Ctx → Ctx) (j : Nat) :
    (s.onCtx k f).ctxAt j = if j = k then f (s.ctxAt k) else s.ctxAt j := State.ctxAt_setCtx ..

@[simp] theorem State.me_setMe (s : State) (c : Ctx) : (s.setMe c).me = c := State.ctxAt_setCtx_same ..

@[simp] theorem State.me_onMe (s : State) (f : Ctx → Ctx) : (s.onMe f).me = f s.me := State.me_setMe ..

theorem State.ctxAt_onMe (s : State) (f : Ctx → Ctx) (j : Nat) : (s.onMe f).ctxAt j = if j = s.cur then f s.me else s.ctxAt j :=
  State.ctxAt_setCtx ..

theorem State.ctxAt_onMe_other (s : State) (f : Ctx → Ctx) {j : Nat} (h : j ≠ s.cur) : (s.onMe f).ctxAt j = s.ctxAt j := by
  rw [State.ctxAt_onMe, if_neg h]

@[simp] theorem State.me_wr (s : State) (r : BitVec 5) (v : W64) : (s.wr r v).me = s.me.wr r.toNat v := State.me_onMe ..

@[simp] theorem State.me_advance (s : State) : s.advance.me = s.me.advance := State.me_onMe ..

@[simp] theorem State.me_jump (s : State) (a : VA) : (s.jump a).me = s.me.jump a := State.me_onMe ..

/-- Writing one context twice leaves what the second write says. -/
theorem Sparse.put_put (m : Sparse α) (k : Nat) (v w : α) : Sparse.put (Sparse.put m k v) k w = Sparse.put m k w := by
  have he : Sparse.erase (Sparse.insert (Sparse.erase m k) k v) k = Sparse.erase m k := by
    induction m with
    | nil => simp [Sparse.erase, Sparse.insert]
    | cons p m ih =>
      obtain ⟨i, x⟩ := p
      rw [Sparse.erase]
      split
      · exact ih
      · rename_i h
        rw [Sparse.insert]
        have hx : Sparse.erase (Sparse.erase m k) k = Sparse.erase m k := by
          clear ih
          induction m with
          | nil => rfl
          | cons q m ih =>
            obtain ⟨j, y⟩ := q
            rw [Sparse.erase]
            split
            · exact ih
            · rename_i hj
              rw [Sparse.erase, if_neg hj, ih]
        split
        · rw [Sparse.erase, if_pos rfl, Sparse.erase, if_neg h, hx]
        · rw [Sparse.erase, if_neg h, ih]
  rw [Sparse.put, Sparse.put, Sparse.put, he]

theorem State.setCtx_setCtx (s : State) (k : Nat) (c d : Ctx) : (s.setCtx k c).setCtx k d = s.setCtx k d := by
  show ({ s with ctx := Sparse.put (Sparse.put s.ctx k (some c)) k (some d) } : State) = { s with ctx := Sparse.put s.ctx k (some d) }
  rw [Sparse.put_put]

/-- Two changes of the issuing context are one. -/
theorem State.onMe_onMe (s : State) (f g : Ctx → Ctx) : (s.onMe f).onMe g = s.setMe (g (f s.me)) := by
  rw [State.onMe, State.me_onMe]
  exact State.setCtx_setCtx ..

/-! ### Cores and clusters -/

theorem State.coreAt_onCore (s : State) (m : Nat) (f : Core → Core) (n : Nat) :
    (s.onCore m f).coreAt n = if n = m then f (s.coreAt m) else s.coreAt n := Sparse.get_put ..

@[simp] theorem State.coreAt_onCore_same (s : State) (m : Nat) (f : Core → Core) : (s.onCore m f).coreAt m = f (s.coreAt m) := by
  rw [State.coreAt_onCore, if_pos rfl]

theorem State.clusterAt_onCluster (s : State) (y : Nat) (f : Cluster → Cluster) (z : Nat) :
    (s.onCluster y f).clusterAt z = if z = y then f (s.clusterAt y) else s.clusterAt z := Sparse.get_put ..

@[simp] theorem State.clusterAt_onCluster_same (s : State) (y : Nat) (f : Cluster → Cluster) :
    (s.onCluster y f).clusterAt y = f (s.clusterAt y) := by
  rw [State.clusterAt_onCluster, if_pos rfl]

@[simp] theorem State.ctxAt_onCore (s : State) (m : Nat) (f : Core → Core) (k : Nat) : (s.onCore m f).ctxAt k = s.ctxAt k := rfl
@[simp] theorem State.me_onCore (s : State) (m : Nat) (f : Core → Core) : (s.onCore m f).me = s.me := rfl
@[simp] theorem State.ctxAt_onCluster (s : State) (y : Nat) (f : Cluster → Cluster) (k : Nat) : (s.onCluster y f).ctxAt k = s.ctxAt k := rfl
@[simp] theorem State.me_onCluster (s : State) (y : Nat) (f : Cluster → Cluster) : (s.onCluster y f).me = s.me := rfl
@[simp] theorem State.coreAt_onCtx (s : State) (k : Nat) (f : Ctx → Ctx) (m : Nat) : (s.onCtx k f).coreAt m = s.coreAt m := rfl
@[simp] theorem State.coreAt_onMe (s : State) (f : Ctx → Ctx) (m : Nat) : (s.onMe f).coreAt m = s.coreAt m := rfl
@[simp] theorem State.coreAt_onCluster (s : State) (y : Nat) (f : Cluster → Cluster) (m : Nat) : (s.onCluster y f).coreAt m = s.coreAt m := rfl
@[simp] theorem State.clusterAt_onCore (s : State) (m : Nat) (f : Core → Core) (y : Nat) : (s.onCore m f).clusterAt y = s.clusterAt y := rfl
@[simp] theorem State.clusterAt_onMe (s : State) (f : Ctx → Ctx) (y : Nat) : (s.onMe f).clusterAt y = s.clusterAt y := rfl

/-! ### Registers -/

@[simp] theorem Ctx.rd_zero (c : Ctx) : c.rd 0 = 0 := rfl
@[simp] theorem Ctx.wr_zero (c : Ctx) (v : W64) : c.wr 0 v = c := rfl

theorem Ctx.rd_wr (c : Ctx) (r q : Nat) (v : W64) (h : r ≠ 0) : (c.wr r v).rd q = if q = r then v else c.rd q := by
  rw [Ctx.wr, if_neg h, Ctx.rd, Ctx.rd]
  by_cases hq : q = 0
  · rw [if_pos hq, if_pos hq, if_neg (by omega)]
  · rw [if_neg hq, if_neg hq, Sparse.get_set]

/-- A register other than the one written reads as before, whichever is written. -/
theorem Ctx.rd_wr_other (c : Ctx) {r q : Nat} (v : W64) (h : q ≠ r) : (c.wr r v).rd q = c.rd q := by
  by_cases hr : r = 0
  · rw [hr, Ctx.wr_zero]
  · rw [Ctx.rd_wr c r q v hr, if_neg h]

@[simp] theorem Ctx.crGet_crSet (c : Ctx) (n m : Nat) (v : W64) : (c.crSet n v).crGet m = if m = n then v else c.crGet m := Sparse.get_set ..
@[simp] theorem Core.crGet_crSet (c : Core) (n m : Nat) (v : W64) : (c.crSet n v).crGet m = if m = n then v else c.crGet m := Sparse.get_set ..
@[simp] theorem Device.crGet_crSet (d : Device) (n m : Nat) (v : W64) : (d.crSet n v).crGet m = if m = n then v else d.crGet m :=
  Sparse.get_set ..

end Sys2Proof.Machine
end

