-- ==== Sys2Proof/Laws/Net.lean ====
section
/-! SUPPORT. What sending a message and counting an event can do: no context, no job and no part beside the cores and the mesh changes, and memory
is as before but for the records of a trace, and keeps its canonical form. -/

namespace Sys2Proof.Machine

/-- No context and no job differs, and memory keeps its canonical form. -/
structure SameWork (s t : State) : Prop where
  ctx : t.ctx = s.ctx
  sched : t.sched = s.sched
  wf : Memory.wf s.mem = true → Memory.wf t.mem = true

theorem SameWork.refl (s : State) : SameWork s s := ⟨rfl, rfl, id⟩

theorem SameWork.trans {s t u : State} (h : SameWork s t) (g : SameWork t u) : SameWork s u :=
  ⟨g.ctx.trans h.ctx, g.sched.trans h.sched, fun w => g.wf (h.wf w)⟩

theorem SameWork.ite {s t u : State} (c : Prop) [Decidable c] (h : SameWork s t) (g : SameWork s u) : SameWork s (if c then t else u) := by
  split
  · exact h
  · exact g

theorem SameWork.fold {β : Type} {f : State → β → State} (hf : ∀ s b, SameWork s (f s b)) (bs : List β) (s : State) :
    SameWork s (bs.foldl f s) := by
  induction bs generalizing s with
  | nil => exact .refl s
  | cons b bs ih => exact (hf s b).trans (ih _)

theorem SameWork.onCore {s t : State} (h : SameWork s t) (m : Nat) (f : Core → Core) : SameWork s (t.onCore m f) := h.trans ⟨rfl, rfl, id⟩

theorem SameWork.freshen {s t : State} (h : SameWork s t) (n : Nat) : SameWork s (t.freshen n) := h.trans ⟨rfl, rfl, id⟩

theorem SameWork.perform {s t : State} (h : SameWork s t) (a : Nat) (bs : List Byte) : SameWork s (t.perform a bs) :=
  h.trans ⟨rfl, rfl, fun w => State.perform_wf w a bs⟩

/-- A change of cores and of the mesh alone. -/
theorem SameWork.of_parts (s : State) (core : Sparse Core) (mesh : Mesh) (free : Nat) :
    SameWork s { s with core := core, mesh := mesh, free := free } := ⟨rfl, rfl, id⟩

/-! ### Messages -/

/-- A request counted changes one core, in its count of requests and its count of flits. -/
theorem State.countSent_parts (s : State) (c : MsgClass) (src len : Nat) : ∃ core, s.countSent c src len = { s with core := core } := by
  unfold State.countSent
  split <;> exact ⟨_, rfl⟩

theorem State.countSent_core (s : State) (src len m : Nat) : ∃ cr n,
    (s.countSent .req src len).coreAt m = { s.coreAt m with cr := cr, nflit := n }
      ∧ ∀ r, r ≠ 0x300 → ((s.countSent .req src len).coreAt m).crGet r = (s.coreAt m).crGet r := by
  unfold State.countSent
  split
  · exact ⟨_, _, rfl, fun _ _ => rfl⟩
  · rw [State.coreAt_onCore]
    split
    · rename_i h
      subst h
      refine ⟨_, _, rfl, fun r hr => ?_⟩
      exact (Core.crGet_crSet ..).trans (if_neg hr)
    · exact ⟨_, _, rfl, fun _ _ => rfl⟩

/-- A message sent changes cores, the mesh and the count of free values. -/
theorem State.sendFree_parts (s : State) (m : Message) :
    ∃ core mesh, s.sendFree m = { s with core := core, mesh := mesh, free := s.free + 1 } := by
  obtain ⟨core, h⟩ := s.countSent_parts m.cls m.src s.freeLen
  exact ⟨core, _, by rw [State.sendFree, h]; rfl⟩

theorem State.sendFree_work (s : State) (m : Message) : SameWork s (s.sendFree m) := by
  obtain ⟨core, mesh, h⟩ := s.sendFree_parts m
  rw [h]
  exact .of_parts ..

theorem State.sendFree_mem (s : State) (m : Message) : (s.sendFree m).mem = s.mem := by
  obtain ⟨core, mesh, h⟩ := s.sendFree_parts m
  rw [h]

theorem State.send_work (s : State) (c : MsgClass) (src dst : Nat) : SameWork s (s.send c src dst) := s.sendFree_work _
theorem State.ask_work (s : State) (src dst loc : Nat) (wr : Bool) (k : Option Nat) (mask : Nat) : SameWork s (s.ask src dst loc wr k mask) :=
  s.sendFree_work _
theorem State.command_work (s : State) (src stop : Nat) : SameWork s (s.command src stop) := s.sendFree_work _
theorem State.reply_work (s : State) (m : Message) : SameWork s (s.reply m) := s.sendFree_work _

/-- A message's payload leaves contexts, memory and jobs. -/
theorem State.sendBytesMsg_work (s : State) (kind : MsgKind) (k : Option Nat) (src dst raw : Nat) (ws : List W64) :
    SameWork s (s.sendBytesMsg kind k src dst raw ws) := by
  have h (t : State) (c : MsgClass) (a b : Nat) : SameWork t (t.countSent c a b) := by
    obtain ⟨core, h⟩ := t.countSent_parts c a b
    rw [h]
    exact .of_parts ..
  have inject (t : State) (m : Message) : SameWork t (t.inject m) := ⟨rfl, rfl, id⟩
  have dict (f : PairDict → PairDict) : SameWork s (s.onDict src dst f) := ⟨rfl, rfl, id⟩
  exact (((dict _).trans (h ..)).onCore ..).trans (inject ..)

/-! ### Events and trace records -/

theorem State.traceRecord_work (s : State) (m : Nat) (ws : List W64) : SameWork s (s.traceRecord m ws) := by
  unfold State.traceRecord
  dsimp only
  split
  · exact .refl s
  · exact ((s.ask_work ..).perform ..).onCore ..

theorem State.samples_work (s : State) (m k old n : Nat) : SameWork s (s.samples m k old n) := by
  unfold State.samples
  dsimp only
  split
  · exact .fold (fun s _ => s.traceRecord_work ..) _ s
  · exact .refl s

theorem State.tally_work (s : State) (m k e n : Nat) : SameWork s (s.tally m k e n) := by
  unfold State.tally
  exact .ite _ (((SameWork.refl s).onCore ..).trans (State.samples_work ..)) ((SameWork.refl s).onCore ..)

@[simp] theorem State.tally_ctx (s : State) (m k e n : Nat) : (s.tally m k e n).ctx = s.ctx := (s.tally_work ..).ctx

@[simp] theorem State.tally_sched (s : State) (m k e n : Nat) : (s.tally m k e n).sched = s.sched := (s.tally_work ..).sched

theorem State.tally_wf {s : State} (h : Memory.wf s.mem = true) (m k e n : Nat) : Memory.wf (s.tally m k e n).mem = true :=
  (s.tally_work ..).wf h

end Sys2Proof.Machine
end

