-- ==== Sys2Proof/Laws/Access.lean ====
section
/-! SUPPORT. What a translated access can do: it changes memory (accessed and dirty bits), what waits on memory, and translation caches, and sends
the walker's requests. -/

namespace Sys2Proof.Machine

/-! ### Translation -/

/-- Only memory, the parked strands and notices, the translation caches and the messages of a walk with their counters differ; memory keeps its
canonical form. -/
structure OnlyTranslated (s t : State) : Prop where
  parts : ∃ mem parks notices core mesh free,
    t = { s with mem := mem, parks := parks, notices := notices, core := core, mesh := mesh, free := free }
  cores : ∀ m, ∃ tlb cr n, t.coreAt m = { s.coreAt m with tlb := tlb, cr := cr, nflit := n }
  regs : ∀ m r, r ≠ 0x300 → (t.coreAt m).crGet r = (s.coreAt m).crGet r
  wf : Memory.wf s.mem = true → Memory.wf t.mem = true

theorem OnlyTranslated.refl (s : State) : OnlyTranslated s s :=
  ⟨⟨_, _, _, _, _, _, rfl⟩, fun _ => ⟨_, _, _, rfl⟩, fun _ _ _ => rfl, id⟩

theorem OnlyTranslated.trans {s t u : State} (h : OnlyTranslated s t) (g : OnlyTranslated t u) : OnlyTranslated s u := by
  obtain ⟨_, _, _, _, _, _, ht⟩ := h.parts
  obtain ⟨_, _, _, _, _, _, hu⟩ := g.parts
  refine ⟨⟨_, _, _, _, _, _, by rw [hu, ht]⟩, fun m => ?_, fun m r hr => (g.regs m r hr).trans (h.regs m r hr), fun w => g.wf (h.wf w)⟩
  obtain ⟨_, _, _, hx⟩ := h.cores m
  obtain ⟨y, cr, n, hy⟩ := g.cores m
  exact ⟨y, cr, n, by rw [hy, hx]⟩

theorem OnlyTranslated.ctx {s t : State} (h : OnlyTranslated s t) : t.ctx = s.ctx := by
  obtain ⟨_, _, _, _, _, _, h⟩ := h.parts
  rw [h]

theorem OnlyTranslated.cur {s t : State} (h : OnlyTranslated s t) : t.cur = s.cur := by
  obtain ⟨_, _, _, _, _, _, h⟩ := h.parts
  rw [h]

theorem OnlyTranslated.sched {s t : State} (h : OnlyTranslated s t) : t.sched = s.sched := by
  obtain ⟨_, _, _, _, _, _, h⟩ := h.parts
  rw [h]

theorem OnlyTranslated.dev {s t : State} (h : OnlyTranslated s t) : t.dev = s.dev := by
  obtain ⟨_, _, _, _, _, _, h⟩ := h.parts
  rw [h]

theorem OnlyTranslated.way {s t : State} (h : OnlyTranslated s t) : t.way = s.way := by
  obtain ⟨_, _, _, _, _, _, h⟩ := h.parts
  rw [h]

theorem OnlyTranslated.cluster {s t : State} (h : OnlyTranslated s t) : t.cluster = s.cluster := by
  obtain ⟨_, _, _, _, _, _, h⟩ := h.parts
  rw [h]

theorem OnlyTranslated.coding {s t : State} (h : OnlyTranslated s t) : t.coding = s.coding := by
  obtain ⟨_, _, _, _, _, _, h⟩ := h.parts
  rw [h]

theorem OnlyTranslated.ctxAt {s t : State} (h : OnlyTranslated s t) (k : Nat) : t.ctxAt k = s.ctxAt k := by
  rw [State.ctxAt, State.ctxAt, h.ctx]

theorem OnlyTranslated.me {s t : State} (h : OnlyTranslated s t) : t.me = s.me := by rw [State.me, State.me, h.cur, h.ctxAt]

/-- A translation cached. -/
theorem OnlyTranslated.of_cache (s : State) (m : Nat) (e : TlbEntry) : OnlyTranslated s (s.cache m e) := by
  have h (n : Nat) : ∃ tlb, (s.cache m e).coreAt n = { s.coreAt n with tlb := tlb } := by
    rw [State.cache, State.coreAt_onCore]
    split
    · rename_i hn
      exact ⟨_, by rw [hn]⟩
    · exact ⟨_, rfl⟩
  refine ⟨⟨_, _, _, _, _, _, rfl⟩, fun n => ?_, fun n r _ => ?_, id⟩
  · obtain ⟨tlb, hn⟩ := h n
    exact ⟨tlb, _, _, hn⟩
  · obtain ⟨tlb, hn⟩ := h n
    rw [hn]
    rfl

theorem OnlyTranslated.cache {s t : State} (h : OnlyTranslated s t) (m : Nat) (e : TlbEntry) : OnlyTranslated s (t.cache m e) :=
  h.trans (.of_cache ..)

/-- A request of the walker. -/
theorem OnlyTranslated.of_ask (s : State) (src dst loc : Nat) (wr : Bool) (k : Option Nat) (mask : Nat) :
    OnlyTranslated s (s.ask src dst loc wr k mask) := by
  refine ⟨?_, fun m => ?_, fun m r hr => ?_, (s.ask_work ..).wf⟩
  · obtain ⟨core, mesh, h⟩ := s.sendFree_parts { src := src, dst := dst, tag := s.mesh.tag, loc := loc, wr := wr, key := k, mask := mask }
    exact ⟨_, _, _, core, mesh, _, h⟩
  · obtain ⟨cr, n, h, _⟩ := s.countSent_core src s.freeLen m
    exact ⟨_, cr, n, h⟩
  · obtain ⟨_, _, _, h⟩ := s.countSent_core src s.freeLen m
    exact h r hr

theorem OnlyTranslated.of_performNat (s : State) (a n v : Nat) : OnlyTranslated s (s.performNat a n v) :=
  ⟨⟨_, _, _, _, _, _, rfl⟩, fun _ => ⟨_, _, _, rfl⟩, fun _ _ _ => rfl, fun h => State.performNat_wf h a n v⟩

theorem OnlyTranslated.ite {s t u : State} (c : Prop) [Decidable c] (h : OnlyTranslated s t) (g : OnlyTranslated s u) :
    OnlyTranslated s (if c then t else u) := by
  split
  · exact h
  · exact g

theorem OnlyTranslated.fold {β : Type} {f : State → β → State} (hf : ∀ s b, OnlyTranslated s (f s b)) (bs : List β) (s : State) :
    OnlyTranslated s (bs.foldl f s) := by
  induction bs generalizing s with
  | nil => exact .refl s
  | cons b bs ih => exact (hf s b).trans (ih _)

/-- The walker's reads. -/
theorem State.askWalk_frame (s : State) (m root va : Nat) : OnlyTranslated s (s.askWalk m root va) := by
  unfold State.askWalk
  exact .ite _ (.refl s) (.fold (fun s _ => .of_ask s ..) _ s)

/-- The walker's update of an entry. -/
theorem State.updateEntry_frame (s : State) (m a e : Nat) : OnlyTranslated s (s.updateEntry m a e) :=
  (OnlyTranslated.of_ask s ..).trans (.of_performNat ..)

/-- The first write under a cached translation. -/
theorem State.markDirty_frame (s : State) (m : Nat) (e : TlbEntry) : OnlyTranslated s (s.markDirty m e) := by
  unfold State.markDirty
  exact .ite _ (.refl s) ((OnlyTranslated.ite _ (State.updateEntry_frame ..) (.refl s)).cache ..)

/-- What a translation can do. -/
theorem State.translate_frame {s s1 : State} {m : Nat} {root : W64} {st : Bool} {va : Nat} {acc : Acc} {p : Place}
    (h : s.translate m root st va acc = .ok (p, s1)) : OnlyTranslated s s1 := by
  unfold State.translate at h
  dsimp only at h
  split at h
  · cases h
  · split at h
    · split at h <;> cases h
      exact .ite _ (State.markDirty_frame ..) (.refl s)
    · split at h
      · cases h
      · split at h
        · cases h
        · cases h
          exact ((s.askWalk_frame ..).trans (.ite _ (.refl _) (State.updateEntry_frame ..))).cache ..

/-- What finding the place of an access can do. -/
theorem State.resolve_frame {s s1 : State} {k va : Nat} {acc : Acc} {p : Place} (h : s.resolve k va acc = .ok (p, s1)) : OnlyTranslated s s1 := by
  unfold State.resolve at h
  repeat' split at h
  · exact State.translate_frame h
  · cases h
  · cases h
    exact .refl s
  · cases h

theorem State.checked_frame {s s1 : State} {k va n : Nat} {acc : Acc} {p : Place} (h : s.checked k va n acc = .ok (p, s1)) :
    OnlyTranslated s s1 := by
  unfold State.checked at h
  split at h
  · cases h
  · rename_i r hr
    split at h
    · cases h
    · cases h
      exact State.resolve_frame hr

theorem State.access_frame {s s1 : State} {va al n : Nat} {acc : Acc} {p : Place} (h : s.access va al n acc = .ok (p, s1)) :
    OnlyTranslated s s1 := by
  unfold State.access at h
  split at h
  · cases h
  · exact State.checked_frame h

theorem State.request_frame {s s1 : State} {va al n : Nat} {acc : Acc} {p : Place} (h : s.request va al n acc = .ok (p, s1)) :
    OnlyTranslated s s1 := by
  unfold State.request at h
  split at h
  · cases h
  · split at h
    · cases h
    · exact State.checked_frame h

theorem State.waitPlace_frame {s s1 : State} {va : Nat} {p : Place} (h : s.waitPlace va = .ok (p, s1)) : OnlyTranslated s s1 := by
  unfold State.waitPlace at h
  split at h
  · cases h
  · split at h
    · cases h
    · rename_i q s2 hr
      repeat' split at h
      · cases h
      · cases h
      · cases h
        exact State.resolve_frame hr

theorem State.amoPlace_frame {s s1 : State} {va : Nat} {c : Bool} {p : Place} (h : s.amoPlace va c = .ok (p, s1)) : OnlyTranslated s s1 := by
  unfold State.amoPlace at h
  split at h
  · cases h
  · split at h
    · cases h
    · rename_i q s2 hr
      repeat' split at h
      · cases h
      · cases h
      · cases h
      · cases h
        exact State.resolve_frame hr

/-! ### Engines -/

theorem State.engineResolve_frame {s s1 : State} {m : Nat} {root : W64} {va : Nat} {acc : Acc} {p : Place}
    (h : s.engineResolve m root va acc = .ok (p, s1)) : OnlyTranslated s s1 := by
  unfold State.engineResolve at h
  split at h
  · cases h
  · split at h
    · exact State.translate_frame h
    · split at h
      · cases h
        exact .refl s
      · cases h

theorem State.engineSpan_frame {m : Nat} {root : W64} {acc : Acc} (fuel : Nat) {s s1 : State} {va n : Nat} {rs : List (Nat × Nat)}
    (h : s.engineSpan m root acc fuel va n = .ok (rs, s1)) : OnlyTranslated s s1 := by
  induction fuel generalizing s s1 va n rs with
  | zero => cases h; exact .refl s
  | succ fuel ih =>
    rw [State.engineSpan] at h
    split at h
    · cases h
      exact .refl s
    · split at h
      · cases h
      · rename_i p s2 hr
        split at h
        · cases h
        · rename_i ps s3 hs
          cases h
          exact (State.engineResolve_frame hr).trans (ih hs)

theorem State.engineRead_frame {s s1 : State} {m : Nat} {root : W64} {va n : Nat} {bs : List Byte}
    (h : s.engineRead m root va n = .ok (bs, s1)) : OnlyTranslated s s1 := by
  unfold State.engineRead at h
  split at h
  · cases h
  · rename_i rs s2 hr
    cases h
    exact State.engineSpan_frame _ hr

end Sys2Proof.Machine
end

