-- ==== Sys2Proof/Laws/Ops.lean ====
section
/-! SUPPORT. What the shared operations can do: going on to another word, a result, a wait, and taking an exception. -/

namespace Sys2Proof.Machine

/-! ### Going on -/

theorem Ctx.Wrote.refl (c : Ctx) (rs : List Nat) : c.Wrote c rs := ⟨fun _ _ _ => rfl, rfl⟩

/-- Strides added to bound targets leave every other register. -/
theorem Ctx.rd_foldl_bump (bs : List (BitVec 5 × W64)) (c : Ctx) (r : Nat) (h : r ∉ bs.map fun b => b.1.toNat) :
    (bs.foldl (fun c b => c.wr b.1.toNat (c.rd b.1.toNat + b.2)) c).rd r = c.rd r := by
  induction bs generalizing c with
  | nil => rfl
  | cons b bs ih =>
    rw [List.map_cons, List.mem_cons, not_or] at h
    rw [List.foldl_cons, ih _ h.2, Ctx.rd_wr_other _ _ h.1]

theorem Ctx.wr_eq (c : Ctx) (r : Nat) (v : W64) : c.wr r v = { c with g := (c.wr r v).g, syncRegs := (c.wr r v).syncRegs, late := (c.wr r v).late } := by
  unfold Ctx.wr
  split <;> rfl

theorem Ctx.foldl_bump_eq (bs : List (BitVec 5 × W64)) (c : Ctx) :
    bs.foldl (fun c b => c.wr b.1.toNat (c.rd b.1.toNat + b.2)) c
      = { c with
          g := (bs.foldl (fun c b => c.wr b.1.toNat (c.rd b.1.toNat + b.2)) c).g
          syncRegs := (bs.foldl (fun c b => c.wr b.1.toNat (c.rd b.1.toNat + b.2)) c).syncRegs
          late := (bs.foldl (fun c b => c.wr b.1.toNat (c.rd b.1.toNat + b.2)) c).late } := by
  induction bs generalizing c with
  | nil => rfl
  | cons b bs ih =>
    rw [List.foldl_cons, ih, Ctx.wr_eq]

/-- A register that no active level binds is unchanged when a pass ends. -/
theorem Ctx.passEnd_rd (c : Ctx) (l : Level) (ls : List Level) (r : Nat) (h : r ∉ l.set.binds.map fun b => b.1.toNat) :
    (c.passEnd l ls).rd r = c.rd r := by
  have hb : (c.bump l).rd r = c.rd r := Ctx.rd_foldl_bump _ c r h
  unfold Ctx.passEnd
  dsimp only
  split <;> split <;> exact hb

theorem Ctx.passEnd_only (c : Ctx) (l : Level) (ls : List Level) :
    c.passEnd l ls = { c with
      g := (c.passEnd l ls).g, syncRegs := (c.passEnd l ls).syncRegs, late := (c.passEnd l ls).late, pc := (c.passEnd l ls).pc, levels := (c.passEnd l ls).levels, rb := (c.passEnd l ls).rb
      open_ := (c.passEnd l ls).open_, atPoint := (c.passEnd l ls).atPoint } := by
  have hb : c.bump l = { c with g := (c.bump l).g, syncRegs := (c.bump l).syncRegs, late := (c.bump l).late } := Ctx.foldl_bump_eq l.set.binds c
  unfold Ctx.passEnd
  dsimp only
  rw [hb]
  split <;> split <;> rfl

/-- The targets after a pass ended are targets before it. -/
theorem Ctx.passEnd_targets (c : Ctx) (l : Level) (ls : List Level) (hc : c.levels = l :: ls) {r : Nat} (h : r ∈ (c.passEnd l ls).targets) :
    r ∈ c.targets := by
  unfold Ctx.targets at h ⊢
  rw [hc]
  unfold Ctx.passEnd at h
  dsimp only at h
  split at h
  · exact h
  · exact List.mem_append_right _ h

/-- Passes that end write the bound targets and where control stands. -/
theorem Ctx.endPasses_wrote (k : Nat) (c : Ctx) (rs : List Nat) : c.Wrote (Ctx.endPasses k c) rs := by
  induction k generalizing c with
  | zero => exact .refl c rs
  | succ k ih =>
    unfold Ctx.endPasses
    split
    · exact .refl c rs
    · rename_i l ls hc
      split
      · obtain ⟨h1, h2⟩ := ih (c.passEnd l ls)
        refine ⟨fun r hr ht => ?_, ?_⟩
        · rw [h1 r hr fun h => ht (c.passEnd_targets l ls hc h)]
          refine c.passEnd_rd l ls r fun h => ht ?_
          unfold Ctx.targets
          rw [hc]
          exact List.mem_append_left _ h
        · rw [h2, Ctx.passEnd_only]
      · exact .refl c rs

/-- What going to an address can do to a context. -/
theorem Ctx.jump_wrote (c : Ctx) (t : VA) (rs : List Nat) : c.Wrote (c.jump t) rs := by
  obtain ⟨h1, h2⟩ := Ctx.endPasses_wrote 6
    { c with pc := t, atPoint := false, again := false, waited := false, pastBreak := false, reopen := false, crossPhase := none, expired := false } rs
  exact ⟨h1, by rw [Ctx.jump, h2]⟩

/-- A register written and control gone on. -/
theorem Ctx.wr_jump_wrote (c : Ctx) (d : Nat) (v : W64) (t : VA) (rs : List Nat) (hd : d ∈ rs) : c.Wrote ((c.wr d v).jump t) rs := by
  obtain ⟨h1, h2⟩ := (c.wr d v).jump_wrote t rs
  have hl : (c.wr d v).targets = c.targets := by rw [Ctx.wr_eq]; rfl
  refine ⟨fun r hr ht => ?_, ?_⟩
  · rw [h1 r hr (hl ▸ ht), Ctx.rd_wr_other]
    exact fun h => hr (h ▸ hd)
  · rw [h2, Ctx.wr_eq]

/-- A state in which only the issuing context changed. -/
theorem OnlyMe.of_setMe (s : State) (c : Ctx) : OnlyMe s (s.setMe c) := by rw [OnlyMe, State.me_setMe]

theorem State.jump_onlyMe (s : State) (t : VA) : OnlyMe s (s.jump t) := .of_setMe s _

/-- A result changes only the issuing context. -/
theorem State.wr_advance_eq (s : State) (d : BitVec 5) (v : W64) : (s.wr d v).advance = s.setMe (s.me.wr d.toNat v).advance :=
  State.onMe_onMe ..

theorem State.wr_advance_onlyMe (s : State) (d : BitVec 5) (v : W64) : OnlyMe s (s.wr d v).advance := by
  rw [State.wr_advance_eq]
  exact .of_setMe ..

/-- What a result can do to the context: it writes its destination and goes on. -/
theorem State.wr_advance_wrote (s : State) (d : BitVec 5) (v : W64) : s.me.Wrote (s.wr d v).advance.me [d.toNat] := by
  rw [State.wr_advance_eq, State.me_setMe]
  exact s.me.wr_jump_wrote d.toNat v ((s.me.wr d.toNat v).pc + 4) [d.toNat] (List.mem_singleton.mpr rfl)

/-- A result that is no word of an event delivers itself. -/
theorem State.result_next (s : State) (d : BitVec 5) (v : W64) (h : s.coordDest d = false) : s.result d v = .next (s.wr d v).advance := by
  rw [State.result, h]
  rfl

/-! ### Waiting -/

/-- A held instruction changes nothing but that it executes again. -/
theorem State.wait_next (s : State) : s.wait = .next (s.setMe { s.me with again := true, stall := none }) := rfl

/-! ### Taking an exception -/

/-- Giving up what a context is held on leaves memory, contexts and cores. -/
theorem State.unhold_mem (s : State) (k : Nat) : (s.unhold k).mem = s.mem := by
  unfold State.unhold
  split <;> rfl

theorem State.unhold_ctx (s : State) (k : Nat) : (s.unhold k).ctx = s.ctx := by
  unfold State.unhold
  split <;> rfl

theorem State.unhold_core (s : State) (k : Nat) : (s.unhold k).core = s.core := by
  unfold State.unhold
  split <;> rfl

/-- A delivery changes no context but the steward's. -/
theorem State.deliver_ctxAt (s : State) (m k : Nat) (h : k ≠ 4096 + m) : (s.deliver m).ctxAt k = s.ctxAt k := by
  unfold State.deliver
  split
  · rfl
  · dsimp only
    split
    · rfl
    · rw [State.ctxAt_setCtx, if_neg h, State.ctxAt, State.tally_ctx]
      show ((Sparse.get none (s.unhold (4096 + m)).ctx k).getD (ctxDefault k)) = _
      rw [State.unhold_ctx]
      rfl

/-- A delivery keeps memory's canonical form. -/
theorem State.deliver_wf {s : State} (hw : Memory.wf s.mem = true) (m : Nat) : Memory.wf (s.deliver m).mem = true := by
  unfold State.deliver
  split
  · exact hw
  · dsimp only
    split
    · exact hw
    · refine State.tally_wf ?_ _ _ _ _
      show Memory.wf (s.unhold (4096 + m)).mem = true
      rw [State.unhold_mem]
      exact hw

/-- The walk that a trap ends changes no context. -/
theorem State.faultWalk_frame (s : State) (t : PendingTrap) : OnlyTranslated s (s.faultWalk t) := by
  unfold State.faultWalk
  exact .ite _ (s.askWalk_frame ..) (.refl s)

/-- A trap of a strand holds it and leaves its registers; of other contexts only its core's steward may change. -/
theorem State.raise_ctxAt (s : State) (t : PendingTrap) (h : isSteward t.key = false) (k : Nat) (hk : k ≠ 4096 + s.coreOf t.key) :
    (s.raise t).ctxAt k = if k = t.key
      then { s.ctxAt t.key with
        hold := .trapped, open_ := false, again := false, waited := false, captured := t.queue, trapSet := (s.ctxAt t.key).settings
        since := if (s.ctxAt t.key).crossPhase = none then (s.ctxAt t.key).since else s.now - (s.ctxAt t.key).since }
      else s.ctxAt k := by
  unfold State.raise
  rw [if_neg (by rw [h]; exact Bool.false_ne_true)]
  dsimp only
  rw [State.deliver_ctxAt _ _ _ hk, State.ctxAt_onCore, State.ctxAt_onCtx, State.ctxAt, State.ctxAt, State.unhold_ctx,
    (s.faultWalk_frame t).ctx]
  rfl

theorem State.raise_wf {s : State} (t : PendingTrap) (h : isSteward t.key = false) (hw : Memory.wf s.mem = true) :
    Memory.wf (s.raise t).mem = true := by
  unfold State.raise
  rw [if_neg (by rw [h]; exact Bool.false_ne_true)]
  refine State.deliver_wf ?_ _
  show Memory.wf ((s.faultWalk t).unhold t.key).mem = true
  rw [State.unhold_mem]
  exact (s.faultWalk_frame t).wf hw

end Sys2Proof.Machine
end

