-- ==== Sys2Proof/Laws/PerInstr.lean ====
section
/-! SUPPORT. Families of statements about an instruction as syntax, one lemma per constructor. -/

namespace Sys2Proof.Laws.OneWord

/-- An instruction is one word of 32 bits (R33). -/
def Statement (i : Instr) : Prop := ∀ w, encode i = some w → w < 2 ^ 32

/-- The most that a field adds to a word. -/
theorem part {n : Nat} (x : BitVec n) (o : Nat) : x.toNat * 2 ^ o ≤ (2 ^ n - 1) * 2 ^ o :=
  Nat.mul_le_mul_right _ (Nat.le_sub_one_of_lt x.isLt)

theorem of0 {i : Instr} {base : Nat} (e : encode i = some (asm base []))
    (b : base < 2 ^ 32) : Statement i := by
  intro w h
  rw [e] at h
  obtain rfl := Option.some.inj h
  simp only [asm, List.foldl]
  omega

theorem of1 {i : Instr} {base : Nat} {n0 o0 : Nat} {x0 : BitVec n0} (e : encode i = some (asm base [(x0.toNat, o0)]))
    (b : base + (2 ^ n0 - 1) * 2 ^ o0 < 2 ^ 32) : Statement i := by
  intro w h
  rw [e] at h
  obtain rfl := Option.some.inj h
  have hx0 := part x0 o0
  simp only [asm, List.foldl]
  omega

theorem of2 {i : Instr} {base : Nat} {n0 n1 o0 o1 : Nat} {x0 : BitVec n0} {x1 : BitVec n1} (e : encode i = some (asm base [(x0.toNat, o0), (x1.toNat, o1)]))
    (b : base + (2 ^ n0 - 1) * 2 ^ o0 + (2 ^ n1 - 1) * 2 ^ o1 < 2 ^ 32) : Statement i := by
  intro w h
  rw [e] at h
  obtain rfl := Option.some.inj h
  have hx0 := part x0 o0
  have hx1 := part x1 o1
  simp only [asm, List.foldl]
  omega

theorem of3 {i : Instr} {base : Nat} {n0 n1 n2 o0 o1 o2 : Nat} {x0 : BitVec n0} {x1 : BitVec n1} {x2 : BitVec n2} (e : encode i = some (asm base [(x0.toNat, o0), (x1.toNat, o1), (x2.toNat, o2)]))
    (b : base + (2 ^ n0 - 1) * 2 ^ o0 + (2 ^ n1 - 1) * 2 ^ o1 + (2 ^ n2 - 1) * 2 ^ o2 < 2 ^ 32) : Statement i := by
  intro w h
  rw [e] at h
  obtain rfl := Option.some.inj h
  have hx0 := part x0 o0
  have hx1 := part x1 o1
  have hx2 := part x2 o2
  simp only [asm, List.foldl]
  omega

theorem of4 {i : Instr} {base : Nat} {n0 n1 n2 n3 o0 o1 o2 o3 : Nat} {x0 : BitVec n0} {x1 : BitVec n1} {x2 : BitVec n2} {x3 : BitVec n3} (e : encode i = some (asm base [(x0.toNat, o0), (x1.toNat, o1), (x2.toNat, o2), (x3.toNat, o3)]))
    (b : base + (2 ^ n0 - 1) * 2 ^ o0 + (2 ^ n1 - 1) * 2 ^ o1 + (2 ^ n2 - 1) * 2 ^ o2 + (2 ^ n3 - 1) * 2 ^ o3 < 2 ^ 32) : Statement i := by
  intro w h
  rw [e] at h
  obtain rfl := Option.some.inj h
  have hx0 := part x0 o0
  have hx1 := part x1 o1
  have hx2 := part x2 o2
  have hx3 := part x3 o3
  simp only [asm, List.foldl]
  omega

theorem of5 {i : Instr} {base : Nat} {n0 n1 n2 n3 n4 o0 o1 o2 o3 o4 : Nat} {x0 : BitVec n0} {x1 : BitVec n1} {x2 : BitVec n2} {x3 : BitVec n3} {x4 : BitVec n4} (e : encode i = some (asm base [(x0.toNat, o0), (x1.toNat, o1), (x2.toNat, o2), (x3.toNat, o3), (x4.toNat, o4)]))
    (b : base + (2 ^ n0 - 1) * 2 ^ o0 + (2 ^ n1 - 1) * 2 ^ o1 + (2 ^ n2 - 1) * 2 ^ o2 + (2 ^ n3 - 1) * 2 ^ o3 + (2 ^ n4 - 1) * 2 ^ o4 < 2 ^ 32) : Statement i := by
  intro w h
  rw [e] at h
  obtain rfl := Option.some.inj h
  have hx0 := part x0 o0
  have hx1 := part x1 o1
  have hx2 := part x2 o2
  have hx3 := part x3 o3
  have hx4 := part x4 o4
  simp only [asm, List.foldl]
  omega

theorem of6 {i : Instr} {base : Nat} {n0 n1 n2 n3 n4 n5 o0 o1 o2 o3 o4 o5 : Nat} {x0 : BitVec n0} {x1 : BitVec n1} {x2 : BitVec n2} {x3 : BitVec n3} {x4 : BitVec n4} {x5 : BitVec n5} (e : encode i = some (asm base [(x0.toNat, o0), (x1.toNat, o1), (x2.toNat, o2), (x3.toNat, o3), (x4.toNat, o4), (x5.toNat, o5)]))
    (b : base + (2 ^ n0 - 1) * 2 ^ o0 + (2 ^ n1 - 1) * 2 ^ o1 + (2 ^ n2 - 1) * 2 ^ o2 + (2 ^ n3 - 1) * 2 ^ o3 + (2 ^ n4 - 1) * 2 ^ o4 + (2 ^ n5 - 1) * 2 ^ o5 < 2 ^ 32) : Statement i := by
  intro w h
  rw [e] at h
  obtain rfl := Option.some.inj h
  have hx0 := part x0 o0
  have hx1 := part x1 o1
  have hx2 := part x2 o2
  have hx3 := part x3 o3
  have hx4 := part x4 o4
  have hx5 := part x5 o5
  simp only [asm, List.foldl]
  omega

theorem of7 {i : Instr} {base : Nat} {n0 n1 n2 n3 n4 n5 n6 o0 o1 o2 o3 o4 o5 o6 : Nat} {x0 : BitVec n0} {x1 : BitVec n1} {x2 : BitVec n2} {x3 : BitVec n3} {x4 : BitVec n4} {x5 : BitVec n5} {x6 : BitVec n6} (e : encode i = some (asm base [(x0.toNat, o0), (x1.toNat, o1), (x2.toNat, o2), (x3.toNat, o3), (x4.toNat, o4), (x5.toNat, o5), (x6.toNat, o6)]))
    (b : base + (2 ^ n0 - 1) * 2 ^ o0 + (2 ^ n1 - 1) * 2 ^ o1 + (2 ^ n2 - 1) * 2 ^ o2 + (2 ^ n3 - 1) * 2 ^ o3 + (2 ^ n4 - 1) * 2 ^ o4 + (2 ^ n5 - 1) * 2 ^ o5 + (2 ^ n6 - 1) * 2 ^ o6 < 2 ^ 32) : Statement i := by
  intro w h
  rw [e] at h
  obtain rfl := Option.some.inj h
  have hx0 := part x0 o0
  have hx1 := part x1 o1
  have hx2 := part x2 o2
  have hx3 := part x3 o3
  have hx4 := part x4 o4
  have hx5 := part x5 o5
  have hx6 := part x6 o6
  simp only [asm, List.foldl]
  omega

theorem trap (x1) : Statement (.trap x1) := of1 rfl (by decide)
theorem crrd (x1 x2) : Statement (.crrd x1 x2) := of2 rfl (by decide)
theorem crwr (x1 x2) : Statement (.crwr x1 x2) := of2 rfl (by decide)
theorem crset (x1 x2 x3) : Statement (.crset x1 x2 x3) := of3 rfl (by decide)
theorem crclr (x1 x2 x3) : Statement (.crclr x1 x2 x3) := of3 rfl (by decide)
theorem add (x1 x2 x3) : Statement (.add x1 x2 x3) := of3 rfl (by decide)
theorem sub (x1 x2 x3) : Statement (.sub x1 x2 x3) := of3 rfl (by decide)
theorem and (x1 x2 x3) : Statement (.and x1 x2 x3) := of3 rfl (by decide)
theorem or (x1 x2 x3) : Statement (.or x1 x2 x3) := of3 rfl (by decide)
theorem xor (x1 x2 x3) : Statement (.xor x1 x2 x3) := of3 rfl (by decide)
theorem andn (x1 x2 x3) : Statement (.andn x1 x2 x3) := of3 rfl (by decide)
theorem shl (x1 x2 x3) : Statement (.shl x1 x2 x3) := of3 rfl (by decide)
theorem shr (x1 x2 x3) : Statement (.shr x1 x2 x3) := of3 rfl (by decide)
theorem sra (x1 x2 x3) : Statement (.sra x1 x2 x3) := of3 rfl (by decide)
theorem rol (x1 x2 x3) : Statement (.rol x1 x2 x3) := of3 rfl (by decide)
theorem slt (x1 x2 x3) : Statement (.slt x1 x2 x3) := of3 rfl (by decide)
theorem sltn (x1 x2 x3) : Statement (.sltn x1 x2 x3) := of3 rfl (by decide)
theorem seq (x1 x2 x3) : Statement (.seq x1 x2 x3) := of3 rfl (by decide)
theorem min (x1 x2 x3) : Statement (.min x1 x2 x3) := of3 rfl (by decide)
theorem max (x1 x2 x3) : Statement (.max x1 x2 x3) := of3 rfl (by decide)
theorem minn (x1 x2 x3) : Statement (.minn x1 x2 x3) := of3 rfl (by decide)
theorem maxn (x1 x2 x3) : Statement (.maxn x1 x2 x3) := of3 rfl (by decide)
theorem clz (x1 x2) : Statement (.clz x1 x2) := of2 rfl (by decide)
theorem ctz (x1 x2) : Statement (.ctz x1 x2) := of2 rfl (by decide)
theorem popc (x1 x2) : Statement (.popc x1 x2) := of2 rfl (by decide)
theorem sext (x1 x2 x3) : Statement (.sext x1 x2 x3) := of3 rfl (by decide)
theorem zext (x1 x2 x3) : Statement (.zext x1 x2 x3) := of3 rfl (by decide)
theorem mul (x1 x2 x3) : Statement (.mul x1 x2 x3) := of3 rfl (by decide)
theorem mulh (x1 x2 x3) : Statement (.mulh x1 x2 x3) := of3 rfl (by decide)
theorem mulhn (x1 x2 x3) : Statement (.mulhn x1 x2 x3) := of3 rfl (by decide)
theorem div (x1 x2 x3) : Statement (.div x1 x2 x3) := of3 rfl (by decide)
theorem divn (x1 x2 x3) : Statement (.divn x1 x2 x3) := of3 rfl (by decide)
theorem rem (x1 x2 x3) : Statement (.rem x1 x2 x3) := of3 rfl (by decide)
theorem remn (x1 x2 x3) : Statement (.remn x1 x2 x3) := of3 rfl (by decide)
theorem addi (x1 x2 x3) : Statement (.addi x1 x2 x3) := of3 rfl (by decide)
theorem andi (x1 x2 x3) : Statement (.andi x1 x2 x3) := of3 rfl (by decide)
theorem ori (x1 x2 x3) : Statement (.ori x1 x2 x3) := of3 rfl (by decide)
theorem xori (x1 x2 x3) : Statement (.xori x1 x2 x3) := of3 rfl (by decide)
theorem slti (x1 x2 x3) : Statement (.slti x1 x2 x3) := of3 rfl (by decide)
theorem sltni (x1 x2 x3) : Statement (.sltni x1 x2 x3) := of3 rfl (by decide)
theorem shli (x1 x2 x3) : Statement (.shli x1 x2 x3) := of3 rfl (by decide)
theorem shri (x1 x2 x3) : Statement (.shri x1 x2 x3) := of3 rfl (by decide)
theorem srai (x1 x2 x3) : Statement (.srai x1 x2 x3) := of3 rfl (by decide)
theorem roli (x1 x2 x3) : Statement (.roli x1 x2 x3) := of3 rfl (by decide)
theorem lih (x1 x2) : Statement (.lih x1 x2) := of2 rfl (by decide)
theorem addpc (x1 x2) : Statement (.addpc x1 x2) := of2 rfl (by decide)
theorem beq (x1 x2 x3) : Statement (.beq x1 x2 x3) := of3 rfl (by decide)
theorem bne (x1 x2 x3) : Statement (.bne x1 x2 x3) := of3 rfl (by decide)
theorem blt (x1 x2 x3) : Statement (.blt x1 x2 x3) := of3 rfl (by decide)
theorem bge (x1 x2 x3) : Statement (.bge x1 x2 x3) := of3 rfl (by decide)
theorem bltn (x1 x2 x3) : Statement (.bltn x1 x2 x3) := of3 rfl (by decide)
theorem bgen (x1 x2 x3) : Statement (.bgen x1 x2 x3) := of3 rfl (by decide)
theorem jal (x1 x2) : Statement (.jal x1 x2) := of2 rfl (by decide)
theorem jalr (x1 x2 x3) : Statement (.jalr x1 x2 x3) := of3 rfl (by decide)
theorem loop (x1 x2) : Statement (.loop x1 x2) := of2 rfl (by decide)
theorem loopm (x1 x2) : Statement (.loopm x1 x2) := of2 rfl (by decide)
theorem loops (x1 x2) : Statement (.loops x1 x2) := of2 rfl (by decide)
theorem lstg (x1) : Statement (.lstg x1) := of1 rfl (by decide)
theorem lstr (x1 x2) : Statement (.lstr x1 x2) := of2 rfl (by decide)
theorem lmask (x1 x2) : Statement (.lmask x1 x2) := of2 rfl (by decide)
theorem lidx (x1 x2) : Statement (.lidx x1 x2) := of2 rfl (by decide)
theorem lbrk (x1) : Statement (.lbrk x1) := of1 rfl (by decide)
theorem ld (x1 x2 x3 x4 x5) : Statement (.ld x1 x2 x3 x4 x5) := of5 rfl (by decide)
theorem ldn (x1 x2 x3 x4 x5) : Statement (.ldn x1 x2 x3 x4 x5) := of5 rfl (by decide)
theorem st (x1 x2 x3 x4 x5) : Statement (.st x1 x2 x3 x4 x5) := of5 rfl (by decide)
theorem amoadd (x1 x2 x3 x4 x5) : Statement (.amoadd x1 x2 x3 x4 x5) := of5 rfl (by decide)
theorem amoand (x1 x2 x3 x4 x5) : Statement (.amoand x1 x2 x3 x4 x5) := of5 rfl (by decide)
theorem amoor (x1 x2 x3 x4 x5) : Statement (.amoor x1 x2 x3 x4 x5) := of5 rfl (by decide)
theorem amoxor (x1 x2 x3 x4 x5) : Statement (.amoxor x1 x2 x3 x4 x5) := of5 rfl (by decide)
theorem amomin (x1 x2 x3 x4 x5) : Statement (.amomin x1 x2 x3 x4 x5) := of5 rfl (by decide)
theorem amomax (x1 x2 x3 x4 x5) : Statement (.amomax x1 x2 x3 x4 x5) := of5 rfl (by decide)
theorem amominn (x1 x2 x3 x4 x5) : Statement (.amominn x1 x2 x3 x4 x5) := of5 rfl (by decide)
theorem amomaxn (x1 x2 x3 x4 x5) : Statement (.amomaxn x1 x2 x3 x4 x5) := of5 rfl (by decide)
theorem amoswp (x1 x2 x3 x4 x5) : Statement (.amoswp x1 x2 x3 x4 x5) := of5 rfl (by decide)
theorem amocas (x1 x2 x3 x4 x5) : Statement (.amocas x1 x2 x3 x4 x5) := of5 rfl (by decide)
theorem arrive (x1 x2 x3 x4 x5) : Statement (.arrive x1 x2 x3 x4 x5) := of5 rfl (by decide)
theorem fence (x1 x2) : Statement (.fence x1 x2) := of2 rfl (by decide)
theorem waita (x1 x2 x3) : Statement (.waita x1 x2 x3) := of3 rfl (by decide)
theorem cross (x1) : Statement (.cross x1) := of1 rfl (by decide)
theorem crossa (x1) : Statement (.crossa x1) := of1 rfl (by decide)
theorem crossw (x1 x2) : Statement (.crossw x1 x2) := of2 rfl (by decide)
theorem crossp (x1 x2) : Statement (.crossp x1 x2) := of2 rfl (by decide)
theorem vset (x1 x2 x3) : Statement (.vset x1 x2 x3) := of3 rfl (by decide)
theorem vld (x1 x2 x3 x4 x5) : Statement (.vld x1 x2 x3 x4 x5) := of5 rfl (by decide)
theorem vlds (x1 x2 x3 x4 x5 x6) : Statement (.vlds x1 x2 x3 x4 x5 x6) := of6 rfl (by decide)
theorem vldx (x1 x2 x3 x4 x5 x6) : Statement (.vldx x1 x2 x3 x4 x5 x6) := of6 rfl (by decide)
theorem vldff (x1 x2 x3 x4 x5) : Statement (.vldff x1 x2 x3 x4 x5) := of5 rfl (by decide)
theorem vlseg (x1 x2 x3 x4 x5 x6) : Statement (.vlseg x1 x2 x3 x4 x5 x6) := of6 rfl (by decide)
theorem vldt (x1 x2 x3 x4 x5 x6) : Statement (.vldt x1 x2 x3 x4 x5 x6) := of6 rfl (by decide)
theorem vldl (x1 x2 x3 x4 x5) : Statement (.vldl x1 x2 x3 x4 x5) := of5 rfl (by decide)
theorem vst (x1 x2 x3 x4 x5) : Statement (.vst x1 x2 x3 x4 x5) := of5 rfl (by decide)
theorem vsts (x1 x2 x3 x4 x5 x6) : Statement (.vsts x1 x2 x3 x4 x5 x6) := of6 rfl (by decide)
theorem vstx (x1 x2 x3 x4 x5 x6) : Statement (.vstx x1 x2 x3 x4 x5 x6) := of6 rfl (by decide)
theorem vsseg (x1 x2 x3 x4 x5 x6) : Statement (.vsseg x1 x2 x3 x4 x5 x6) := of6 rfl (by decide)
theorem vstt (x1 x2 x3 x4 x5 x6) : Statement (.vstt x1 x2 x3 x4 x5 x6) := of6 rfl (by decide)
theorem vstl (x1 x2 x3 x4 x5) : Statement (.vstl x1 x2 x3 x4 x5) := of5 rfl (by decide)
theorem vadd (x1 x2 x3 x4 x5 x6) : Statement (.vadd x1 x2 x3 x4 x5 x6) := of6 rfl (by decide)
theorem vsub (x1 x2 x3 x4 x5 x6) : Statement (.vsub x1 x2 x3 x4 x5 x6) := of6 rfl (by decide)
theorem vmul (x1 x2 x3 x4 x5 x6) : Statement (.vmul x1 x2 x3 x4 x5 x6) := of6 rfl (by decide)
theorem vmulh (x1 x2 x3 x4 x5 x6) : Statement (.vmulh x1 x2 x3 x4 x5 x6) := of6 rfl (by decide)
theorem vmulhn (x1 x2 x3 x4 x5 x6) : Statement (.vmulhn x1 x2 x3 x4 x5 x6) := of6 rfl (by decide)
theorem vmin (x1 x2 x3 x4 x5 x6) : Statement (.vmin x1 x2 x3 x4 x5 x6) := of6 rfl (by decide)
theorem vmax (x1 x2 x3 x4 x5 x6) : Statement (.vmax x1 x2 x3 x4 x5 x6) := of6 rfl (by decide)
theorem vminn (x1 x2 x3 x4 x5 x6) : Statement (.vminn x1 x2 x3 x4 x5 x6) := of6 rfl (by decide)
theorem vmaxn (x1 x2 x3 x4 x5 x6) : Statement (.vmaxn x1 x2 x3 x4 x5 x6) := of6 rfl (by decide)
theorem vand (x1 x2 x3 x4 x5 x6) : Statement (.vand x1 x2 x3 x4 x5 x6) := of6 rfl (by decide)
theorem vor (x1 x2 x3 x4 x5 x6) : Statement (.vor x1 x2 x3 x4 x5 x6) := of6 rfl (by decide)
theorem vxor (x1 x2 x3 x4 x5 x6) : Statement (.vxor x1 x2 x3 x4 x5 x6) := of6 rfl (by decide)
theorem vshl (x1 x2 x3 x4 x5 x6) : Statement (.vshl x1 x2 x3 x4 x5 x6) := of6 rfl (by decide)
theorem vshr (x1 x2 x3 x4 x5 x6) : Statement (.vshr x1 x2 x3 x4 x5 x6) := of6 rfl (by decide)
theorem vsra (x1 x2 x3 x4 x5 x6) : Statement (.vsra x1 x2 x3 x4 x5 x6) := of6 rfl (by decide)
theorem vsadd (x1 x2 x3 x4 x5 x6) : Statement (.vsadd x1 x2 x3 x4 x5 x6) := of6 rfl (by decide)
theorem vsaddn (x1 x2 x3 x4 x5 x6) : Statement (.vsaddn x1 x2 x3 x4 x5 x6) := of6 rfl (by decide)
theorem vssub (x1 x2 x3 x4 x5 x6) : Statement (.vssub x1 x2 x3 x4 x5 x6) := of6 rfl (by decide)
theorem vssubn (x1 x2 x3 x4 x5 x6) : Statement (.vssubn x1 x2 x3 x4 x5 x6) := of6 rfl (by decide)
theorem vwadd (x1 x2 x3 x4 x5 x6) : Statement (.vwadd x1 x2 x3 x4 x5 x6) := of6 rfl (by decide)
theorem vwmul (x1 x2 x3 x4 x5 x6) : Statement (.vwmul x1 x2 x3 x4 x5 x6) := of6 rfl (by decide)
theorem vwmac (x1 x2 x3 x4 x5 x6) : Statement (.vwmac x1 x2 x3 x4 x5 x6) := of6 rfl (by decide)
theorem vnshr (x1 x2 x3 x4 x5 x6) : Statement (.vnshr x1 x2 x3 x4 x5 x6) := of6 rfl (by decide)
theorem vdot4 (x1 x2 x3 x4 x5 x6) : Statement (.vdot4 x1 x2 x3 x4 x5 x6) := of6 rfl (by decide)
theorem vcmpeq (x1 x2 x3 x4 x5 x6) : Statement (.vcmpeq x1 x2 x3 x4 x5 x6) := of6 rfl (by decide)
theorem vcmplt (x1 x2 x3 x4 x5 x6) : Statement (.vcmplt x1 x2 x3 x4 x5 x6) := of6 rfl (by decide)
theorem vcmpltn (x1 x2 x3 x4 x5 x6) : Statement (.vcmpltn x1 x2 x3 x4 x5 x6) := of6 rfl (by decide)
theorem vfadd (x1 x2 x3 x4 x5 x6) : Statement (.vfadd x1 x2 x3 x4 x5 x6) := of6 rfl (by decide)
theorem vfsub (x1 x2 x3 x4 x5 x6) : Statement (.vfsub x1 x2 x3 x4 x5 x6) := of6 rfl (by decide)
theorem vfmul (x1 x2 x3 x4 x5 x6) : Statement (.vfmul x1 x2 x3 x4 x5 x6) := of6 rfl (by decide)
theorem vfma (x1 x2 x3 x4 x5 x6) : Statement (.vfma x1 x2 x3 x4 x5 x6) := of6 rfl (by decide)
theorem vfnma (x1 x2 x3 x4 x5 x6) : Statement (.vfnma x1 x2 x3 x4 x5 x6) := of6 rfl (by decide)
theorem vfdiv (x1 x2 x3 x4 x5 x6) : Statement (.vfdiv x1 x2 x3 x4 x5 x6) := of6 rfl (by decide)
theorem vfsqrt (x1 x2 x3 x4 x5) : Statement (.vfsqrt x1 x2 x3 x4 x5) := of5 rfl (by decide)
theorem vfrec (x1 x2 x3 x4 x5) : Statement (.vfrec x1 x2 x3 x4 x5) := of5 rfl (by decide)
theorem vfrsq (x1 x2 x3 x4 x5) : Statement (.vfrsq x1 x2 x3 x4 x5) := of5 rfl (by decide)
theorem vfmin (x1 x2 x3 x4 x5 x6) : Statement (.vfmin x1 x2 x3 x4 x5 x6) := of6 rfl (by decide)
theorem vfmax (x1 x2 x3 x4 x5 x6) : Statement (.vfmax x1 x2 x3 x4 x5 x6) := of6 rfl (by decide)
theorem vfminp (x1 x2 x3 x4 x5 x6) : Statement (.vfminp x1 x2 x3 x4 x5 x6) := of6 rfl (by decide)
theorem vfmaxp (x1 x2 x3 x4 x5 x6) : Statement (.vfmaxp x1 x2 x3 x4 x5 x6) := of6 rfl (by decide)
theorem vfabs (x1 x2 x3 x4 x5) : Statement (.vfabs x1 x2 x3 x4 x5) := of5 rfl (by decide)
theorem vfneg (x1 x2 x3 x4 x5) : Statement (.vfneg x1 x2 x3 x4 x5) := of5 rfl (by decide)
theorem vfcmpeq (x1 x2 x3 x4 x5 x6) : Statement (.vfcmpeq x1 x2 x3 x4 x5 x6) := of6 rfl (by decide)
theorem vfcmplt (x1 x2 x3 x4 x5 x6) : Statement (.vfcmplt x1 x2 x3 x4 x5 x6) := of6 rfl (by decide)
theorem vfcmple (x1 x2 x3 x4 x5 x6) : Statement (.vfcmple x1 x2 x3 x4 x5 x6) := of6 rfl (by decide)
theorem vfclass (x1 x2 x3 x4 x5) : Statement (.vfclass x1 x2 x3 x4 x5) := of5 rfl (by decide)
theorem vcmul (x1 x2 x3 x4 x5 x6) : Statement (.vcmul x1 x2 x3 x4 x5 x6) := of6 rfl (by decide)
theorem vcmac (x1 x2 x3 x4 x5 x6) : Statement (.vcmac x1 x2 x3 x4 x5 x6) := of6 rfl (by decide)
theorem vcmacj (x1 x2 x3 x4 x5 x6) : Statement (.vcmacj x1 x2 x3 x4 x5 x6) := of6 rfl (by decide)
theorem vcconj (x1 x2 x3 x4 x5) : Statement (.vcconj x1 x2 x3 x4 x5) := of5 rfl (by decide)
theorem vcabs2 (x1 x2 x3 x4 x5) : Statement (.vcabs2 x1 x2 x3 x4 x5) := of5 rfl (by decide)
theorem vcrot (x1 x2 x3 x4 x5 x6) : Statement (.vcrot x1 x2 x3 x4 x5 x6) := of6 rfl (by decide)
theorem vcscl (x1 x2 x3 x4 x5 x6) : Statement (.vcscl x1 x2 x3 x4 x5 x6) := of6 rfl (by decide)
theorem vcinv2 (x1 x2 x3 x4 x5) : Statement (.vcinv2 x1 x2 x3 x4 x5) := of5 rfl (by decide)
theorem vgjp (x1 x2 x3 x4 x5 x6) : Statement (.vgjp x1 x2 x3 x4 x5 x6) := of6 rfl (by decide)
theorem vperm (x1 x2 x3 x4 x5) : Statement (.vperm x1 x2 x3 x4 x5) := of5 rfl (by decide)
theorem vslup (x1 x2 x3 x4 x5) : Statement (.vslup x1 x2 x3 x4 x5) := of5 rfl (by decide)
theorem vsldn (x1 x2 x3 x4 x5) : Statement (.vsldn x1 x2 x3 x4 x5) := of5 rfl (by decide)
theorem vrev (x1 x2 x3 x4) : Statement (.vrev x1 x2 x3 x4) := of4 rfl (by decide)
theorem vpack (x1 x2 x3 x4) : Statement (.vpack x1 x2 x3 x4) := of4 rfl (by decide)
theorem vzip (x1 x2 x3 x4) : Statement (.vzip x1 x2 x3 x4) := of4 rfl (by decide)
theorem vunzip (x1 x2 x3 x4) : Statement (.vunzip x1 x2 x3 x4) := of4 rfl (by decide)
theorem vxch (x1 x2 x3 x4 x5) : Statement (.vxch x1 x2 x3 x4 x5) := of5 rfl (by decide)
theorem vbfly (x1 x2 x3 x4 x5 x6 x7) : Statement (.vbfly x1 x2 x3 x4 x5 x6 x7) := of7 rfl (by decide)
theorem vibfly (x1 x2 x3 x4 x5 x6 x7) : Statement (.vibfly x1 x2 x3 x4 x5 x6 x7) := of7 rfl (by decide)
theorem vplan (x1 x2 x3 x4 x5 x6 x7) : Statement (.vplan x1 x2 x3 x4 x5 x6 x7) := of7 rfl (by decide)
theorem vmand (x1 x2 x3 x4 x5) : Statement (.vmand x1 x2 x3 x4 x5) := of5 rfl (by decide)
theorem vmor (x1 x2 x3 x4 x5) : Statement (.vmor x1 x2 x3 x4 x5) := of5 rfl (by decide)
theorem vmxor (x1 x2 x3 x4 x5) : Statement (.vmxor x1 x2 x3 x4 x5) := of5 rfl (by decide)
theorem vmnot (x1 x2 x3 x4) : Statement (.vmnot x1 x2 x3 x4) := of4 rfl (by decide)
theorem vmfirst (x1 x2 x3 x4) : Statement (.vmfirst x1 x2 x3 x4) := of4 rfl (by decide)
theorem vmupto (x1 x2 x3 x4) : Statement (.vmupto x1 x2 x3 x4) := of4 rfl (by decide)
theorem vmpop (x1 x2 x3 x4) : Statement (.vmpop x1 x2 x3 x4) := of4 rfl (by decide)
theorem vredsum (x1 x2 x3 x4 x5 x6) : Statement (.vredsum x1 x2 x3 x4 x5 x6) := of6 rfl (by decide)
theorem vredmin (x1 x2 x3 x4 x5 x6) : Statement (.vredmin x1 x2 x3 x4 x5 x6) := of6 rfl (by decide)
theorem vredmax (x1 x2 x3 x4 x5 x6) : Statement (.vredmax x1 x2 x3 x4 x5 x6) := of6 rfl (by decide)
theorem vredminn (x1 x2 x3 x4 x5 x6) : Statement (.vredminn x1 x2 x3 x4 x5 x6) := of6 rfl (by decide)
theorem vredmaxn (x1 x2 x3 x4 x5 x6) : Statement (.vredmaxn x1 x2 x3 x4 x5 x6) := of6 rfl (by decide)
theorem vfredsum (x1 x2 x3 x4 x5 x6) : Statement (.vfredsum x1 x2 x3 x4 x5 x6) := of6 rfl (by decide)
theorem vfredmin (x1 x2 x3 x4 x5 x6) : Statement (.vfredmin x1 x2 x3 x4 x5 x6) := of6 rfl (by decide)
theorem vfredmax (x1 x2 x3 x4 x5 x6) : Statement (.vfredmax x1 x2 x3 x4 x5 x6) := of6 rfl (by decide)
theorem vcredsum (x1 x2 x3 x4 x5 x6) : Statement (.vcredsum x1 x2 x3 x4 x5 x6) := of6 rfl (by decide)
theorem vscan (x1 x2 x3 x4 x5) : Statement (.vscan x1 x2 x3 x4 x5) := of5 rfl (by decide)
theorem vltrip (x1 x2 x3 x4 x5) : Statement (.vltrip x1 x2 x3 x4 x5) := of5 rfl (by decide)
theorem vlstep (x1 x2 x3 x4) : Statement (.vlstep x1 x2 x3 x4) := of4 rfl (by decide)
theorem vcvt (x1 x2 x3 x4 x5 x6) : Statement (.vcvt x1 x2 x3 x4 x5 x6) := of6 rfl (by decide)
theorem vcvtsat (x1 x2 x3 x4 x5 x6) : Statement (.vcvtsat x1 x2 x3 x4 x5 x6) := of6 rfl (by decide)
theorem vcvtz (x1 x2 x3 x4 x5 x6) : Statement (.vcvtz x1 x2 x3 x4 x5 x6) := of6 rfl (by decide)
theorem vquant (x1 x2 x3 x4 x5 x6) : Statement (.vquant x1 x2 x3 x4 x5 x6) := of6 rfl (by decide)
theorem vdeq (x1 x2 x3 x4 x5 x6) : Statement (.vdeq x1 x2 x3 x4 x5 x6) := of6 rfl (by decide)
theorem vtdec (x1 x2 x3 x4 x5) : Statement (.vtdec x1 x2 x3 x4 x5) := of5 rfl (by decide)
theorem vmv (x1 x2 x3 x4) : Statement (.vmv x1 x2 x3 x4) := of4 rfl (by decide)
theorem vmvs (x1 x2 x3 x4) : Statement (.vmvs x1 x2 x3 x4) := of4 rfl (by decide)
theorem vext (x1 x2 x3 x4 x5) : Statement (.vext x1 x2 x3 x4 x5) := of5 rfl (by decide)
theorem vins (x1 x2 x3 x4 x5) : Statement (.vins x1 x2 x3 x4 x5) := of5 rfl (by decide)
theorem vid (x1 x2 x3) : Statement (.vid x1 x2 x3) := of3 rfl (by decide)
theorem vpush (x1 x2 x3) : Statement (.vpush x1 x2 x3) := of3 rfl (by decide)
theorem vtake (x1 x2 x3) : Statement (.vtake x1 x2 x3) := of3 rfl (by decide)
theorem vpoll (x1 x2 x3) : Statement (.vpoll x1 x2 x3) := of3 rfl (by decide)
theorem aclaim (x1 x2) : Statement (.aclaim x1 x2) := of2 rfl (by decide)
theorem arels (x1 x2) : Statement (.arels x1 x2) := of2 rfl (by decide)
theorem atile (x1 x2 x3) : Statement (.atile x1 x2 x3) := of3 rfl (by decide)
theorem alda (x1 x2) : Statement (.alda x1 x2) := of2 rfl (by decide)
theorem aldb (x1 x2) : Statement (.aldb x1 x2) := of2 rfl (by decide)
theorem amma (x1 x2 x3) : Statement (.amma x1 x2 x3) := of3 rfl (by decide)
theorem ammz (x1 x2 x3) : Statement (.ammz x1 x2 x3) := of3 rfl (by decide)
theorem asmma (x1 x2 x3) : Statement (.asmma x1 x2 x3) := of3 rfl (by decide)
theorem astc (x1 x2 x3) : Statement (.astc x1 x2 x3) := of3 rfl (by decide)
theorem azero (x1) : Statement (.azero x1) := of1 rfl (by decide)
theorem haul (x1 x2 x3) : Statement (.haul x1 x2 x3) := of3 rfl (by decide)
theorem haulnb (x1 x2 x3) : Statement (.haulnb x1 x2 x3) := of3 rfl (by decide)
theorem hmile (x1 x2) : Statement (.hmile x1 x2) := of2 rfl (by decide)
theorem hwait (x1 x2) : Statement (.hwait x1 x2) := of2 rfl (by decide)
theorem tdef (x1 x2 x3) : Statement (.tdef x1 x2 x3) := of3 rfl (by decide)
theorem tstat (x1 x2) : Statement (.tstat x1 x2) := of2 rfl (by decide)
theorem tset (x1 x2 x3) : Statement (.tset x1 x2 x3) := of3 rfl (by decide)
theorem tfree (x1 x2) : Statement (.tfree x1 x2) := of2 rfl (by decide)
theorem tenc (x1 x2 x3) : Statement (.tenc x1 x2 x3) := of3 rfl (by decide)
theorem twait (x1) : Statement (.twait x1) := of1 rfl (by decide)
theorem csub (x1 x2 x3) : Statement (.csub x1 x2 x3) := of3 rfl (by decide)
theorem cmile (x1) : Statement (.cmile x1) := of1 rfl (by decide)
theorem cwait (x1) : Statement (.cwait x1) := of1 rfl (by decide)
theorem fharm (x1 x2 x3) : Statement (.fharm x1 x2 x3) := of3 rfl (by decide)
theorem fhsend (x1 x2 x3) : Statement (.fhsend x1 x2 x3) := of3 rfl (by decide)
theorem fhstat (x1 x2) : Statement (.fhstat x1 x2) := of2 rfl (by decide)
theorem wjoin (x1 x2 x3) : Statement (.wjoin x1 x2 x3) := of3 rfl (by decide)
theorem wnear (x1 x2 x3) : Statement (.wnear x1 x2 x3) := of3 rfl (by decide)
theorem wpub (x1) : Statement (.wpub x1) := of1 rfl (by decide)
theorem wget (x1 x2 x3) : Statement (.wget x1 x2 x3) := of3 rfl (by decide)
theorem wtract (x1 x2) : Statement (.wtract x1 x2) := of2 rfl (by decide)
theorem spawn (x1 x2) : Statement (.spawn x1 x2) := of2 rfl (by decide)
theorem jdone (x1 x2) : Statement (.jdone x1 x2) := of2 rfl (by decide)
theorem qpush (x1 x2 x3) : Statement (.qpush x1 x2 x3) := of3 rfl (by decide)
theorem qpop (x1 x2 x3) : Statement (.qpop x1 x2 x3) := of3 rfl (by decide)
theorem qlen (x1 x2) : Statement (.qlen x1 x2) := of2 rfl (by decide)
theorem chsend (x1 x2 x3) : Statement (.chsend x1 x2 x3) := of3 rfl (by decide)
theorem chrecv (x1 x2 x3) : Statement (.chrecv x1 x2 x3) := of3 rfl (by decide)
theorem chrel (x1) : Statement (.chrel x1) := of1 rfl (by decide)
theorem time (x1) : Statement (.time x1) := of1 rfl (by decide)
theorem slack (x1 x2) : Statement (.slack x1 x2) := of2 rfl (by decide)
theorem trace (x1 x2) : Statement (.trace x1 x2) := of2 rfl (by decide)
theorem cntrd (x1 x2) : Statement (.cntrd x1 x2) := of2 rfl (by decide)
theorem cntcfg (x1 x2 x3) : Statement (.cntcfg x1 x2 x3) := of3 rfl (by decide)
theorem notAnInstruction (x1) : Statement (.notAnInstruction x1) := fun _ h => nomatch h
theorem ill : Statement (.ill) := of0 rfl (by decide)
theorem nop : Statement (.nop) := of0 rfl (by decide)
theorem eret : Statement (.eret) := of0 rfl (by decide)
theorem endStrand : Statement (.endStrand) := of0 rfl (by decide)
theorem yield : Statement (.yield) := of0 rfl (by decide)
theorem idle : Statement (.idle) := of0 rfl (by decide)
theorem bkpt : Statement (.bkpt) := of0 rfl (by decide)
theorem alease : Statement (.alease) := of0 rfl (by decide)
theorem afree : Statement (.afree) := of0 rfl (by decide)
theorem await : Statement (.await) := of0 rfl (by decide)
theorem wleave : Statement (.wleave) := of0 rfl (by decide)
theorem doorbell : Statement (.doorbell) := fun _ h => nomatch h
theorem launchRoute : Statement (.launchRoute) := fun _ h => nomatch h
theorem launchJob : Statement (.launchJob) := fun _ h => nomatch h
theorem writePacket : Statement (.writePacket) := fun _ h => nomatch h
theorem writeSignal : Statement (.writeSignal) := fun _ h => nomatch h
theorem abandonTree : Statement (.abandonTree) := fun _ h => nomatch h
theorem discardedPacket : Statement (.discardedPacket) := fun _ h => nomatch h
theorem sliceExpiry : Statement (.sliceExpiry) := fun _ h => nomatch h
theorem lock : Statement (.lock) := fun _ h => nomatch h
theorem fencedAcknowledge : Statement (.fencedAcknowledge) := fun _ h => nomatch h
theorem registerWrite : Statement (.registerWrite) := fun _ h => nomatch h
theorem hstatFaultClear : Statement (.hstatFaultClear) := fun _ h => nomatch h
theorem cstatFaultClear : Statement (.cstatFaultClear) := fun _ h => nomatch h
theorem tflagsClear : Statement (.tflagsClear) := fun _ h => nomatch h
theorem reset : Statement (.reset) := fun _ h => nomatch h
theorem getMeasurements : Statement (.getMeasurements) := fun _ h => nomatch h
theorem hallmarkExtend : Statement (.hallmarkExtend) := fun _ h => nomatch h
theorem twinLinkDown : Statement (.twinLinkDown) := fun _ h => nomatch h
theorem governorMeasurement : Statement (.governorMeasurement) := fun _ h => nomatch h
theorem powerExceeded : Statement (.powerExceeded) := fun _ h => nomatch h
theorem tierRise : Statement (.tierRise) := fun _ h => nomatch h
theorem junctionTemperature : Statement (.junctionTemperature) := fun _ h => nomatch h
theorem junctionCooled : Statement (.junctionCooled) := fun _ h => nomatch h
theorem clockSwitch : Statement (.clockSwitch) := fun _ h => nomatch h
theorem patrolScrub : Statement (.patrolScrub) := fun _ h => nomatch h
theorem schedulerTick : Statement (.schedulerTick) := fun _ h => nomatch h
theorem firstInstruction : Statement (.firstInstruction) := fun _ h => nomatch h
theorem preemptionAck : Statement (.preemptionAck) := fun _ h => nomatch h
theorem deadlineTick : Statement (.deadlineTick) := fun _ h => nomatch h
theorem graceExpiry : Statement (.graceExpiry) := fun _ h => nomatch h
theorem watchdogRun : Statement (.watchdogRun) := fun _ h => nomatch h
theorem watchdogKill : Statement (.watchdogKill) := fun _ h => nomatch h
theorem watchdogFence : Statement (.watchdogFence) := fun _ h => nomatch h
theorem stewardEndsJob : Statement (.stewardEndsJob) := fun _ h => nomatch h
theorem completion : Statement (.completion) := fun _ h => nomatch h
theorem sys : Statement (.sys) := fun _ h => nomatch h
theorem refill : Statement (.refill) := fun _ h => nomatch h
theorem timeout : Statement (.timeout) := fun _ h => nomatch h
theorem req : Statement (.req) := fun _ h => nomatch h
theorem rsp : Statement (.rsp) := fun _ h => nomatch h
theorem retry : Statement (.retry) := fun _ h => nomatch h
theorem migration : Statement (.migration) := fun _ h => nomatch h
theorem lpddr6ReadReturn : Statement (.lpddr6ReadReturn) := fun _ h => nomatch h
theorem wakeNotice : Statement (.wakeNotice) := fun _ h => nomatch h
theorem waitaTimeout : Statement (.waitaTimeout) := fun _ h => nomatch h
theorem waitaReload : Statement (.waitaReload) := fun _ h => nomatch h
theorem crossingRelease : Statement (.crossingRelease) := fun _ h => nomatch h
theorem crossingTimeout : Statement (.crossingTimeout) := fun _ h => nomatch h
theorem trapDelivery : Statement (.trapDelivery) := fun _ h => nomatch h
theorem stripStop : Statement (.stripStop) := fun _ h => nomatch h
theorem convoyOpen : Statement (.convoyOpen) := fun _ h => nomatch h
theorem convoyDrain : Statement (.convoyDrain) := fun _ h => nomatch h
theorem imageArrival : Statement (.imageArrival) := fun _ h => nomatch h
theorem transferStart : Statement (.transferStart) := fun _ h => nomatch h
theorem transferComplete : Statement (.transferComplete) := fun _ h => nomatch h
theorem haulFault : Statement (.haulFault) := fun _ h => nomatch h
theorem leaseWin : Statement (.leaseWin) := fun _ h => nomatch h
theorem leaseIdlePass : Statement (.leaseIdlePass) := fun _ h => nomatch h
theorem anvilCommandStart : Statement (.anvilCommandStart) := fun _ h => nomatch h
theorem anvilCommandComplete : Statement (.anvilCommandComplete) := fun _ h => nomatch h
theorem tencStart : Statement (.tencStart) := fun _ h => nomatch h
theorem tencComplete : Statement (.tencComplete) := fun _ h => nomatch h
theorem codingRequestStart : Statement (.codingRequestStart) := fun _ h => nomatch h
theorem codingRequestComplete : Statement (.codingRequestComplete) := fun _ h => nomatch h
theorem codingFault : Statement (.codingFault) := fun _ h => nomatch h
theorem portArrival : Statement (.portArrival) := fun _ h => nomatch h
theorem uPlaneMessage : Statement (.uPlaneMessage) := fun _ h => nomatch h
theorem receivedFrame : Statement (.receivedFrame) := fun _ h => nomatch h
theorem windowOpen : Statement (.windowOpen) := fun _ h => nomatch h
theorem windowClose : Statement (.windowClose) := fun _ h => nomatch h
theorem windowExpiry : Statement (.windowExpiry) := fun _ h => nomatch h
theorem sendLaunch : Statement (.sendLaunch) := fun _ h => nomatch h
theorem sendFinish : Statement (.sendFinish) := fun _ h => nomatch h
theorem tractMapRequest : Statement (.tractMapRequest) := fun _ h => nomatch h
theorem tractMapAnswer : Statement (.tractMapAnswer) := fun _ h => nomatch h
theorem handover : Statement (.handover) := fun _ h => nomatch h
theorem mapCopyUpdate : Statement (.mapCopyUpdate) := fun _ h => nomatch h
theorem tractFull : Statement (.tractFull) := fun _ h => nomatch h
theorem haloUpdate : Statement (.haloUpdate) := fun _ h => nomatch h
theorem translationInvalidation : Statement (.translationInvalidation) := fun _ h => nomatch h
theorem instructionCacheInvalidation : Statement (.instructionCacheInvalidation) := fun _ h => nomatch h
theorem fetchFault : Statement (.fetchFault) := fun _ h => nomatch h
theorem twinLinkUp : Statement (.twinLinkUp) := fun _ h => nomatch h
theorem postedWrite : Statement (.postedWrite) := fun _ h => nomatch h
theorem spdmRequest : Statement (.spdmRequest) := fun _ h => nomatch h

end Sys2Proof.Laws.OneWord
end

