-- ==== Sys2Proof/Laws/Reach.lean ====
section
/-! SUPPORT. What reaching a place can do: it sends messages, counts, and changes the lines that home caches list; no context and no job changes. -/

namespace Sys2Proof.Machine

theorem State.writeBack_work (s : State) (m : Nat) (l : HomeLine) : SameWork s (s.writeBack m l) := .ite _ (.refl s) (s.ask_work ..)

theorem State.evictHome_work (s : State) (m : Nat) : SameWork s (s.evictHome m) := by
  unfold State.evictHome
  dsimp only
  split
  · exact .refl s
  · split
    · exact .refl s
    · exact SameWork.trans (((SameWork.refl s).onCore ..).freshen 1) (State.writeBack_work ..)

/-- An access at a home cache sends, counts, and lists lines of the cache. -/
theorem State.homeAccess_work (s : State) (m line mask : Nat) : SameWork s (s.homeAccess m line mask) :=
  .ite _ ((s.tally_work ..).onCore ..) (((s.ask_work ..).trans (State.evictHome_work ..)).onCore ..)

theorem State.remoteAccess_work (s : State) (src dst k loc : Nat) (wr : Bool) : SameWork s (s.remoteAccess src dst k loc wr) :=
  (s.ask_work ..).trans (State.tally_work ..)

/-- Reaching a place sends messages, counts and marks a line of a home cache. -/
theorem State.reach_work (s : State) (k : Nat) (p : Place) (wr : Bool) (n : Nat) : SameWork s (s.reach k p wr n) := by
  have h : SameWork s (if servedAt p = s.coreOf k then s else if servedAt p < 256 then s.remoteAccess (s.coreOf k) (servedAt p) k p.loc wr
      else s.ask (s.coreOf k) (servedAt p) p.loc wr (some k) (if wr then 2 ^ n - 1 else 0)) :=
    .ite _ (.refl s) (.ite _ (s.remoteAccess_work ..) (s.ask_work ..))
  exact .ite _ (h.trans (State.homeAccess_work ..)) h

/-- The requests of a vector memory instruction or an engine. -/
theorem State.requestLines_work (s : State) (m : Nat) (k : Option Nat) (wr : Bool) (ps : List (Place × Nat)) :
    SameWork s (s.requestLines m k wr ps) := by
  have home (s : State) (l mask : Nat) : SameWork s
      ((if homeCore (l * 32) = m then s else s.ask m (homeCore (l * 32)) (l * 32) wr k).homeAccess (homeCore (l * 32)) l mask) :=
    (SameWork.ite _ (.refl s) (s.ask_work ..)).trans (State.homeAccess_work ..)
  unfold State.requestLines
  extract_lets cached rest homes slices lines mask mask8 away s1 s2 s3
  have h1 : SameWork s s1 := .fold (fun s l => home s l _) homes s
  have h2 : SameWork s s2 := h1.trans (.fold (fun s l => s.ask_work ..) lines s1)
  have h3 : SameWork s s3 := h2.trans (.fold (fun s t => s.ask_work ..) _ s2)
  exact .ite _ h3 (h3.onCore ..)

end Sys2Proof.Machine
end

