-- ==== Sys2Proof/Tests/Slice0.lean ====
section
/-! SUPPORT. Tests: words of the spec decoded, ill-formed terms refused, single steps on small states, and for each claim with hypotheses a
state and operands that meet them. -/


namespace Sys2Proof.Tests

-- one theorem at a time: each kernel evaluation would otherwise hold a thread of its own
set_option Elab.async false

open Sys2Proof.Machine Sys2Proof.Claims

/-! ### Small states -/

/-- A strand of job 1 on core 0, in slot 0. -/
def ctx0 : Ctx := { pc := 0x1000, cr := Sparse.set 0 crStart 0x506 0x40000, job := 1 }

/-- The same as a vector strand with VL = 4 elements of i32. -/
def vctx : Ctx := (({ ctx0 with vec := true } : Ctx).crSet 0x100 4).crSet 0x101 6

/-- The device with one context, and its job. -/
def st (c : Ctx) : State := { State.reset with ctx := [(0, some c)], cur := 0, sched := { jobs := [loadJob] } }

/-- The same, with a table that maps the first 32 GiB to themselves. -/
def mapped (c : Ctx) : State := { st c with mem := pokeBytes [] 0x40000 (leBytes 8 0xDF) }

/-- The strand with some registers set. -/
def reg (rs : List (Nat × W64)) : Ctx := rs.foldl (fun c r => c.wr r.1 r.2) ctx0

/-- The steward of core 0 as the issuing context. -/
def steward (c : Ctx) : State := { State.reset with ctx := [(4096, some c)], cur := 4096 }

theorem coreAt_of_nil {s : State} (h : s.core = []) (m : Nat) : s.coreAt m = Core.reset := by
  rw [State.coreAt, h]
  rfl

/-- A state with no core changed since reset samples nothing. -/
theorem unsampled_of_nil {s : State} (h : s.core = []) : Unsampled s := fun m => by
  rw [coreAt_of_nil h]
  decide

theorem ctxAt_st (c : Ctx) {k : Nat} (h : k ≠ 0) : (st c).ctxAt k = ctxDefault k := by
  show ((Sparse.get none [(0, some c)] k).getD (ctxDefault k)) = ctxDefault k
  rw [Sparse.get, if_neg (Ne.symm h)]
  rfl

theorem ctxDefault_vec (k : Nat) : (ctxDefault k).vec = false := by
  unfold ctxDefault
  split <;> rfl

/-- Whether an answer is no error and has a property. -/
def okWith {ε α : Type} (e : Except ε α) (p : α → Bool) : Bool := match e with | .ok a => p a | .error _ => false

theorem ok_of {ε α : Type} {e : Except ε α} {p : α → Bool} (h : okWith e p = true) : ∃ a, e = .ok a ∧ p a = true := by
  cases e with
  | ok a => exact ⟨a, rfl, h⟩
  | error c => cases h

/-- Whether an answer is an error of a cause. -/
def errorIs {α : Type} (e : Except Cause α) (c : Cause) : Bool := match e with | .ok _ => false | .error d => decide (d = c)

theorem error_of {α : Type} {e : Except Cause α} {c : Cause} (h : errorIs e c = true) : e = .error c := by
  cases e with
  | ok a => cases h
  | error d => rw [of_decide_eq_true h]


theorem test_decode_system : ∀ p ∈ ([
  (0x00000000, .ill),
  (0x00000001, .nop),
  (0x00020002, .trap 4),
  (0x00000003, .eret),
  (0x00000004, .endStrand),
  (0x00000005, .yield),
  (0x00000006, .idle),
  (0x00000007, .bkpt)] : List (Nat × Instr)), decodeTableWord 32 p.1 = some p.2 := by decide +kernel

theorem test_decode_cr : ∀ p ∈ ([
  (0x02400EBF, .crrd 4 3775),
  (0x02021EBF, .crwr 4 3775),
  (0x024FA43A, .crset 4 31 1082),
  (0x024FB43A, .crclr 4 31 1082)] : List (Nat × Instr)), decodeTableWord 32 p.1 = some p.2 := by decide +kernel

theorem test_decode_alu : ∀ p ∈ ([
  (0x044FE800, .add 4 31 26),
  (0x044FE801, .sub 4 31 26),
  (0x044FE802, .and 4 31 26),
  (0x044FE803, .or 4 31 26),
  (0x044FE804, .xor 4 31 26),
  (0x044FE805, .andn 4 31 26),
  (0x044FE806, .shl 4 31 26),
  (0x044FE807, .shr 4 31 26),
  (0x044FE808, .sra 4 31 26),
  (0x044FE809, .rol 4 31 26),
  (0x044FE80A, .slt 4 31 26),
  (0x044FE80B, .sltn 4 31 26),
  (0x044FE80C, .seq 4 31 26),
  (0x044FE80D, .min 4 31 26),
  (0x044FE80E, .max 4 31 26),
  (0x044FE80F, .minn 4 31 26),
  (0x044FE810, .maxn 4 31 26),
  (0x044F8011, .clz 4 31),
  (0x044F8012, .ctz 4 31),
  (0x044F8013, .popc 4 31),
  (0x044FE814, .sext 4 31 26),
  (0x044FE815, .zext 4 31 26)] : List (Nat × Instr)), decodeTableWord 32 p.1 = some p.2 := by decide +kernel

theorem test_decode_muldiv : ∀ p ∈ ([
  (0x064FE800, .mul 4 31 26),
  (0x064FE801, .mulh 4 31 26),
  (0x064FE802, .mulhn 4 31 26),
  (0x064FE803, .div 4 31 26),
  (0x064FE804, .divn 4 31 26),
  (0x064FE805, .rem 4 31 26),
  (0x064FE806, .remn 4 31 26)] : List (Nat × Instr)), decodeTableWord 32 p.1 = some p.2 := by decide +kernel

theorem test_decode_format_i : ∀ p ∈ ([
  (0x084FC43A, .addi 4 31 17466),
  (0x0A4FC43A, .andi 4 31 17466),
  (0x0C4FC43A, .ori 4 31 17466),
  (0x0E4FC43A, .xori 4 31 17466),
  (0x104FC43A, .slti 4 31 17466),
  (0x124FC43A, .sltni 4 31 17466),
  (0x144F803A, .shli 4 31 58),
  (0x144FA03A, .shri 4 31 58),
  (0x144FC03A, .srai 4 31 58),
  (0x144FE03A, .roli 4 31 58)] : List (Nat × Instr)), decodeTableWord 32 p.1 = some p.2 := by decide +kernel

theorem test_decode_scalar : ∀ p ∈ ([
  (0x16480EBF, .lih 4 528063),
  (0x18480EBF, .addpc 4 528063),
  (0x1A4FC43A, .beq 4 31 17466),
  (0x1C4FC43A, .bne 4 31 17466),
  (0x1E4FC43A, .blt 4 31 17466),
  (0x204FC43A, .bge 4 31 17466),
  (0x224FC43A, .bltn 4 31 17466),
  (0x244FC43A, .bgen 4 31 17466),
  (0x26480EBF, .jal 4 528063),
  (0x284FC43A, .jalr 4 31 17466),
  (0x2C4FD330, .ld 4 31 10 1 304),
  (0x2E4FD330, .ldn 4 31 10 1 304),
  (0x304FD330, .st 4 31 10 1 304),
  (0x342075F8, .fence 4 3775),
  (0xB84F801A, .vset 4 31 26)] : List (Nat × Instr)), decodeTableWord 32 p.1 = some p.2 := by decide +kernel

theorem test_decode_loop : ∀ p ∈ ([
  (0x2A080EBF, .loop 4 3775),
  (0x2A480EBF, .loopm 4 3775),
  (0x2A880EBF, .loops 4 3775),
  (0x2AC80000, .lstg 4),
  (0x2B09F000, .lstr 4 31),
  (0x2B49F000, .lmask 4 31),
  (0x2B880007, .lidx 4 7),
  (0x2BC80000, .lbrk 4)] : List (Nat × Instr)), decodeTableWord 32 p.1 = some p.2 := by decide +kernel

theorem test_decode_amo : ∀ p ∈ ([
  (0x324FE950, .amoadd 4 31 26 5 1),
  (0x324FE951, .amoand 4 31 26 5 1),
  (0x324FE952, .amoor 4 31 26 5 1),
  (0x324FE953, .amoxor 4 31 26 5 1),
  (0x324FE954, .amomin 4 31 26 5 1),
  (0x324FE955, .amomax 4 31 26 5 1),
  (0x324FE956, .amominn 4 31 26 5 1),
  (0x324FE957, .amomaxn 4 31 26 5 1),
  (0x324FE958, .amoswp 4 31 26 5 1),
  (0x324FE959, .amocas 4 31 26 5 1),
  (0x324FE95A, .arrive 4 31 26 5 1)] : List (Nat × Instr)), decodeTableWord 32 p.1 = some p.2 := by decide +kernel

theorem test_decode_wait : ∀ p ∈ ([
  (0x364FE800, .waita 4 31 26),
  (0x36400001, .cross 4),
  (0x36400002, .crossa 4),
  (0x364F8003, .crossw 4 31),
  (0x364F8004, .crossp 4 31)] : List (Nat × Instr)), decodeTableWord 32 p.1 = some p.2 := by decide +kernel

theorem test_decode_vload : ∀ p ∈ ([
  (0xBBFD0281, .vld 1 31 26 5 1),
  (0xBBFD549B, .vlds 1 31 26 21 1 11),
  (0xBBFD54AB, .vldx 1 31 26 21 1 11),
  (0xBBFD02B1, .vldff 1 31 26 5 1),
  (0xBBFD54CB, .vlseg 1 31 26 21 1 11),
  (0xBBFD54DB, .vldt 1 31 26 21 1 11),
  (0xBBFD02E1, .vldl 1 31 26 5 1)] : List (Nat × Instr)), decodeTableWord 32 p.1 = some p.2 := by decide +kernel

theorem test_decode_vstore : ∀ p ∈ ([
  (0xBDFD0281, .vst 1 31 26 5 1),
  (0xBDFD549B, .vsts 1 31 26 21 1 11),
  (0xBDFD54AB, .vstx 1 31 26 21 1 11),
  (0xBDFD54CB, .vsseg 1 31 26 21 1 11),
  (0xBDFD54DB, .vstt 1 31 26 21 1 11),
  (0xBDFD02E1, .vstl 1 31 26 5 1)] : List (Nat × Instr)), decodeTableWord 32 p.1 = some p.2 := by decide +kernel

theorem test_decode_vint : ∀ p ∈ ([
  (0xBFFD54C0, .vadd 1 31 26 21 1 1),
  (0xBFFD54C1, .vsub 1 31 26 21 1 1),
  (0xBFFD54C2, .vmul 1 31 26 21 1 1),
  (0xBFFD54C3, .vmulh 1 31 26 21 1 1),
  (0xBFFD54C4, .vmulhn 1 31 26 21 1 1),
  (0xBFFD54C5, .vmin 1 31 26 21 1 1),
  (0xBFFD54C6, .vmax 1 31 26 21 1 1),
  (0xBFFD54C7, .vminn 1 31 26 21 1 1),
  (0xBFFD54C8, .vmaxn 1 31 26 21 1 1),
  (0xBFFD54C9, .vand 1 31 26 21 1 1),
  (0xBFFD54CA, .vor 1 31 26 21 1 1),
  (0xBFFD54CB, .vxor 1 31 26 21 1 1),
  (0xBFFD54CC, .vshl 1 31 26 21 1 1),
  (0xBFFD54CD, .vshr 1 31 26 21 1 1),
  (0xBFFD54CE, .vsra 1 31 26 21 1 1),
  (0xBFFD54CF, .vsadd 1 31 26 21 1 1),
  (0xBFFD54D0, .vsaddn 1 31 26 21 1 1),
  (0xBFFD54D1, .vssub 1 31 26 21 1 1),
  (0xBFFD54D2, .vssubn 1 31 26 21 1 1),
  (0xBFFD54D3, .vwadd 1 31 26 21 1 1),
  (0xBFFD54D4, .vwmul 1 31 26 21 1 1),
  (0xBFFD54D5, .vwmac 1 31 26 21 1 1),
  (0xBFFD54D6, .vnshr 1 31 26 21 1 1),
  (0xBFFD54D7, .vdot4 1 31 26 21 1 1),
  (0xBFFD54D8, .vcmpeq 1 31 26 21 1 1),
  (0xBFFD54D9, .vcmplt 1 31 26 21 1 1),
  (0xBFFD54DA, .vcmpltn 1 31 26 21 1 1)] : List (Nat × Instr)), decodeTableWord 32 p.1 = some p.2 := by decide +kernel

theorem test_decode_vfp : ∀ p ∈ ([
  (0xC1FD54C0, .vfadd 1 31 26 21 1 1),
  (0xC1FD54C1, .vfsub 1 31 26 21 1 1),
  (0xC1FD54C2, .vfmul 1 31 26 21 1 1),
  (0xC1FD54C3, .vfma 1 31 26 21 1 1),
  (0xC1FD54C4, .vfnma 1 31 26 21 1 1),
  (0xC1FD54C5, .vfdiv 1 31 26 21 1 1),
  (0xC1FD02C6, .vfsqrt 1 31 26 5 1),
  (0xC1FD02C7, .vfrec 1 31 26 5 1),
  (0xC1FD02C8, .vfrsq 1 31 26 5 1),
  (0xC1FD54C9, .vfmin 1 31 26 21 1 1),
  (0xC1FD54CA, .vfmax 1 31 26 21 1 1),
  (0xC1FD54CB, .vfminp 1 31 26 21 1 1),
  (0xC1FD54CC, .vfmaxp 1 31 26 21 1 1),
  (0xC1FD02CD, .vfabs 1 31 26 5 1),
  (0xC1FD02CE, .vfneg 1 31 26 5 1),
  (0xC1FD54CF, .vfcmpeq 1 31 26 21 1 1),
  (0xC1FD54D0, .vfcmplt 1 31 26 21 1 1),
  (0xC1FD54D1, .vfcmple 1 31 26 21 1 1),
  (0xC1FD02D2, .vfclass 1 31 26 5 1)] : List (Nat × Instr)), decodeTableWord 32 p.1 = some p.2 := by decide +kernel

theorem test_decode_vcplx : ∀ p ∈ ([
  (0xC3FD54C0, .vcmul 1 31 26 21 1 1),
  (0xC3FD54C1, .vcmac 1 31 26 21 1 1),
  (0xC3FD54C2, .vcmacj 1 31 26 21 1 1),
  (0xC3FD02C3, .vcconj 1 31 26 5 1),
  (0xC3FD02C4, .vcabs2 1 31 26 5 1),
  (0xC3FD54C5, .vcrot 1 31 26 21 1 1),
  (0xC3FD54C6, .vcscl 1 31 26 21 1 1),
  (0xC3FD02C7, .vcinv2 1 31 26 5 1),
  (0xC3FD54C8, .vgjp 1 31 26 21 1 1)] : List (Nat × Instr)), decodeTableWord 32 p.1 = some p.2 := by decide +kernel

theorem test_decode_vdist : ∀ p ∈ ([
  (0xC5FD5480, .vperm 1 31 26 21 1),
  (0xC5FD5481, .vslup 1 31 26 21 1),
  (0xC5FD5482, .vsldn 1 31 26 21 1),
  (0xC5FD0283, .vrev 1 31 26 5),
  (0xC5FD5404, .vpack 1 31 26 21),
  (0xC5FD0285, .vzip 1 31 26 5),
  (0xC5FD0286, .vunzip 1 31 26 5)] : List (Nat × Instr)), decodeTableWord 32 p.1 = some p.2 := by decide +kernel

theorem test_decode_vx : ∀ p ∈ ([
  (0xC7FD0284, .vxch 1 31 26 5 1),
  (0xC7FD54D9, .vbfly 1 31 26 21 1 1 6),
  (0xC7FD54DA, .vibfly 1 31 26 21 1 1 6),
  (0xC7FD54DB, .vplan 1 31 26 21 1 1 6)] : List (Nat × Instr)), decodeTableWord 32 p.1 = some p.2 := by decide +kernel

theorem test_decode_vmask : ∀ p ∈ ([
  (0xC9FD5480, .vmand 1 31 26 21 1),
  (0xC9FD5481, .vmor 1 31 26 21 1),
  (0xC9FD5482, .vmxor 1 31 26 21 1),
  (0xC9FD0283, .vmnot 1 31 26 5),
  (0xC9FD0284, .vmfirst 1 31 26 5),
  (0xC9FD0285, .vmupto 1 31 26 5),
  (0xC9FD0286, .vmpop 1 31 26 5),
  (0xC9FD54C7, .vredsum 1 31 26 21 1 1),
  (0xC9FD54C8, .vredmin 1 31 26 21 1 1),
  (0xC9FD54C9, .vredmax 1 31 26 21 1 1),
  (0xC9FD54CA, .vredminn 1 31 26 21 1 1),
  (0xC9FD54CB, .vredmaxn 1 31 26 21 1 1),
  (0xC9FD54CC, .vfredsum 1 31 26 21 1 1),
  (0xC9FD54CD, .vfredmin 1 31 26 21 1 1),
  (0xC9FD54CE, .vfredmax 1 31 26 21 1 1),
  (0xC9FD54CF, .vcredsum 1 31 26 21 1 1),
  (0xC9FD02D0, .vscan 1 31 26 5 1),
  (0xC9FD5451, .vltrip 1 31 26 21 1),
  (0xC9F06852, .vlstep 1 31 26 1)] : List (Nat × Instr)), decodeTableWord 32 p.1 = some p.2 := by decide +kernel

theorem test_decode_vcvt : ∀ p ∈ ([
  (0xCBFD54C0, .vcvt 1 31 26 21 1 1),
  (0xCBFD54C1, .vcvtsat 1 31 26 21 1 1),
  (0xCBFD54C2, .vcvtz 1 31 26 21 1 1),
  (0xCBFD54C3, .vquant 1 31 26 21 1 1),
  (0xCBFD54C4, .vdeq 1 31 26 21 1 1),
  (0xCBFD02C5, .vtdec 1 31 26 5 1)] : List (Nat × Instr)), decodeTableWord 32 p.1 = some p.2 := by decide +kernel

theorem test_decode_vmov : ∀ p ∈ ([
  (0xCDFD0280, .vmv 1 31 26 5),
  (0xCDFD0281, .vmvs 1 31 26 5),
  (0xCDFD5482, .vext 1 31 26 21 1),
  (0xCDFD5483, .vins 1 31 26 21 1),
  (0xCDF00104, .vid 1 31 2),
  (0xCC0FE805, .vpush 1 31 26),
  (0xCDF06806, .vtake 1 31 26),
  (0xCDF06807, .vpoll 1 31 26)] : List (Nat × Instr)), decodeTableWord 32 p.1 = some p.2 := by decide +kernel

theorem test_decode_anvil : ∀ p ∈ ([
  (0x4E000000, .alease),
  (0x4E020000, .afree),
  (0x4E044F80, .aclaim 4 31),
  (0x4E06027C, .arels 4 31),
  (0x4E084FE8, .atile 4 31 26),
  (0x4E0A027C, .alda 4 31),
  (0x4E0C027C, .aldb 4 31),
  (0x4E0E4FE8, .amma 4 31 26),
  (0x4E104FE8, .ammz 4 31 26),
  (0x4E124FE8, .asmma 4 31 26),
  (0x4E144FE8, .astc 4 31 26),
  (0x4E164000, .azero 4),
  (0x4E180000, .await)] : List (Nat × Instr)), decodeTableWord 32 p.1 = some p.2 := by decide +kernel

theorem test_decode_haul : ∀ p ∈ ([
  (0x50004FE8, .haul 4 31 26),
  (0x50024FE8, .haulnb 4 31 26),
  (0x50044F80, .hmile 4 31),
  (0x5006027C, .hwait 4 31),
  (0x50084FE8, .tdef 4 31 26),
  (0x500A4F80, .tstat 4 31),
  (0x500C4FE8, .tset 4 31 26),
  (0x500E4F80, .tfree 4 31)] : List (Nat × Instr)), decodeTableWord 32 p.1 = some p.2 := by decide +kernel

theorem test_decode_trel : ∀ p ∈ ([
  (0x52004FE8, .tenc 4 31 26),
  (0x52020200, .twait 4)] : List (Nat × Instr)), decodeTableWord 32 p.1 = some p.2 := by decide +kernel

theorem test_decode_code : ∀ p ∈ ([
  (0x54004FE8, .csub 4 31 26),
  (0x54024000, .cmile 4),
  (0x54040200, .cwait 4)] : List (Nat × Instr)), decodeTableWord 32 p.1 = some p.2 := by decide +kernel

theorem test_decode_fh : ∀ p ∈ ([
  (0x56004FE8, .fharm 4 31 26),
  (0x56024FE8, .fhsend 4 31 26),
  (0x56044F80, .fhstat 4 31)] : List (Nat × Instr)), decodeTableWord 32 p.1 = some p.2 := by decide +kernel

theorem test_decode_way : ∀ p ∈ ([
  (0x58004FE8, .wjoin 4 31 26),
  (0x58020000, .wleave),
  (0x58044FE8, .wnear 4 31 26),
  (0x58060200, .wpub 4),
  (0x58084FE8, .wget 4 31 26),
  (0x580A4F80, .wtract 4 31)] : List (Nat × Instr)), decodeTableWord 32 p.1 = some p.2 := by decide +kernel

theorem test_decode_sched : ∀ p ∈ ([
  (0x5A004F80, .spawn 4 31),
  (0x5A024F80, .jdone 4 31),
  (0x5A044FE8, .qpush 4 31 26),
  (0x5A064FE8, .qpop 4 31 26),
  (0x5A08407C, .qlen 4 31),
  (0x5A0A4FE8, .chsend 4 31 26),
  (0x5A0C4FE8, .chrecv 4 31 26),
  (0x5A0E4000, .chrel 4),
  (0x5A104000, .time 4),
  (0x5A124F80, .slack 4 31)] : List (Nat × Instr)), decodeTableWord 32 p.1 = some p.2 := by decide +kernel

theorem test_decode_dbg : ∀ p ∈ ([
  (0x5C00027C, .trace 4 31),
  (0x5C024F80, .cntrd 4 31),
  (0x5C044FE8, .cntcfg 4 31 26)] : List (Nat × Instr)), decodeTableWord 32 p.1 = some p.2 := by decide +kernel

/-! ### Well-formedness: a term that breaks each limit is refused, and its neighbour is not -/

theorem test_wf_loop : wellFormed (.loop 1 1) = false ∧ wellFormed (.loop 1 2) = true ∧ wellFormed (.loops 1 0) = false := by decide

theorem test_wf_loopm : wellFormed (.loopm 8 2) = false ∧ wellFormed (.loopm 7 2) = true := by decide

theorem test_wf_ldn : wellFormed (.ldn 1 2 0 3 0) = false ∧ wellFormed (.ldn 1 2 0 2 0) = true := by decide

theorem test_wf_fence : wellFormed (.fence 5 1) = false ∧ wellFormed (.fence 4 0) = false ∧ wellFormed (.fence 4 1) = true := by decide

theorem test_wf_vset : wellFormed (.vset 1 2 23) = false ∧ wellFormed (.vset 1 2 22) = true := by decide

theorem test_wf_mask : wellFormed (.vadd 1 2 3 4 0 1) = false ∧ wellFormed (.vadd 1 2 3 4 1 1) = true
    ∧ wellFormed (.vcmpeq 1 2 3 4 2 1) = false ∧ wellFormed (.vcmpeq 1 2 3 4 3 1) = true := by decide

theorem test_wf_register_fields : wellFormed (.vpack 1 2 3 8) = false ∧ wellFormed (.vpack 1 2 3 7) = true
    ∧ wellFormed (.vmand 1 8 1 2 0) = false ∧ wellFormed (.vmor 1 1 8 2 0) = false ∧ wellFormed (.vmxor 1 1 2 8 0) = false
    ∧ wellFormed (.vmnot 1 8 1 0) = false ∧ wellFormed (.vmfirst 1 1 8 0) = false ∧ wellFormed (.vmupto 1 8 1 0) = false
    ∧ wellFormed (.vmpop 1 1 8 0) = false ∧ wellFormed (.vmand 1 7 7 7 0) = true := by decide

theorem test_wf_reduction : wellFormed (.vredsum 1 2 3 2 0 0) = false ∧ wellFormed (.vredsum 1 2 3 1 1 1) = false
    ∧ wellFormed (.vredsum 1 2 3 1 0 0) = true ∧ wellFormed (.vredsum 1 2 3 0 1 1) = true := by decide

theorem test_wf_trips : wellFormed (.vltrip 1 2 3 8 0) = false ∧ wellFormed (.vlstep 1 2 1 1) = false
    ∧ wellFormed (.vlstep 1 2 7 0) = true := by decide

theorem test_wf_quarters : wellFormed (.vcrot 1 2 3 4 0 0) = false ∧ wellFormed (.vcrot 1 2 3 3 0 0) = true := by decide

theorem test_wf_accumulators : wellFormed (.amma 2 1 1) = false ∧ wellFormed (.ammz 2 1 1) = false ∧ wellFormed (.asmma 2 1 1) = false
    ∧ wellFormed (.astc 2 1 1) = false ∧ wellFormed (.azero 2) = false ∧ wellFormed (.azero 1) = true := by decide

theorem test_wf_not_an_instruction : wellFormed (.notAnInstruction 1) = false ∧ wellFormed (.notAnInstruction 0xFE000000) = true := by
  decide


/-! ### Single steps -/

/-- The state after an instruction. -/
def run (i : Instr) (s : State) : State := match exec i s with | .next t => t | _ => s

/-- The value that an instruction leaves in a register of a strand with the registers given. -/
def value (i : Instr) (rs : List (Nat × W64)) (d : Nat) : W64 := (run i (st (reg rs))).me.rd d

/-- lih g4, 0x3FFFF and shli g4, g4, 17: the values of the table of 09_strand_isa (R153, R152). -/
theorem test_lih_shli : value (.lih 4 0x3FFFF) [] 4 = 0x1FFFF8000 ∧ value (.shli 4 4 17) [(4, 0x1FFFF8000)] 4 = 0x3FFFF00000000 := by
  decide +kernel

/-- The borderline divisions of R149. -/
theorem test_division : value (.div 1 2 3) [(2, 7)] 1 = 0xFFFFFFFFFFFFFFFF ∧ value (.rem 1 2 3) [(2, 7)] 1 = 7
    ∧ value (.div 1 2 3) [(2, 0x8000000000000000), (3, 0xFFFFFFFFFFFFFFFF)] 1 = 0x8000000000000000
    ∧ value (.rem 1 2 3) [(2, 0xFFFFFFFFFFFFFFF9), (3, 2)] 1 = 0xFFFFFFFFFFFFFFFF := by decide +kernel

/-- Sums wrap, an immediate is sign-extended before an unsigned compare, and a source may be the destination (R147, R151). -/
theorem test_add_wraps : value (.addi 1 2 0x7FFF) [] 1 = 0xFFFFFFFFFFFFFFFF ∧ value (.sltni 1 2 0x7FFF) [(2, 5)] 1 = 1
    ∧ value (.add 2 2 2) [(2, 0x8000000000000001)] 2 = 2 := by decide +kernel

/-- SEXT of bit 7, POPC, CLZ of 1, and an arithmetic shift by an amount of 65, which counts as 1 (R147). -/
theorem test_bits : value (.sext 1 2 3) [(2, 0x180), (3, 7)] 1 = 0xFFFFFFFFFFFFFF80 ∧ value (.popc 1 2) [(2, 0xF0F)] 1 = 8
    ∧ value (.clz 1 2) [(2, 1)] 1 = 63 ∧ value (.sra 1 2 3) [(2, 0x8000000000000000), (3, 65)] 1 = 0xC000000000000000 := by decide +kernel

/-- jalr g1, 0(g1) jumps to the old g1 (R156). -/
theorem test_jalr_reads_first : (run (.jalr 1 1 0) (st (reg [(1, 0x2000)]))).me.pc = 0x2000 ∧ value (.jalr 1 1 0) [(1, 0x2000)] 1 = 0x1004 := by
  decide +kernel

/-- The tutorial's bne goes ten words back (R155): offset 0x7FF6. -/
theorem test_bne_back : (run (.bne 8 0 0x7FF6) (st (reg [(8, 1)]))).me.pc = 0xFD8 ∧ (run (.bne 8 0 0x7FF6) (st ctx0)).me.pc = 0x1004 := by
  decide +kernel

/-- A byte of 0x80 loads as −128 by LD and 128 by LDN (R168). -/
theorem test_load_byte :
    let s := (mapped (reg [(2, 0x2001)])).perform 0x2001 [0x80]
    (run (.ld 1 2 0 0 0) s).me.rd 1 = 0xFFFFFFFFFFFFFF80 ∧ (run (.ldn 1 2 0 0 0) s).me.rd 1 = 0x80 := by decide +kernel

/-- A store of four bytes is little-endian and leaves the next byte (R5, R168). -/
theorem test_store_word :
    let t := run (.st 1 2 0 2 1) (mapped (reg [(1, 0xAABBCCDD11223344), (2, 0x2000)]))
    t.readByte 0x2004 = 0x44 ∧ t.readByte 0x2007 = 0x11 ∧ t.readByte 0x2008 = 0 := by decide +kernel

/-- AMOADD returns the old double-word and leaves the sum (R172). -/
theorem test_amoadd :
    let t := run (.amoadd 4 6 5 0 0) ((mapped (reg [(6, 0x2000), (5, 3)])).performNat 0x2000 8 9)
    t.me.rd 4 = 9 ∧ t.read64 0x2000 = 12 := by decide +kernel

/-- A misaligned load traps MISALIGN, code 5, with its address (R168, R192, R195). -/
theorem test_misaligned_load :
    let t := run (.ld 1 2 0 3 0) (mapped (reg [(2, 0x2004)]))
    (t.coreAt 0).crGet 0x802 = 5 ∧ (t.coreAt 0).crGet 0x804 = 0x2004 ∧ (t.coreAt 0).crGet 0x803 = 0x1000 ∧ t.me.hold = .trapped := by
  decide +kernel

/-- ERET from a strand traps PRIV, and the steward goes to %tvec.BASE + 64 × 2 (R189, R196). -/
theorem test_eret_from_strand :
    let t := run .eret ((st ctx0).onCore 0 fun c => c.crSet 0x800 0x5000)
    (t.coreAt 0).crGet 0x802 = 2 ∧ (t.ctxAt 4096).pc = 0x5080 ∧ (t.ctxAt 4096).hold = .ready := by decide +kernel

/-- LOOP with a trip count of 3 opens a level; with 0 it goes to its end (R137, R159). -/
theorem test_loop :
    ((run (.loop 5 3) (mapped (reg [(5, 3)]))).me.levels.map fun l => (l.n, l.start, l.stop)) = [(3, 0x1004, 0x100C)]
      ∧ (run (.loop 5 3) (mapped ctx0)).me.pc = 0x100C := by decide +kernel

/-- A pass that ends adds its stride and goes to the start (R134). -/
theorem test_pass_ends :
    let l : Level := { n := 2, start := 0x1000, stop := 0x1008, set := { binds := [(3, 8)] } }
    let c := ({ ctx0 with pc := 0x1004, levels := [l] } : Ctx).advance
    c.pc = 0x1000 ∧ c.rd 3 = 8 ∧ (c.levels.map (·.p)) = [1] := by decide +kernel

/-- CRWR of %apromo keeps an assigned value, 4, and no value 5 (R316); CRRD of %tcause from a strand traps PRIV (R53). -/
theorem test_cr :
    ((run (.crwr 1 0x204) (st (({ vctx with vec := true } : Ctx).wr 1 4))).me.crGet 0x204) = 4
      ∧ ((run (.crwr 1 0x204) (st (({ vctx with vec := true } : Ctx).wr 1 5))).me.crGet 0x204) = 2
      ∧ ((run (.crrd 1 0x802) (st ctx0)).coreAt 0).crGet 0x802 = 2 := by decide +kernel

/-- VSET of 600 elements of f32 grants 512 (R276). -/
theorem test_vset : (run (.vset 10 8 12) (st (vctx.wr 8 600))).me.rd 10 = 512 := by decide +kernel

/-- An instruction, its convoy closed, opened and drained. -/
def alone (i : Instr) (s : State) : State := run .convoyDrain (run .convoyOpen (afterIssue (run i s)))

/-- v1 = 2^31 − 1, 1, 2, 3 and v2 = 1, 1, 1, 1 of i32. -/
def vpair : Ctx := [(0, 0x7FFFFFFF), (1, 1), (2, 2), (3, 3)].foldl (fun c p => (c.vput 1 32 p.1 p.2).vput 2 32 p.1 1) (vctx.setLen 1 16 |>.setLen 2 16)

/-- VADD wraps, VSADD saturates and sets SAT, flag bit 5 (R262). -/
theorem test_vadd :
    let t := alone (.vadd 1 3 1 2 0 0) (st vpair)
    t.me.vraw 3 32 0 = 0x80000000 ∧ t.me.vraw 3 32 3 = 4 ∧ t.me.lenOf 3 = 16 ∧ t.me.flags = 0
      ∧ (alone (.vsadd 1 3 1 2 0 0) (st vpair)).me.vraw 3 32 0 = 0x7FFFFFFF
      ∧ (alone (.vsadd 1 3 1 2 0 0) (st vpair)).me.flags = 0x20 := by decide +kernel

/-- 1.0 + 2.0 = 3.0 and 1.0 / 0.0 = infinity with DZ, in f32 (R60, R61, R265). -/
theorem test_vf :
    let c : Ctx := (((vctx.crSet 0x101 12).crSet 0x100 1).vput 1 32 0 0x3F800000).vput 2 32 0 0x40000000
    (alone (.vfadd 1 3 1 2 0 0) (st c)).me.vraw 3 32 0 = 0x40400000
      ∧ (alone (.vfdiv 1 3 1 4 0 0) (st c)).me.vraw 3 32 0 = 0x7F800000 := by decide +kernel

/-- TDEF defines tile 0 of 64 bytes as READY; a second one on the same bytes is refused with INVALID (R308). -/
theorem test_tdef :
    let s := st (reg [(7, 0x3000000040000), (8, 0x8000000000000040)])
    let t := run (.tdef 6 7 8) s
    t.me.rd 6 = 0 ∧ ((Sparse.get none (t.coreAt 0).tiles 0).map fun x => (x.off, x.len, x.state)) = some (0x40000, 64, .ready)
      ∧ (run (.tdef 6 7 8) t).me.rd 6 = 0x8000000000000006 := by decide +kernel

/-- WTRACT of column boundary 3 gives 12,288 (R365, R378), and TIME device time (R241). -/
theorem test_wtract_time : value (.wtract 1 2) [(2, 0x203)] 1 = 12288
    ∧ (run (.time 6) { st ctx0 with dev := { (st ctx0).dev with time := 99 } }).me.rd 6 = 99 := by decide +kernel

/-- A stored signal stands where its packet says, and a doorbell sets RPROD (R391). -/
theorem test_doorbell :
    let s : State := { State.reset with input := { index := 2, value := 0x100000005 } }
    (run .doorbell s).dev.ringReg 2 2 = 5 := by decide +kernel

/-- A tick moves time to the next multiple of 32 ns (R216). -/
theorem test_tick : (run .schedulerTick { State.reset with dev := { State.reset.dev with time := 40 } }).dev.time = 64 := by decide +kernel

/-- SHAKE256 of no bytes begins with the bytes 46 B9 DD 2B 0B A8 8D 13 (the published test value of FIPS 202, log 11). -/
theorem test_shake256 : (shake256 []).toNat % 2 ^ 64 = 0x138DA80B2BDDB946 := by decide +kernel

/-- A host access of four bytes, or of eight at an offset that is no multiple of 8, completes as an Unsupported Request (R391). -/
theorem test_bar_sizes : ∀ p ∈ [RegPort.barRead 0 4, .barRead 4 8, .bar 0x28 1],
    (run .registerWrite { State.reset with input := { port := p } }).dev.completion = .unsupported := by decide +kernel


/-! ### Witnesses: states and operands that meet the hypotheses of each claim -/

theorem test_witness_DecodeEncode : encode (.lih 4 0x3FFFF) = some 0x1643FFFF := by decide

theorem test_witness_EncodeDecode : 0x1643FFFF < 2 ^ 32 ∧ decodeWord 0x1643FFFF = .ok (.lih 4 0x3FFFF) := by decide

/-- Majors 0x3F, 0x2F and 0x3E, and CB = 1 at the ends of each range of majors. -/
theorem test_witness_ReservedWords : (0x7E000000 : Nat) / 2 ^ 25 % 2 ^ 6 = 0x3F ∧ (0x5E000000 : Nat) / 2 ^ 25 % 2 ^ 6 = 0x2F
    ∧ (0x7C000000 : Nat) / 2 ^ 25 % 2 ^ 6 = 0x3E ∧ (0x80000000 : Nat) / 2 ^ 31 = 1 ∧ (0xB6000000 : Nat) / 2 ^ 25 % 2 ^ 6 = 0x1B
    ∧ (0xCE000000 : Nat) / 2 ^ 25 % 2 ^ 6 = 0x27 ∧ (0xDC000000 : Nat) / 2 ^ 25 % 2 ^ 6 = 0x2E := by decide

/-- lih g4, 0x3FFFF at the pc of a strand, beside a second strand of its core that is ready too; the first changed by f. -/
def lihAt (f : Ctx → Ctx) : State :=
  ((State.reset.load 0x1643FFFF).setCtx 1 { loadCtx 0x1643FFFF with here := 1 }).onMe f

/-- What every clause asks of a state, of the state in which the word is at hand, and of the word. -/
def AtHand (s x : State) (w : W32) (i : Instr) : Prop :=
  s.schedule = [] ∧ s.turn = .issue ∧ s.me.hold = .ready ∧ s.stopsHere = false ∧ s.stopsToMove = false ∧ s.me.notices = []
    ∧ s.me.unchecked = false ∧ s.me.skips = false ∧ Fetches ({ s with turn := .engines } : State) w x
    ∧ x.me.awaited x.now w = none ∧ x.me.boundAway w = false ∧ x.breaksHere = false ∧ decodeWord w.toNat = .ok i

/-- The state in which the fetched word is at hand. -/
def fetched (s : State) (w : W32) : State := ((s.fillLine s.myCore s.me.pc.toNat).onMe fun c => c.buffered w)

theorem atHand_of {s : State} {w : W32} {i : Instr}
    (h : (decide (s.schedule = [] ∧ s.turn = .issue ∧ s.me.hold = .ready ∧ s.stopsHere = false ∧ s.stopsToMove = false ∧ s.me.notices = []
        ∧ s.me.unchecked = false ∧ s.me.skips = false) &&
      okWith (({ s with turn := .engines } : State).resolve s.cur s.me.pc.toNat .fetch) (fun r =>
        let x := fetched r.2 w
        decide (({ s with turn := .engines } : State).me.replayed = none
          ∧ w = BitVec.ofNat 32 ((r.2.fillLine r.2.myCore r.2.me.pc.toNat).readNat r.1.loc 4)
          ∧ x.me.awaited x.now w = none ∧ x.me.boundAway w = false ∧ x.breaksHere = false ∧ decodeWord w.toNat = .ok i))) = true) :
    ∃ x, AtHand s x w i := by
  rw [Bool.and_eq_true] at h
  obtain ⟨⟨p, s1⟩, hr, q⟩ := ok_of h.2
  obtain ⟨a, b, c, d, e, f⟩ := of_decide_eq_true q
  obtain ⟨h1, h2, h3, h4, h5, h6, h7, h8⟩ := of_decide_eq_true h.1
  exact ⟨_, h1, h2, h3, h4, h5, h6, h7, h8, .inr ⟨p, s1, a, hr, b, rfl⟩, c, d, e, f⟩

/-- A strand that issues; one that forgoes its turn, one that has yielded, and one in whose loop buffer the word stands. -/
theorem test_witness_StepRunsDecoded :
    (∀ f, f ∈ [id, fun c => { c with forgoes := true }, fun c => { c with yielded := some [] }] →
        ∃ x, AtHand (lihAt f) x 0x1643FFFF (.lih 4 0x3FFFF))
      ∧ (let s := lihAt fun c => { c with levels := [{ n := 2, start := c.pc, stop := c.pc + 8, inner := true, words := [(0, 0x1643FFFF)] }] }
         AtHand s { s with turn := .engines } 0x1643FFFF (.lih 4 0x3FFFF)) := by
  refine ⟨fun f hf => atHand_of ?_, ?_⟩
  · revert f
    simp only [List.mem_cons, List.not_mem_nil, or_false, forall_eq_or_imp, forall_eq]
    decide +kernel
  · refine ⟨by decide +kernel, by decide +kernel, by decide +kernel, by decide +kernel, by decide +kernel, by decide +kernel, by decide +kernel,
      by decide +kernel, .inl ⟨by decide +kernel, rfl⟩, by decide +kernel⟩

/-- Each of its clauses: a word that waits already, one that its strand forgoes, one that must yield, one that issues, and one (a LOOPM behind a
member) that would be held. -/
theorem test_witness_StepRunsDecoded_clauses :
    let y (f : Ctx → Ctx) : State := (fetched ({ lihAt f with turn := .engines } : State) 0x1643FFFF).begin 0x1643FFFF
    (y fun c => { c with waited := true }).me.waited = true
      ∧ (∀ f, f ∈ [id, fun c => { c with forgoes := true }, fun c => { c with yielded := some [] }] →
          (y f).me.waited = false ∧ (run (.lih 4 0x3FFFF) (y f)).heldBack (y f).cur = false)
      ∧ (y id).me.forgoes = false ∧ (y id).mustYield (y id).cur = false
      ∧ (y fun c => { c with forgoes := true }).me.forgoes = true
      ∧ (y fun c => { c with yielded := some [] }).mustYield (y fun c => { c with yielded := some [] }).cur = true
      ∧ (run (.loopm 1 2) (y fun c => { c with vec := true, queue := [.entry {}] })).heldBack 0 = true := by
  simp only [List.mem_cons, List.not_mem_nil, or_false, forall_eq_or_imp, forall_eq]
  decide +kernel

/-! #### Arithmetic -/

theorem test_witness_AluResults : (∃ p, aluRule (.add 1 2 3) (st ctx0) = some (1, p)) ∧ (∃ p, aluRule (.xor 0 2 2) (st ctx0) = some (0, p))
    ∧ (∃ p, countRule (.clz 1 2) (st ctx0) = some (1, p)) ∧ (st ctx0).coordDest 1 = false ∧ (st ctx0).coordDest 0 = false :=
  ⟨⟨_, rfl⟩, ⟨_, rfl⟩, ⟨_, rfl⟩, by decide +kernel, by decide +kernel⟩

theorem test_witness_MulDivResults : (∃ p, mulDivRule (.div 1 2 3) (st ctx0) = some (1, p)) ∧ (st ctx0).coordDest 1 = false :=
  ⟨⟨_, rfl⟩, by decide +kernel⟩

theorem test_witness_ImmediateResults : (∃ p, immRule (.sltni 1 2 0x7FFF) (st ctx0) = some (1, p)) ∧ (st ctx0).coordDest 1 = false :=
  ⟨⟨_, rfl⟩, by decide +kernel⟩

/-- A strand in no loop, and one in a loop whose end is not the next word. -/
theorem test_witness_RegisterFrame : (∃ p, immRule (.addi 1 2 5) (st ctx0) = some (1, p)) ∧ (st ctx0).coordDest 1 = false
    ∧ staysAt (st ctx0).me ((st ctx0).me.pc + 4)
    ∧ staysAt ({ ctx0 with levels := [{ start := 0x1000, stop := 0x1010 }] } : Ctx) 0x1004 := by
  refine ⟨⟨_, rfl⟩, by decide +kernel, ?_, ?_⟩
  · intro l ls h
    cases h
  · intro l ls h
    cases h
    decide

theorem test_witness_RegisterFile : (∃ p, aluRule (.add 0 2 3) (st ctx0) = some (0, p)) ∧ (st ctx0).coordDest 0 = false ∧ (31 : Nat) ≠ 0 :=
  ⟨⟨_, rfl⟩, by decide +kernel, by decide⟩

/-! #### Control flow -/

/-- A strand inside a loop whose body is 0x1004 to 0x100C. -/
def looped : Ctx := { ctx0 with pc := 0x1004, levels := [{ n := 3, start := 0x1004, stop := 0x100C }] }

/-- A vector strand with a queued member, which gives g7 a value once it has run. -/
def waiting : Ctx := { vctx with queue := [.entry {}], syncRegs := [7] }

theorem permitted_of_nil {c : Ctx} (h : c.levels = []) (t : VA) : Permitted c t := by
  intro l ls e
  rw [h] at e
  cases e

theorem looped_forbids : ¬ Permitted (st looped).me 0x2000 := by
  intro h
  obtain ⟨⟨_, h⟩ | h, _⟩ := h _ _ rfl ⟨by decide, by decide⟩ <;> revert h <;> decide

theorem looped_permits : Permitted (st looped).me 0x100C := by
  intro l ls e _
  cases e
  exact ⟨.inr rfl, by decide⟩

/-- A branch not taken; one taken out of no loop, and to the end of its loop; one taken out of its loop; and one that waits for its operand. -/
theorem test_witness_BranchResults :
    (branchRule (.bne 0 0 2) (st ctx0) = some (0, 0, false, 2) ∧ IsTarget (st ctx0) 2 0x1008 ∧ ¬ BranchWaits (st ctx0) 0 0)
      ∧ (branchRule (.beq 0 0 2) (st ctx0) = some (0, 0, true, 2) ∧ Permitted (st ctx0).me 0x1008)
      ∧ (branchRule (.beq 0 0 2) (st looped) = some (0, 0, true, 2) ∧ IsTarget (st looped) 2 0x100C ∧ ¬ BranchWaits (st looped) 0 0
        ∧ Permitted (st looped).me 0x100C)
      ∧ (branchRule (.beq 0 0 0x3FF) (st looped) = some (0, 0, true, 0x3FF) ∧ IsTarget (st looped) 0x3FF 0x2000
        ∧ ¬ Permitted (st looped).me 0x2000)
      ∧ (branchRule (.bne 7 0 2) (st waiting) = some (7, 0, false, 2) ∧ IsTarget (st waiting) 2 0x1008 ∧ BranchWaits (st waiting) 7 0) := by
  refine ⟨⟨by decide +kernel, by unfold IsTarget; decide +kernel, ?_⟩, ⟨by decide +kernel, permitted_of_nil rfl _⟩,
    ⟨by decide +kernel, by unfold IsTarget; decide +kernel, ?_, looped_permits⟩,
    ⟨by decide +kernel, by unfold IsTarget; decide +kernel, looped_forbids⟩, by decide +kernel, by unfold IsTarget; decide +kernel, ?_⟩ <;>
    · unfold BranchWaits
      decide +kernel

theorem innermost_of_nil {c : Ctx} (h : c.levels = []) : ¬ InInnermost c := by
  rintro ⟨l, ls, e, _⟩
  rw [h] at e
  cases e

/-- Each clause: permitted and not, an innermost level, a coordinate register, and targets 0x2000 and 0x2002. -/
theorem test_witness_JumpResults :
    (IsTarget (st ctx0) 1 0x1004 ∧ Permitted (st ctx0).me 0x1004) ∧ (IsTarget (st looped) 0x3FF 0x2000 ∧ ¬ Permitted (st looped).me 0x2000)
      ∧ ((st ctx0).coordDest 1 = false ∧ ¬ InInnermost (st ctx0).me) ∧ InInnermost (st looped).me
      ∧ (st (ctx0.crSet 0x3C0 0x8000000000000022)).coordDest 1 = true
      ∧ ((0x2000 : VA).toNat = ((((st (reg [(1, 0x2000)])).rd 1).toNat + (0 : BitVec 15).toInt) % 2 ^ 50).toNat ∧ (0x2000 : VA).toNat % 4 = 0)
      ∧ ((0x2002 : VA).toNat = ((((st (reg [(1, 0x2000)])).rd 1).toNat + (2 : BitVec 15).toInt) % 2 ^ 50).toNat
        ∧ (0x2002 : VA).toNat % 4 ≠ 0) := by
  refine ⟨⟨by unfold IsTarget; decide +kernel, permitted_of_nil rfl _⟩, ⟨by unfold IsTarget; decide +kernel, looped_forbids⟩,
    ⟨by decide +kernel, innermost_of_nil rfl⟩, ⟨_, _, rfl, rfl, by unfold InBody; decide⟩, by decide +kernel⟩

/-- A memory whose words from 0x1004 on are NOPs. -/
def nops (c : Ctx) : State := (mapped c).perform 0x1000 ((List.range 24).flatMap fun _ => [1, 0, 0, 0])

theorem nop_opens_none : ¬ OpensLevel 1 := by
  rintro (⟨a, e, h⟩ | ⟨a, e, h⟩ | ⟨a, e, h⟩) <;>
    · rw [show decodeWord (1 : W32).toNat = .ok .nop by decide] at h
      cases h

/-- Every body of NOPs is an innermost one. -/
theorem nops_innermost (c : Ctx) (n : Nat) (hw : ∀ j, j < n → (nops c).peekWord (nops c).cur ((nops c).me.pc + 4 + BitVec.ofNat 50 (4 * j)) = some 1) :
    InnermostBody (nops c) n := by
  intro j hj w h
  rw [hw j hj] at h
  cases h
  exact nop_opens_none

theorem looped_not_refused : ¬ LoopRefused (nops (reg [(5, 3)])) .counted 3 0 := by
  have hi : InnermostBody (nops (reg [(5, 3)])) ((3 : BitVec 12).toNat - 1) := nops_innermost _ _ (by decide +kernel)
  rintro (h | h | h | ⟨l, ls, h, _⟩ | ⟨_, h⟩ | ⟨h, _⟩ | ⟨_, h⟩ | ⟨h, _⟩ | ⟨b, h, _⟩)
  · revert h; decide
  · revert h; decide
  · revert h; decide +kernel
  · cases h
  · revert h; decide
  · exact h hi
  · revert h; decide +kernel
  · cases h
  · cases h

/-- A loop refused for its end, its mask register and its pending tags at the edge of each range, one with passes, and one with none. -/
theorem test_witness_LoopOpens :
    (loopForm (.loop 5 1) (st ctx0) = some (.counted, 1, 0, 0) ∧ LoopRefused (st ctx0) .counted 1 0)
      ∧ (loopForm (.loopm 8 2) (st vctx) = some (.masked, 2, 0, 8) ∧ LoopRefused (st vctx) .masked 2 8)
      ∧ (loopForm (.loop 5 3) (nops (reg [(5, 3)])) = some (.counted, 3, 3, 0) ∧ ¬ LoopRefused (nops (reg [(5, 3)])) .counted 3 0
        ∧ openPasses (nops (reg [(5, 3)])) .counted 3 3 ≠ 0 ∧ (nops (reg [(5, 3)])).me.vec = false)
      ∧ openPasses (nops (reg [(5, 0)])) .counted 3 0 = 0
      ∧ StaysScalar (nops (reg [(5, 3)])) .counted 3 3 0
      ∧ (loopForm (.loopm 1 3) (nops vctx) = some (.masked, 3, 0, 1) ∧ (nops vctx).me.vec = true ∧ (nops vctx).me.drained = true
        ∧ (nops ({ vctx with mreg := Sparse.set 0 [] 1024 8 } : Ctx)).me.maskEmpty 1 = false ∧ (nops vctx).me.maskEmpty 1 = true ∧ StaysScalar (nops vctx) .masked 3 0 1) := by
  have scalar : StaysScalar (nops vctx) .masked 3 0 1 := .inr (.inr (.inl ⟨0, by decide, fun w h => by
    obtain rfl := Option.some.inj (h.symm.trans
      (show (nops vctx).peekWord (nops vctx).cur ((nops vctx).me.pc + 4 + BitVec.ofNat 50 (4 * 0)) = some 1 by decide +kernel))
    decide⟩))
  exact ⟨⟨by decide +kernel, .inl (by decide)⟩, ⟨by decide +kernel, .inr (.inl (by decide))⟩,
    ⟨by decide +kernel, looped_not_refused, by decide +kernel, by decide +kernel⟩, by decide +kernel, .inl (by decide +kernel),
    by decide +kernel, by decide +kernel, by decide +kernel, by decide +kernel, by decide +kernel, scalar⟩


/-- A vector strand before a LOOP of one word, vadd v1, v2, v3. -/
def vloop : State := (mapped (vctx.wr 5 3)).performNat 0x1004 4 0xBE110C00

theorem vloop_innermost : InnermostBody vloop 1 := by
  intro j hj w h
  obtain rfl : j = 0 := by omega
  rw [show vloop.peekWord vloop.cur (vloop.me.pc + 4 + BitVec.ofNat 50 (4 * 0)) = some 0xBE110C00 by decide +kernel] at h
  cases h
  have hd : decodeWord (0xBE110C00 : W32).toNat = .ok (.vadd 1 1 2 3 0 0) := by decide
  rintro (⟨a, e, h⟩ | ⟨a, e, h⟩ | ⟨a, e, h⟩) <;>
    · rw [hd] at h
      cases h

theorem vloop_not_refused : ¬ LoopRefused vloop .counted 2 0 := by
  rintro (h | h | h | ⟨l, ls, h, _⟩ | ⟨_, h⟩ | ⟨h, _⟩ | ⟨_, h⟩ | ⟨h, _⟩ | ⟨b, h, _⟩)
  · revert h; decide
  · revert h; decide
  · revert h; decide +kernel
  · cases h
  · revert h; decide
  · exact h vloop_innermost
  · revert h; decide +kernel
  · cases h
  · cases h

theorem test_witness_LoopHandedOver :
    ∃ vs, loopForm (.loop 5 2) vloop = some (.counted, 2, 3, 0) ∧ ¬ LoopRefused vloop .counted 2 0 ∧ openPasses vloop .counted 2 3 ≠ 0
      ∧ vloop.me.vec = true ∧ InnermostBody vloop ((2 : BitVec 12).toNat - 1)
      ∧ handedBody (vloop.bodyWords vloop.cur ((2 : BitVec 12).toNat - 1) (vloop.me.pc + 4)) = some vs
      ∧ (∀ j, j < (2 : BitVec 12).toNat - 1 → (vloop.me.pc + 4).toNat + 4 * j ∉ ((vloop.fillBody (vloop.me.pc + 4) ((2 : BitVec 12).toNat - 1)).coreAt vloop.myCore).breaks)
      ∧ (∀ l, Opens vloop .counted 2 3 0 l → (vloop.me.handed l vs).sound vloop.me.strip.2 vloop.me.strip.1 = true)
      ∧ vloop.me.occupancy + ((2 : BitVec 12).toNat - 1) ≤ 16 ∧ staysAt vloop.me 0x1008 := by
  obtain ⟨vs, h⟩ := Option.isSome_iff_exists.mp
    (show (handedBody (vloop.bodyWords vloop.cur ((2 : BitVec 12).toNat - 1) (vloop.me.pc + 4))).isSome = true by decide +kernel)
  have sound : ∀ b, (vloop.me.handed { n := 3, start := 0x1004, stop := 0x1008, inner := b } vs).sound vloop.me.strip.2 vloop.me.strip.1 = true := by
    obtain rfl := Option.some.inj (h.symm.trans
      (show handedBody (vloop.bodyWords vloop.cur ((2 : BitVec 12).toNat - 1) (vloop.me.pc + 4))
        = some [(0xBE110C00, (opOf (.vadd 1 1 2 3 0 0)).getD default)] by decide +kernel))
    decide +kernel
  refine ⟨vs, by decide +kernel, vloop_not_refused, by decide +kernel, by decide +kernel, vloop_innermost, h, fun j _ => ?_,
    ?_, by decide +kernel, ?_⟩
  · rw [show ((vloop.fillBody (vloop.me.pc + 4) ((2 : BitVec 12).toNat - 1)).coreAt vloop.myCore).breaks = [] by decide +kernel]
    exact List.not_mem_nil
  · rintro ⟨kind, n, p, start, stop, stages, mreg, set, inner, checked, words⟩ ⟨h1, h2, h3, h4, h5, h6, h7, h10, -, h8, h9⟩
    obtain rfl : kind = .counted := h1
    obtain rfl : n = 3 := h2
    obtain rfl : p = 0 := h3
    obtain rfl : start = 0x1004 := h4.trans (by decide +kernel)
    obtain rfl : stop = 0x1008 := h5.trans (by decide +kernel)
    obtain rfl : mreg = 0 := h6
    obtain rfl : set = {} := h7.trans (by decide +kernel)
    obtain rfl : checked = true := h8
    obtain rfl : stages = 1 := h9
    obtain rfl : words = [] := h10
    exact sound inner
  · intro l ls h
    cases h

/-- A level with a pass left, one without inside a level that ends elsewhere, and one without inside a level that ends with it. -/
theorem test_witness_LoopPassEnds :
    let l (n : W64) (p : W64) (stop : VA) : Level := { n := n, p := p, start := 0x1000, stop := stop }
    (l 2 0 0x1010).start ≠ (l 2 0 0x1010).stop
      ∧ (l 2 0 0x1010).p.toNat + 1 < passesOf .counted (l 2 0 0x1010).n.toNat 1
      ∧ ¬ ((l 2 1 0x1010).kind = .masked ∨ (l 2 1 0x1010).p.toNat + 1 < passesOf .counted (l 2 1 0x1010).n.toNat 1)
      ∧ (l 3 0 0x1014).stop ≠ (l 2 1 0x1010).stop
      ∧ (l 3 0 0x1010).stop = (l 2 1 0x1010).stop ∧ (l 3 0 0x1010).start ≠ (l 3 0 0x1010).stop
      ∧ (l 3 0 0x1010).p.toNat + 1 < passesOf .counted (l 3 0 0x1010).n.toNat 1 := by decide

/-- Position 0 of a loop in its second pass: with and without its bit in the first mask. -/
theorem test_witness_LoopPositions :
    let l (f : BitVec 16) : Level := { n := 3, p := 1, start := 0x1000, stop := 0x1010, set := { first := f } }
    let s (f : BitVec 16) : State := st { ctx0 with levels := [l f] }
    (InBody (l 0) (s 0).me.pc ∧ PositionIssues (l 0) 0)
      ∧ (InBody (l 1) (s 1).me.pc ∧ ¬ PositionIssues (l 1) 0 ∧ (s 1).schedule = [] ∧ (s 1).turn = .issue ∧ (s 1).me.hold = .ready
        ∧ (s 1).stopsHere = false ∧ (s 1).stopsToMove = false ∧ (s 1).me.notices = [] ∧ (s 1).me.unchecked = false
        ∧ (s 1).me.pc.toNat + 4 < 2 ^ 50)
      ∧ staysAt (s 1).me ((s 1).me.pc + 4) := by
  refine ⟨⟨by unfold InBody; decide, .inl rfl, .inl rfl, nofun⟩, ⟨by unfold InBody; decide, ?_, by decide +kernel⟩, ?_⟩
  · rintro ⟨h | h, _⟩ <;> revert h <;> decide
  · intro l ls h
    cases h
    decide

/-- Two bindings, g0, a register bound already, and a free one; a level of each depth asked for; a strand in no loop and in one. -/
theorem test_witness_LoopSettingsForms :
    let s (bs : List (BitVec 5 × W64)) : State := st { ctx0 with pending := { binds := bs } }
    (s []).coordDest 3 = false ∧ 2 ≤ (s [(3, 1), (4, 1)]).me.pending.binds.length
      ∧ (3 : BitVec 5) ∈ (s [(3, 1)]).me.pending.binds.map (·.1)
      ∧ ((s [(3, 1)]).me.pending.binds.length < 2 ∧ (4 : BitVec 5) ≠ 0 ∧ (4 : BitVec 5) ∉ (s [(3, 1)]).me.pending.binds.map (·.1))
      ∧ (st looped).me.levels[0]? = some { n := 3, start := 0x1004, stop := 0x100C } ∧ (st looped).me.levels.length ≤ 1
      ∧ (st ctx0).me.levels = [] ∧ (st (looped.wr 2 1)).rd 2 ≠ 0 ∧ (st looped).rd 2 = 0 := by decide +kernel

/-! #### Control registers and memory -/

theorem test_witness_CrForms : (st ctx0).coordDest 1 = false ∧ (st ctx0).me.drained = true
    ∧ crTrap (isSteward (st ctx0).cur) (st ctx0).me.vec 0x405 false = none ∧ crTrap (isSteward (st vctx).cur) (st vctx).me.vec 0x204 true = none
    ∧ isSteward (steward { here := 0 }).cur = true
    ∧ ∀ k, ((steward { here := 0 }).crStrand (steward { here := 0 }).cur = some k
        ∨ (steward { here := 0 }).vectorStrand (steward { here := 0 }).myCore = some k) → ((steward { here := 0 }).ctxAt k).running = none := by
  refine ⟨by decide +kernel, by decide +kernel, by decide +kernel, by decide +kernel, by decide +kernel, ?_⟩
  rintro k (h | h)
  · rw [show (steward { here := 0 }).crStrand (steward { here := 0 }).cur = none by decide +kernel] at h
    cases h
  · rw [show (steward { here := 0 }).vectorStrand (steward { here := 0 }).myCore = none by decide +kernel] at h
    cases h

/-- The ends of each range: 0x800, assigned, and 0x900, not; 0x600, an unassigned number, the vector range from a scalar strand, read-only numbers, and a steward. -/
theorem test_witness_CrTraps : (st ctx0).coordDest 1 = false ∧ isSteward (st ctx0).cur = false
    ∧ (0x800 ≤ (0x800 : BitVec 12).toNat ∧ crAssigned 0x800 = true) ∧ crAssigned 0x900 = false ∧ ((0x7FF : BitVec 12).toNat < 0x800 ∧ 0x600 ≤ (0x600 : BitVec 12).toNat)
    ∧ crAssigned 0x5FF = false ∧ (0x100 ≤ (0x100 : BitVec 12).toNat ∧ (0x27F : BitVec 12).toNat ≤ 0x27F ∧ (st ctx0).me.vec = false)
    ∧ (isSteward (steward {}).cur = true ∧ crAssigned 0x802 = true) := by decide +kernel

theorem test_witness_CrTraps_readOnly : readOnlyToStrands 0x000 ∧ readOnlyToStrands 0x007 ∧ readOnlyToStrands 0x505
    ∧ (Instr.crwr 1 7) ≠ .crrd 1 7 := by unfold readOnlyToStrands; decide

/-- %apromo: 4 is assigned, 5 is not, and bit 3 is reserved. -/
theorem test_witness_CrKeeps : isSteward 0 = false
    ∧ (∃ f : Nat × Nat × (Nat → Prop), (0x204, [f]) ∈ strandRegisters ∧ f.1 = 0 ∧ f.2.1 = 3 ∧ f.2.2 4 ∧ ¬ f.2.2 5)
    ∧ (0 : Nat) + 3 ≤ 3 ∧ (0x205 : Nat) ≠ 0x204 ∧ (0x7FF : Nat) < 0x800 := by
  refine ⟨rfl, ⟨(0, 3, fun f => f ≤ 4), ?_, rfl, rfl, by decide, by decide⟩, by decide⟩
  unfold strandRegisters
  repeat (first | exact List.mem_cons_self | apply List.mem_cons_of_mem)

theorem goes_of {s : State} {va n cls : Nat} {acc : Acc}
    (h : okWith (s.access va n n acc) (fun r => decide (r.2.orderedAfter cls r.1.loc n = none ∧ (r.2.predict r.1).2 = none)) = true) : ∃ p s2, Goes s va n cls acc p s2 := by
  obtain ⟨r, hr, q⟩ := ok_of h
  exact ⟨r.1, _, r.2, hr, (of_decide_eq_true q).1, (of_decide_eq_true q).2, rfl⟩

/-- LDN of 8 bytes; a byte at the most negative offset; a double-word, which LD reads. -/
theorem test_witness_Loads :
    (IsMemAddress (mapped (reg [(2, 0x2100)])) 2 0x100 1 0x2000 ∧ (mapped (reg [(2, 0x2100)])).coordDest 1 = false
        ∧ ∃ p s2, Goes (mapped (reg [(2, 0x2100)])) 0x2000 1 0 .read p s2)
      ∧ (IsMemAddress (mapped (reg [(2, 0x2000)])) 2 1 8 0x2008 ∧ ∃ p s2, Goes (mapped (reg [(2, 0x2000)])) 0x2008 8 15 .read p s2) :=
  ⟨⟨by unfold IsMemAddress; decide +kernel, by decide +kernel, goes_of (by decide +kernel)⟩,
    by unfold IsMemAddress; decide +kernel, goes_of (by decide +kernel)⟩

theorem test_witness_Stores :
    (IsMemAddress (mapped (reg [(2, 0x2000)])) 2 0xFF 8 0x27F8 ∧ ∃ p s2, Goes (mapped (reg [(2, 0x2000)])) 0x27F8 8 0 .write p s2)
      ∧ Unsampled (mapped (reg [(2, 0x2000)])) :=
  ⟨⟨by unfold IsMemAddress; decide +kernel, goes_of (by decide +kernel)⟩, unsampled_of_nil rfl⟩

/-- A strand with the address of a mapped double-word. -/
def cell : State := mapped (reg [(2, 0x2000)])

theorem amoGoes_of {s : State} {va cls : Nat} {o : BitVec 2} {x : Bool}
    (h : okWith (s.amoPlace va x) (fun r => decide (r.2.anyVectorMemory = none ∧ r.2.orderedAfter cls r.1.loc 8 = none)) = true) : ∃ p s2, AmoGoes s va cls o x p s2 := by
  obtain ⟨r, hr, q⟩ := ok_of h
  refine ⟨r.1, _, r.2, hr, ?_, rfl⟩
  split
  · exact (of_decide_eq_true q).1
  · exact (of_decide_eq_true q).2

/-- An AMOADD, a releasing ARRIVE, and an AMOCAS whose comparison holds (g4 and memory 0). -/
theorem test_witness_Atomics :
    amoForm (.amoadd 4 2 3 0 0) = some (4, 2, 3, 0, 0, true) ∧ amoForm (.arrive 4 2 3 0 3) = some (4, 2, 3, 0, 3, false)
      ∧ amoForm (.amocas 4 2 3 0 0) = some (4, 2, 3, 0, 0, true) ∧ cell.coordDest 4 = false ∧ (cell.rd 2).toNat % 2 ^ 50 = 0x2000
      ∧ (∃ p s2, AmoGoes cell 0x2000 0 0 true p s2) ∧ (∃ p s2, AmoGoes cell 0x2000 0 3 false p s2) := by
  exact ⟨by decide, by decide, by decide, by decide +kernel, by decide +kernel, amoGoes_of (by decide +kernel), amoGoes_of (by decide +kernel)⟩

/-- Addresses that are misaligned by one, unmapped (no translation root), and watched. -/
theorem test_witness_MemoryTraps :
    (alignForm (.ld 1 2 0 3 0) (mapped (reg [(2, 0x2007)])) = some (0x2007, 8) ∧ 0x2007 % 8 ≠ 0)
      ∧ (alignForm (.st 1 2 0 3 0) (st ((reg [(2, 0x2000)]).crSet 0x506 0)) = some (0x2000, 8)
        ∧ (st ((reg [(2, 0x2000)]).crSet 0x506 0)).resolve 0 0x2000 .write = .error .page)
      ∧ (let s := (mapped (reg [(2, 0x2000)])).onCore 0 fun c => { c with watch := [{ lo := 0x2007, hi := 0x2007 }] }
         alignForm (.ld 1 2 0 3 0) s = some (0x2000, 8) ∧ s.watched s.cur 0x2000 8 .read = true ∧ ∃ r, s.resolve s.cur 0x2000 .read = .ok r) := by
  refine ⟨by decide +kernel, ⟨by decide +kernel, error_of (by decide +kernel)⟩, by decide +kernel, by decide +kernel, ?_⟩
  obtain ⟨r, h, _⟩ := ok_of (e := (State.onCore (mapped (reg [(2, 0x2000)])) 0 fun c => { c with watch := [{ lo := 0x2007, hi := 0x2007 }] }).resolve
    0 0x2000 .read) (p := fun _ => true) (by decide +kernel)
  exact ⟨r, h⟩

/-- The leaf of `mapped`, at 0x40000: a page of level 3 at 0, with U, W and X, without A and D. -/
theorem mapped_walks : WalksTo (mapped ctx0) 0x2000 3 0x40000 (3, 0x40000, 0xDF) := by
  unfold WalksTo
  dsimp only
  rw [show bytesAt (mapped ctx0) (0x40000 + 0x2000 / 2 ^ pageBits 3 % tableSize 3 * 8) 8 = 0xDF by decide +kernel]
  exact ⟨by decide, by decide, by decide, (if_pos (by decide)).mpr (by decide)⟩

/-- A base, and none; a leaf that is walked to, one that is cached, and tables without one; an access that its leaf allows, and one of a strand to
the carve-out, of a write and of a fetch that it refuses, and to a hole. -/
theorem test_witness_Translation :
    fieldOf (0x40000 : W64) 18 30 * 2 ^ 18 = 0x40000 ∧ fieldOf (0x3FFFF : W64) 18 30 * 2 ^ 18 = 0
      ∧ LeafOf (mapped ctx0) 0 0x40000 0x2000 3 0x40000 0xDF
      ∧ (∃ l a e, LeafOf ((mapped ctx0).onCore 0 fun c => { c with tlb := [{ root := 0x40000, level := 3, tag := 0, pte := 0x5F, at_ := 0x40000 }] })
          0 0x40000 0x2000 l a e)
      ∧ ((st ctx0).cached 0 0x40000 0x2000 = none ∧ ¬ ∃ r, WalksTo (st ctx0) 0x2000 3 0x40000 r)
      ∧ (∀ c, ¬ LeafRefuses (mapped ctx0) false .write 0xDF 0x2000 c)
      ∧ LeafRefuses (mapped ctx0) false .read 0xCF 0x2000 .prot ∧ LeafRefuses (mapped ctx0) true .write 0xDB 0x2000 .prot
      ∧ LeafRefuses (mapped ctx0) true .fetch 0xD7 0x2000 .prot ∧ LeafRefuses (mapped ctx0) true .read 0xDF 0x6000000000 .page
      ∧ (let s := { mapped ctx0 with dev := { (mapped ctx0).dev with locked := true, cbase := 0x200000, csize := 1 } }
         LeafRefuses s false .read 0xDF 0x3FFFFF .prot ∧ ∀ c, ¬ LeafRefuses s true .read 0xDF 0x3FFFFF c) := by
  refine ⟨by decide, by decide, .inr ⟨by decide +kernel, mapped_walks⟩,
    ⟨_, _, _, .inl ⟨{ root := 0x40000, level := 3, tag := 0, pte := 0x5F, at_ := 0x40000 }, by decide +kernel, rfl, rfl, rfl⟩⟩,
    ⟨by decide +kernel, ?_⟩, ?_, ?_, ?_, ?_, ?_, ?_, ?_⟩
  · rintro ⟨r, h⟩
    unfold WalksTo at h
    dsimp only at h
    rw [show bytesAt (st ctx0) (0x40000 + 0x2000 / 2 ^ pageBits 3 % tableSize 3 * 8) 8 = 0 by decide +kernel] at h
    exact absurd h.1 (by decide)
  · intro c
    unfold LeafRefuses
    rw [show (mapped ctx0).dev.locked = false by decide +kernel]
    cases c <;> decide
  · unfold LeafRefuses
    rw [show (mapped ctx0).dev.locked = false by decide +kernel]
    decide
  · unfold LeafRefuses
    decide
  · unfold LeafRefuses
    decide
  · unfold LeafRefuses
    decide
  · unfold LeafRefuses
    decide
  · intro c
    unfold LeafRefuses
    cases c <;> decide


/-! #### Waiting, exceptions and the system instructions -/

/-- The device with one context and its job as given. -/
def stj (c : Ctx) (j : Job) : State := { State.reset with ctx := [(0, some c)], cur := 0, sched := { jobs := [j] } }

/-- A queued store of class 3, and a queued push. -/
def queuedStore : Entry := { m := { op := .store .unit, cls := 3 } }
def queuedPush : Entry := { m := { op := .mov .push } }

/-- A level in the sequencer whose body is that store, in the last of three passes. -/
def storeLoop : SeqLevel := { lvl := { n := 3, p := 2 }, passes := 3, body := [(queuedStore, (32, 32))] }

/-- Scopes 5 and 4, an empty mask, an empty queue, a store of the class fenced and of another, and a push. -/
theorem test_witness_FenceAndWaita_fence :
    5 ≤ (5 : BitVec 3).toNat ∧ (4 : BitVec 3).toNat < 5 ∧ (8 : BitVec 16) ≠ 0
      ∧ (∀ e ∈ (st ctx0).me.entries, ¬ FencedBy 8 e)
      ∧ (∃ e, StillRuns { vctx with queue := [.entry queuedStore] } e ∧ FencedBy 8 e)
      ∧ (∃ e, StillRuns { vctx with queue := [.level storeLoop] } e ∧ FencedBy 8 e)
      ∧ (∀ e ∈ (st { vctx with queue := [.entry queuedStore] }).me.entries, ¬ FencedBy 4 e)
      ∧ ∃ e, StillRuns { vctx with queue := [.entry queuedPush] } e ∧ FencedBy 4 e := by
  have store : FencedBy 8 queuedStore := .inr (.inr (.inr ⟨⟨.unit, .inr rfl⟩, by decide⟩))
  refine ⟨by decide, by decide, by decide, fun e h => ?_, ⟨queuedStore, .inl ?_, store⟩,
    ⟨queuedStore, .inr ⟨storeLoop, 0, (32, 32), List.mem_cons_self, rfl, 2, by decide⟩, store⟩, fun e h => ?_,
    ⟨queuedPush, .inl List.mem_cons_self, .inl rfl⟩⟩
  · rw [show (st ctx0).me.entries = [] by decide +kernel] at h
    cases h
  · exact List.mem_cons_self
  · rw [show (st { vctx with queue := [.entry queuedStore] }).me.entries = [queuedStore] by decide +kernel, List.mem_singleton] at h
    subst h
    rintro (h | h | h | ⟨_, h⟩)
    · cases h
    · cases h
    · cases h
    · revert h
      decide

theorem test_witness_FenceAndWaita_waita :
    ∃ p s1, cell.coordDest 1 = false ∧ cell.waitPlace ((cell.rd 2).toNat % 2 ^ 50) = .ok (p, s1)
      ∧ s1.orderedAfter 16 p.loc 8 = none := by
  obtain ⟨⟨p, s1⟩, h, q⟩ := ok_of (e := cell.waitPlace ((cell.rd 2).toNat % 2 ^ 50))
    (p := fun r => decide (r.2.orderedAfter 16 r.1.loc 8 = none)) (by decide +kernel)
  exact ⟨p, s1, by decide +kernel, h, of_decide_eq_true q⟩

/-- The job with a crossing in phase ph whose strand 0 has arrived, or not. -/
def crew (ph : BitVec 32) (arrived : List Nat) : Job := { loadJob with channel := some 0, phase := ph, arrived := arrived }

theorem crew_holds (c : Ctx) (ph : BitVec 32) (l : List Nat) (h : c.job = 1) : HoldsCrossing (stj c (crew ph l)) (crew ph l) := by
  refine ⟨rfl, ?_, nofun⟩
  show State.job? _ c.job = _
  rw [h]
  rfl

/-- No crossing; a phase released by one and by 2^31, and not by 0 or by one more; a wait that stands or has timed out; and arrivals. -/
theorem test_witness_Crossings :
    (st ctx0).coordDest 1 = false ∧ (∀ j, ¬ HoldsCrossing (st ctx0) j)
      ∧ (HoldsCrossing (stj ctx0 (crew 1 [])) (crew 1 []) ∧ 0 ∉ (crew 1 []).arrived ∧ (stj ctx0 (crew 1 [])).anyVectorMemory = none
        ∧ (∀ ph, (stj ctx0 (crew 1 [])).me.crossPhase ≠ some (ph, (stj ctx0 (crew 1 [])).me.pc)))
      ∧ (HoldsCrossing (stj ctx0 (crew 1 [0])) (crew 1 [0]) ∧ 0 ∈ (crew 1 [0]).arrived)
      ∧ (stj { ctx0 with crossPhase := some (0, 0x1000) } (crew 1 [])).me.crossPhase
          = some (0, (stj { ctx0 with crossPhase := some (0, 0x1000) } (crew 1 [])).me.pc)
      ∧ PhaseReleased 1 0 ∧ PhaseReleased 0x80000000 0 ∧ ¬ PhaseReleased 0 0 ∧ ¬ PhaseReleased 0x80000001 0
      ∧ (stj { ctx0 with expired := true } (crew 1 [])).me.expired = true := by
  refine ⟨by decide +kernel, ?_, ⟨crew_holds _ _ _ rfl, by decide, by decide +kernel, nofun⟩, ⟨crew_holds _ _ _ rfl, by decide⟩, by decide +kernel,
    by unfold PhaseReleased; decide, by unfold PhaseReleased; decide, by unfold PhaseReleased; decide, by unfold PhaseReleased; decide,
    by decide +kernel⟩
  rintro j ⟨_, h, hc⟩
  rw [show (st ctx0).job? (st ctx0).me.job = some loadJob from rfl] at h
  cases h
  exact hc rfl

/-- A strand's trap with its steward free, one with it busy, a vector trap of 1 and of 16 entries, and a steward's trap. -/
theorem test_witness_TrapEntry :
    let t : PendingTrap := { key := 0, vec := true, queue := [.entry {}] }
    isSteward t.key = false ∧ ((st ctx0).coreAt ((st ctx0).coreOf 0)).servicing = false ∧ ((st ctx0).coreAt 0).traps = []
      ∧ (((st ctx0).onCore 0 fun c => { c with servicing := true }).coreAt 0).servicing = true
      ∧ t.entries ≠ [] ∧ ({ t with queue := List.replicate 16 (.entry {}) } : PendingTrap).entries.length ≤ 16 ∧ ({ key := 4096 + 5 } : PendingTrap).key = 4096 + 5
      ∧ Unsampled (st ctx0) := by
  refine ⟨by decide, by decide +kernel, by decide +kernel, by decide +kernel, by decide, by decide, rfl, unsampled_of_nil rfl⟩

/-- A word that is none, in each of its clauses; a fetch that fails; a strand that may end; and a steward. -/
theorem test_witness_SystemForms :
    refusesConvoy (0xFE000000 : W32).toNat = false ∧ (st ctx0).me.vec = false ∧ isSteward (steward {}).cur = true
      ∧ (st { ctx0 with cr := [] }).resolve (st ctx0).cur 0x1000 .fetch = .error .page
      ∧ isSteward (st ctx0).cur = false ∧ (((st ctx0).coreAt (st ctx0).myCore).crGet 0x482).getLsbD ((st ctx0).me.here % 16) = false
      ∧ (st ctx0).me.drained = true ∧ (∀ c ∈ ((st ctx0).coreAt (st ctx0).myCore).anvil, c.key ≠ (st ctx0).cur)
      ∧ (st ctx0).job? (st ctx0).me.job = some loadJob ∧ loadJob.live.filter (· != 0) = [] :=
  ⟨by decide, by decide +kernel, by decide, error_of (by decide +kernel), by decide +kernel⟩

/-- The steward of core 0 with a strand in slot 0 whose trap it serves; the trap a vector one or not, another waiting or not. -/
def serving (cause : W64) (ts : List PendingTrap) : State :=
  let s : State := { State.reset with ctx := [(0, some { ctx0 with hold := .trapped }), (4096, some { hold := .ready })], cur := 4096 }
  s.onCore 0 fun c => { (c.crSet 0x802 cause).crSet 0x803 0x1000 with servicing := true, traps := ts }

theorem test_witness_EretReturns :
    (let s := serving 0x2000000000000009 []
      let c : Ctx := { ctx0 with captured := [.level storeLoop] }
      (∀ l, .level l ∉ (s.ctxAt 0).captured) ∧ c.captured = ([] : List Entry).map .entry ++ [.level storeLoop]
        ∧ ([] : List Entry).length + storeLoop.body.length = fieldOf ((s.coreAt 0).crGet 0x802) 8 4 + 1)
      ∧ (serving 1 []).cur = 4096 + 0 ∧ (serving 1 []).strandAt (0 * 16 + (((serving 1 []).coreAt 0).crGet 0x805).toNat % 16) = some 0
      ∧ ((serving 1 []).ctxAt 0).awaitsSync = false ∧ staysAt ((serving 1 []).ctxAt 0) ((((serving 1 []).coreAt 0).crGet 0x803).setWidth 50)
      ∧ (((serving 1 []).coreAt 0).crGet 0x802).getLsbD 61 = false
      ∧ (((serving 0x2000000000000009 []).coreAt 0).crGet 0x802).getLsbD 61 = true ∧ ((serving 1 []).coreAt 0).traps = []
      ∧ staysAt (serving 1 []).me ((((serving 1 []).coreAt 0).crGet 0x809).setWidth 50)
      ∧ ((serving 1 [{}]).coreAt 0).traps = [{}] := by
  refine ⟨⟨fun l h => ?_, rfl, by decide +kernel⟩, rfl, by decide +kernel, by decide +kernel, ?_, by decide +kernel, by decide +kernel,
    by decide +kernel, ?_, by decide +kernel⟩
  · rw [show ((serving 0x2000000000000009 []).ctxAt 0).captured = [] by decide +kernel] at h
    cases h
  all_goals
    intro l ls h
    cases h

/-- Whether a step answers a next state. -/
def isNext (r : Host.Outcome State Fault Refusal) : Bool := match r with | .next _ => true | _ => false

theorem next_of {r : Host.Outcome State Fault Refusal} (h : isNext r = true) : ∃ t, r = .next t := by
  cases r with
  | next t => exact ⟨t, rfl⟩
  | fault e => cases h
  | refused e => cases h

theorem test_witness_MemoryStaysCanonical :
    Memory.wf (State.reset.load 0x30411E01).mem = true ∧ ∃ t, step (State.reset.load 0x30411E01) = .next t :=
  ⟨by decide +kernel, next_of (by decide +kernel)⟩

theorem vlOf_of_nil {c : Ctx} (h : c.cr = []) : vlOf c = 0 := by
  rw [vlOf, Ctx.crGet, h]
  rfl

/-- Reset bounds every VL, and so does a vector strand with VL = VLMAX of i32. -/
theorem test_witness_VlStaysBounded :
    (∀ k, vlOf ((st (vctx.crSet 0x100 512)).ctxAt k) ≤ vlMax (tyOf ((st (vctx.crSet 0x100 512)).ctxAt k))
        ∧ ((st (vctx.crSet 0x100 512)).ctxAt k).running = none)
      ∧ (∀ j ∈ (st (vctx.crSet 0x100 512)).sched.jobs, j.saved = []) ∧ ∃ t, step (st (vctx.crSet 0x100 512)) = .next t := by
  refine ⟨fun k => ?_, by decide +kernel, next_of (by decide +kernel)⟩
  by_cases h : k = 0
  · subst h
    decide +kernel
  · rw [ctxAt_st _ h, ctxDefault]
    split
    · exact ⟨(vlOf_of_nil (c := Ctx.steward (k - 4096)) rfl).symm ▸ Nat.zero_le _, rfl⟩
    · exact ⟨(vlOf_of_nil (c := { here := k, hold := .asleep }) rfl).symm ▸ Nat.zero_le _, rfl⟩


/-! #### Vector instructions -/

/-- What VReady asks of one vector strand on core 0, but for what it asks of every context. -/
def readyHere (c : Ctx) (v : VInstr) : Bool :=
  let s := st c
  decide (isSteward s.cur = false ∧ s.me.vec = true ∧ s.me.hold ≠ .trapped ∧ s.me.queue = [] ∧ s.me.running = none ∧ s.myCore < 256
    ∧ v.m.cb = true ∧ v.m.malformed = false ∧ vlOf s.me ≤ vlMax (tyOf s.me)
    ∧ (memberOf s.me v).legal (tyOf s.me) (vlOf s.me) s.me.settings = true)

theorem ready_of {c : Ctx} {v : VInstr} (h : readyHere c v = true) : VReady (st c) v := by
  obtain ⟨h1, h2, h3, h4, h5, h6, h7⟩ := of_decide_eq_true h
  refine ⟨h1, h2, h3, h4, h5, fun k hk _ => ?_, h6, h7⟩
  refine Classical.byContradiction fun hn => ?_
  rw [ctxAt_st c hn, ctxDefault_vec] at hk
  cases hk

/-- An instruction with its member, ready on a strand. -/
def Ready (i : Instr) (c : Ctx) : Prop := ∃ v, opOf i = some v ∧ VReady (st c) v

def readyBool (i : Instr) (c : Ctx) : Bool := match opOf i with | some v => readyHere c v | none => false

theorem ready_bool {i : Instr} {c : Ctx} (h : readyBool i c = true) : Ready i c := by
  unfold readyBool at h
  split at h
  · rename_i v hv
    exact ⟨v, hv, ready_of h⟩
  · cases h

theorem ready_all {l : List (Instr × Ctx)} (h : (l.all fun p => readyBool p.1 p.2) = true) : ∀ p, p ∈ l → Ready p.1 p.2 :=
  fun p hp => ready_bool (List.all_eq_true.mp h p hp)

/-- The vector strand with another VL and type. -/
def typed (vl ty : Nat) : Ctx := (vctx.crSet 0x100 (BitVec.ofNat 64 vl)).crSet 0x101 (BitVec.ofNat 64 ty)

/-- Element 0, the last one, a bit of a mask, and LEN at its largest. -/
theorem test_witness_ElementStorage : 32 ∈ [2, 4, 8, 16, 32, 64] ∧ 511 * 32 + 32 ≤ 16384 ∧ 8191 < 8192 ∧ 2048 ≤ 2048 := by decide

/-- A wrap, a widening form, a compare into m2 and one with an exception mask, at VL = 4, 0 and VLMAX. -/
theorem test_witness_VintResults :
    (∀ p, p ∈ [(.vadd 1 3 1 2 0 0, vctx), (.vwadd 1 3 1 2 1 0, typed 256 6), (.vcmplt 1 2 4 5 1 0, typed 0 6), (.vsadd 1 3 1 2 1 1, typed 512 6)] →
        Ready p.1 p.2) ∧ (st vctx).me.settings.fen = 0 ∧ (intWant (.vadd 1 3 1 2 0 0)).isSome :=
  ⟨ready_all (by decide +kernel), by decide +kernel, by decide⟩

/-- A float add, a compare, a complex product, a 2 × 2 inverse and a pivot step. -/
theorem test_witness_VfpVcplxResults :
    (∀ p, p ∈ [(.vfadd 1 3 1 2 0 0, typed 4 12), (.vfcmplt 1 1 1 2 0 0, typed 4 12), (.vcmul 1 3 1 2 0 0, typed 4 22),
          (.vcinv2 1 3 1 0 0, typed 4 22), (.vgjp 1 3 1 2 0 0, typed 4 22)] → Ready p.1 p.2)
      ∧ notFinite (fmtF32.decode (fieldOf ((st (typed 4 22)).me.crGet 0x108) 0 32)) = false
      ∧ fpWant (.vfadd 1 3 1 2 0 0) = some .add ∧ cxWant (.vcmul 1 3 1 2 0 0) = some .mul :=
  ⟨ready_all (by decide +kernel), by decide +kernel, by decide⟩

/-- 1.0 of f32 is a number that is no larger than the largest one. -/
theorem real_one : realOf fmtF32 0x3F800000 = some 1 := by
  rw [realOf, show fmtF32.decode 0x3F800000 = .fin false 0x800000 (-23) by decide +kernel]
  norm_num

/-- The largest f32 and the number 1. -/
theorem test_witness_RoundingIsCorrect : fmtF32 ∈ [fmtF16, fmtBf16, fmtF32, fmtE4m3, fmtE5m2, fmtE3m2, fmtE2m3, fmtE2m1, fmtF40]
    ∧ (∃ top, realOf fmtF32 (fmtF32.largest false) = some top ∧ |(1 : ℝ)| ≤ top)
    ∧ 0x3F800000 < 2 ^ fmtF32.width ∧ realOf fmtF32 0x3F800000 = some 1 := by
  refine ⟨by simp, ⟨_, by rw [realOf, show fmtF32.decode (fmtF32.largest false) = .fin false 0xFFFFFF 104 by decide +kernel], ?_⟩,
    by decide, real_one⟩
  norm_num

/-- 1.0 as every operand, and a NaN. -/
theorem test_witness_FloatValues : fmtF32 ∈ [fmtF16, fmtBf16, fmtF32] ∧ 0x3F800000 < 2 ^ fmtF32.width
    ∧ realOf fmtF32 0x3F800000 = some 1 ∧ (1 : ℝ) ≠ 0 ∧ (0 : ℝ) ≤ 1 ∧ (fmtF32.decode 0x7FC00000).isNan = true :=
  ⟨by simp, by decide, real_one, one_ne_zero, zero_le_one, by decide +kernel⟩

/-- 1 − 2j, whose square lies below an infinite threshold and not below its own, or a NaN; a part that is no number; and each kind of pivot. -/
theorem test_witness_FloatValues_complex :
    let one : FV := .fin false 1 0
    let x : Cx := ⟨one, .fin true 1 1⟩
    (∃ z, complexOf x = some z ∧ (∃ t, cxValue .mul 0 z z z = some t) ∧ ∃ t, cxValue .rot 3 z z z = some t)
      ∧ (∃ z, complexOf ⟨fmtF32.decode 0, fmtF32.decode 0⟩ = some z) ∧ (∃ r, numberOf one = some r)
      ∧ Below (.inf false) 5 ∧ ¬ Below (.nan false) 5 ∧ ¬ Below one 1 ∧ Below one (1 / 2)
      ∧ complexOf ⟨.nan true, one⟩ = none ∧ (FV.inf true).isInf = true ∧ (FV.nan true).isSnan = true ∧ (FV.nan true).isNan = true := by
  refine ⟨⟨_, rfl, ⟨_, rfl⟩, ⟨_, rfl⟩⟩, ⟨_, by rw [show fmtF32.decode 0 = .fin false 0 (-149) by decide +kernel]; rfl⟩, ⟨_, rfl⟩, rfl, id,
    ?_, ?_, rfl, rfl, rfl, rfl⟩ <;>
    · simp only [Below]
      norm_num

/-- A conversion, a dequantisation, a tract of weights and a quantisation. -/
theorem test_witness_VcvtResults :
    (∀ p, p ∈ [(.vcvt 1 3 1 12 0 0, vctx), (.vdeq 1 4 2 6 0 0, typed 32 12), (.vtdec 1 4 2 0 0, typed 96 12), (.vquant 1 6 2 8 0 0, typed 32 12)] →
        Ready p.1 p.2) ∧ cvtWant (.vcvt 1 3 1 12 0 0) = some .cvt :=
  ⟨ready_all (by decide +kernel), by decide⟩

/-- The ends of the integer types, 1.0 to an integer, a NaN, and an integer to f32. -/
theorem test_witness_ConversionValues : (9 ≤ 9 ∧ 2 ^ 64 - 1 < 2 ^ typeWidth 9)
    ∧ (realOf (fmtOf 12) 0x3F800000 = some 1 ∧ (1 : ℤ) = ⌊(1 : ℝ)⌋ ∧ saturateTo (tySigned 6) (typeWidth 6) 1 = (wrapTo (typeWidth 6) 1, false))
    ∧ ((fmtOf 12).decode (0x7FC00000 % 2 ^ typeWidth 12)).isNan = true
    ∧ (12 ∈ [10, 11, 12, 13, 14, 15, 16] ∧ (7 : ℝ) = (signedOf (typeWidth 6) 7 : ℤ)) := by
  refine ⟨by decide, ⟨real_one, by norm_num, by decide⟩, by decide +kernel, by decide, ?_⟩
  rw [show signedOf (typeWidth 6) 7 = 7 by decide]
  norm_num

/-- Codes at the ends of each kind, and a window of the last weight. -/
theorem test_witness_ConversionValues_codes :
    (17 ∈ [13, 14, 15, 16, 17]) ∧ realOf (fmtOf 13) 0 = some 0 ∧ (0 : Nat) < 2 ^ (fmtOf 13).width ∧ 254 < 255 ∧ 15 < 16 ∧ (15 : Nat) ≠ 8
      ∧ realOf fmtE4m3 0 = some 0 ∧ 2 ≤ 2 ∧ 16 ∈ [8, 10, 12, 14, 16] ∧ 95 < 96 := by
  have h : ∀ f ∈ [fmtOf 13, fmtE4m3], ∃ e, f.decode 0 = .fin false 0 e := by
    intro f hf
    simp only [List.mem_cons, List.not_mem_nil, or_false] at hf
    rcases hf with rfl | rfl <;> exact ⟨_, rfl⟩
  obtain ⟨e, h1⟩ := h (fmtOf 13) (by simp)
  obtain ⟨d, h2⟩ := h fmtE4m3 (by simp)
  refine ⟨by decide, ?_, by decide, by decide, by decide, by decide, ?_, by decide, by decide, by decide⟩
  · rw [realOf, h1]
    simp
  · rw [realOf, h2]
    simp

theorem blockExp_of {k : Int} {m : ℝ} {e z : Int} (h0 : m ≠ 0) (h1 : (2 : ℝ) ^ z ≤ m) (h2 : m < (2 : ℝ) ^ (z + 1))
    (he : e = max (-127) (min 127 (z - k))) : IsBlockExp k m e := by
  refine ⟨fun h => absurd h h0, fun y g1 g2 => ?_⟩
  have a : y < z + 1 := (zpow_lt_zpow_iff_right₀ (by norm_num : (1 : ℝ) < 2)).mp (lt_of_le_of_lt g1 h2)
  have b : z < y + 1 := (zpow_lt_zpow_iff_right₀ (by norm_num : (1 : ℝ) < 2)).mp (lt_of_le_of_lt h1 g2)
  rw [he, show y = z by omega]

/-- A block of 3 alone, and of 6 and 4, whose outlier is 6 or, beside 1, 7: on either side of 6 and at it. -/
theorem test_witness_ConversionValues_blocks :
    (∃ x ∈ [FV.nan false], numberOf x = none)
      ∧ ([FV.fin false 6 0, .fin false 4 0].map numberOf = [(6 : ℝ), 4].map some ∧ IsLargest [(6 : ℝ), 4] 6 ∧ IsBlockExp 8 (6 : ℝ) (-6))
      ∧ (∀ (i : Nat) (v : ℝ), [(6 : ℝ), 4][i]? = some v → |v| ≤ |(6 : ℝ)| ∧ (|v| = |(6 : ℝ)| → 0 ≤ i))
      ∧ (IsLargest ([(6 : ℝ), 4].eraseIdx 0) 4 ∧ IsBlockExp 2 (4 : ℝ) 0 ∧ |scaled 6 0| ≤ 6 ∧ 6 < |scaled 7 0|) := by
  refine ⟨⟨_, List.mem_singleton.mpr rfl, rfl⟩, ⟨?_, ⟨?_, .inr ⟨6, by simp, by norm_num⟩⟩, blockExp_of (z := 2) ?_ ?_ ?_ (by decide)⟩, ?_,
    ⟨?_, .inr ⟨4, by simp, by norm_num⟩⟩, blockExp_of (z := 2) ?_ ?_ ?_ (by decide), ?_, ?_⟩
  · simp [numberOf]
  · intro x hx
    simp only [List.mem_cons, List.not_mem_nil, or_false] at hx
    rcases hx with rfl | rfl <;> norm_num
  · norm_num
  · norm_num
  · norm_num
  · intro i v h
    rcases i with _ | _ | i
    · obtain rfl : (6 : ℝ) = v := by simpa using h
      exact ⟨le_refl _, fun _ => Nat.zero_le _⟩
    · obtain rfl : (4 : ℝ) = v := by simpa using h
      exact ⟨by norm_num, fun _ => Nat.zero_le _⟩
    · simp at h
  · intro x hx
    simp only [List.eraseIdx_zero, List.tail_cons, List.mem_cons, List.not_mem_nil, or_false] at hx
    subst hx
    norm_num
  all_goals norm_num [scaled]

theorem test_witness_VxVdistResults :
    (∀ p, p ∈ [(.vperm 1 5 1 2 0, vctx), (.vsldn 1 5 4 9 0, vctx), (.vpack 1 5 1 1, vctx), (.vxch 1 5 1 0 2, vctx),
          (.vbfly 1 2 1 3 0 0 3, typed 16 22)] → Ready p.1 p.2) ∧ distWant (.vbfly 1 2 1 3 0 0 3) = some .bfly
      ∧ (vxWant (.vperm 1 5 1 2 0) vctx {} 0).isSome :=
  ⟨ready_all (by decide +kernel), by decide, by decide⟩

/-- m1 with bit 2 of four: the first one set, and none. -/
theorem test_witness_VmaskResults :
    (∀ i, i ∈ [.vmand 1 3 1 2 0, .vmfirst 1 7 1 0, .vmpop 1 7 1 0, .vltrip 1 3 1 1 0, .vlstep 1 3 1 0] → Ready i vctx) ∧ vctx.isCoord 7 = false ∧ IsFirst vctx { a := 1 } none ∧ IsFirst (vctx.setMbit 1 2 true) { a := 1 } (some 2) := by
  refine ⟨fun i h => ready_bool ?_, by decide +kernel, ?_, ⟨by unfold ActiveIn; decide +kernel, by decide +kernel, ?_⟩⟩
  · have : ∀ i ∈ [.vmand 1 3 1 2 0, .vmfirst 1 7 1 0, .vmpop 1 7 1 0, .vltrip 1 3 1 1 0, .vlstep 1 3 1 0], readyBool i vctx = true := by decide +kernel
    exact this i h
  · intro j h
    have h := (Bool.and_eq_true_iff.mp (Bool.and_eq_true_iff.mp h).1).1
    have hj : j < 4 := Nat.lt_of_lt_of_le (of_decide_eq_true h) (by decide +kernel)
    have : ∀ j, j < 4 → vctx.mbit 1 j = false := by decide +kernel
    exact this j hj
  · have : ∀ j, j < 2 → (vctx.setMbit 1 2 true).mbit 1 j = false := by decide +kernel
    exact fun j hj _ => this j hj

theorem test_witness_VredResults :
    Ready (.vredsum 1 3 1 0 0 0) vctx ∧ Ready (.vredmin 1 7 1 1 0 0) vctx ∧ Ready (.vscan 1 3 1 0 0) vctx ∧ vlOf vctx ≠ 0
      ∧ Ready (.vredmin 1 7 1 1 0 0) (typed 0 6) ∧ realOf (fmtOf 12) 0x3F800000 = some 1
      ∧ redWant (.vredsum 1 3 1 0 0 0) = some .sum ∧ (9 ≤ 9 ∧ ∀ x ∈ [0, 2 ^ 64 - 1], x < 2 ^ typeWidth 9) :=
  ⟨ready_bool (by decide +kernel), ready_bool (by decide +kernel), ready_bool (by decide +kernel), by decide +kernel, ready_bool (by decide +kernel), real_one, by decide +kernel⟩


/-- Moves; an inbox with an image of core 3 and one of core 5; a peer on core 1 with a slot granted to core 0, and with none. -/
def inboxed (c : Ctx) : State := (st c).onCore 0 fun k => { k with inbox := [{ src := 3, bytes := [1] }, { src := 5, bytes := [2, 3] }] }

def peers (rs : List Nat) : State :=
  let s : State := { State.reset with
    ctx := [(0, some (vctx.wr 9 1)), (16, some { vctx with here := 16 })], cur := 0, sched := { jobs := [loadJob] } }
  s.onCore 1 fun k => { k with reserved := rs }

theorem peers_ready (rs : List Nat) {v : VInstr} (h : readyHere (vctx.wr 9 1) v = true) : VReady (peers rs) v := by
  obtain ⟨h1, h2, h3, h4, h5, -, h7⟩ := ready_of h
  refine ⟨h1, h2, h3, h4, h5, fun k hk hc => ?_, h7⟩
  refine Classical.byContradiction fun hn => ?_
  have hn : k ≠ 0 := hn
  have e : (peers rs).ctxAt k = if k = 16 then { vctx with here := 16 } else ctxDefault k := by
    show ((Sparse.get none [(0, some (vctx.wr 9 1)), (16, some { vctx with here := 16 })] k).getD (ctxDefault k)) = _
    rw [Sparse.get, if_neg (Ne.symm hn), Sparse.get]
    by_cases h : k = 16
    · rw [if_pos h, if_pos (Eq.symm h)]
      rfl
    · rw [if_neg h, if_neg (Ne.symm h)]
      rfl
  by_cases h : k = 16
  · have hm : (peers rs).myCore = 0 := by
      show (vctx.wr 9 1).here / 16 = 0
      decide +kernel
    rw [State.coreOf, e, if_pos h, hm] at hc
    revert hc
    decide
  · rw [e, if_neg h, ctxDefault_vec] at hk
    cases hk

theorem test_witness_VmovResults :
    (∀ p, p ∈ [(.vmv 1 3 1 0, vctx), (.vmvs 1 3 9 0, vctx), (.vid 1 3 0, vctx), (.vins 1 8 10 12 0, vctx), (.vext 1 7 1 9 0, vctx),
          (.vpoll 1 7 9, vctx)] → Ready p.1 p.2) ∧ vctx.isCoord 7 = false
      ∧ (∃ v, opOf (.vtake 1 3 9) = some v ∧ VReady (inboxed (vctx.wr 9 5)) v
        ∧ ((inboxed (vctx.wr 9 5)).coreAt 0).inbox = [{ src := 3, bytes := [1] }] ++ { src := 5, bytes := [2, 3] } :: []
        ∧ comesFrom (g1Of (vctx.wr 9 5) v) { src := 3, bytes := [1] } = false ∧ comesFrom (g1Of (vctx.wr 9 5) v) { src := 5, bytes := [2, 3] } = true)
      ∧ (∃ v, opOf (.vpush 1 3 9) = some v ∧ VReady (peers [0]) v ∧ VReady (peers []) v ∧ vlOf (peers [0]).me ≠ 0
        ∧ g1Of (peers [0]).me v = 1 ∧ (peers [0]).vectorStrand 1 = some 16 ∧ ((peers [0]).ctxAt 16).job = (peers [0]).me.job
        ∧ 0 ∈ ((peers [0]).coreAt 1).reserved ∧ ((peers [0]).coreAt 1).grants 0 = true ∧ 0 ∉ ((peers []).coreAt 1).reserved) := by
  refine ⟨ready_all (by decide +kernel), by decide +kernel, ⟨_, rfl, ?_, by decide +kernel⟩,
    ⟨_, rfl, peers_ready _ (by decide +kernel), peers_ready _ (by decide +kernel), by decide +kernel⟩⟩
  exact ready_of (c := vctx.wr 9 5) (by decide +kernel)

/-! #### Vector memory -/

theorem place_of {r : State} {k : Nat} {acc : Machine.Acc} {ps : Nat → List (Nat × Nat)} {n : Nat}
    (h : ((List.range n).all fun j => okWith (r.checkPieces k acc (ps j)) fun x => decide (x.2 = r)) = true) :
    ∃ place : Nat → List (Nat × Nat), ∀ j, j < n → r.checkPieces k acc (ps j) = .ok (place j, r) := by
  refine ⟨fun j => match r.checkPieces k acc (ps j) with | .ok x => x.1 | .error _ => [], fun j hj => ?_⟩
  obtain ⟨x, hx, hd⟩ := ok_of (List.all_eq_true.mp h j (List.mem_range.mpr hj))
  obtain ⟨y, z⟩ := x
  obtain rfl : z = r := of_decide_eq_true hd
  simp only [hx]

theorem next_run {i : Instr} {s : State} (h : isNext (exec i s) = true) : exec i s = .next (run i s) := by
  obtain ⟨t, ht⟩ := next_of h
  rw [run, ht]

/-- A vector strand with addresses in g5 and g6, a table, and the page of 0x2000 in core 0's translation cache. -/
def mover (c : Ctx) : State := (mapped c).onCore 0 fun k =>
  { k with tlb := [{ root := 0x40000, level := 3, tag := 0x2000 / 2 ^ levelShift 3, pte := 0xDF }] }

def movers : Ctx := vctx.wr 5 0x2000

theorem mover_ready {c : Ctx} {v : VInstr} (h : readyHere c v = true) : VReady (mover c) v := ready_of h

/-- A load and a store of four aligned words whose pages are cached. -/
theorem test_witness_VmemResults :
    (∃ (v : VInstr) (place : Nat → List (Nat × Nat)), opOf (.vld 1 4 5 0 0) = some v ∧ VReady (mover movers) v ∧ memWant (.vld 1 4 5 0 0) = some (.unit, true)
        ∧ exec (.vld 1 4 5 0 0) (mover movers) = .next (run (.vld 1 4 5 0 0) (mover movers))
        ∧ ∀ j, ActiveIn movers (memberOf movers v) j → elemAddress movers (memberOf movers v) .unit 0x2000 0 j % elemAlign 6 = 0
          ∧ (afterIssue (run (.vld 1 4 5 0 0) (mover movers))).checkPieces 0 .read
              (elemPieces 6 (elemAddress movers (memberOf movers v) .unit 0x2000 0 j))
              = .ok (place j, afterIssue (run (.vld 1 4 5 0 0) (mover movers))))
      ∧ (∃ (v : VInstr) (place : Nat → List (Nat × Nat)), opOf (.vst 1 4 5 0 0) = some v ∧ VReady (mover movers) v ∧ memWant (.vst 1 4 5 0 0) = some (.unit, false)
        ∧ exec (.vst 1 4 5 0 0) (mover movers) = .next (run (.vst 1 4 5 0 0) (mover movers))
        ∧ ∀ j, ActiveIn movers (memberOf movers v) j → elemAddress movers (memberOf movers v) .unit 0x2000 0 j % elemAlign 6 = 0
          ∧ (afterIssue (run (.vst 1 4 5 0 0) (mover movers))).checkPieces 0 .write
              (elemPieces 6 (elemAddress movers (memberOf movers v) .unit 0x2000 0 j))
              = .ok (place j, afterIssue (run (.vst 1 4 5 0 0) (mover movers)))) := by
  have lt (m : Member) (j : Nat) (h : ActiveIn movers m j) : j < 4 := by
    have h := (Bool.and_eq_true_iff.mp (Bool.and_eq_true_iff.mp h).1).1
    exact Nat.lt_of_lt_of_le (of_decide_eq_true h) (by decide +kernel)
  refine ⟨?_, ?_⟩
  · obtain ⟨place, hp⟩ := place_of (r := afterIssue (run (.vld 1 4 5 0 0) (mover movers))) (k := 0) (acc := .read) (n := 4)
      (ps := fun j => elemPieces 6 (elemAddress movers (memberOf movers ((opOf (.vld 1 4 5 0 0)).getD default)) .unit 0x2000 0 j))
      (by decide +kernel)
    refine ⟨_, place, rfl, mover_ready (by decide +kernel), rfl, next_run (by decide +kernel), fun j h => ⟨?_, hp j (lt _ j h)⟩⟩
    have : ∀ j, j < 4 → elemAddress movers (memberOf movers ((opOf (.vld 1 4 5 0 0)).getD default)) .unit 0x2000 0 j % elemAlign 6 = 0 := by
      decide +kernel
    exact this j (lt _ j h)
  · obtain ⟨place, hp⟩ := place_of (r := afterIssue (run (.vst 1 4 5 0 0) (mover movers))) (k := 0) (acc := .write) (n := 4)
      (ps := fun j => elemPieces 6 (elemAddress movers (memberOf movers ((opOf (.vst 1 4 5 0 0)).getD default)) .unit 0x2000 0 j))
      (by decide +kernel)
    refine ⟨_, place, rfl, mover_ready (by decide +kernel), rfl, next_run (by decide +kernel), fun j h => ⟨?_, hp j (lt _ j h)⟩⟩
    have : ∀ j, j < 4 → elemAddress movers (memberOf movers ((opOf (.vst 1 4 5 0 0)).getD default)) .unit 0x2000 0 j % elemAlign 6 = 0 := by
      decide +kernel
    exact this j (lt _ j h)

/-- A tile of 64 bytes of job 1 in a state, and a core 0 with it as tile 0. -/
def tileIn (state : TileState) : Tile := { off := 0x40000, len := 64, job := 1, state := state }

def tiled (state : TileState) (c : Ctx) : State := (st c).onCore 0 fun k => { k with tiles := [(0, some (tileIn state))] }

/-- A tile load of four words that end at its length, and lane offsets that end at the slice's end. -/
theorem test_witness_VmemResults_tile_lane :
    (∃ v, opOf (.vldt 1 0 8 9 0 0) = some v ∧ VReady (tiled .ready (vctx.wr 8 48)) v ∧ tileWant (.vldt 1 0 8 9 0 0) = some true
        ∧ (tiled .ready (vctx.wr 8 48)).tile? 0 0 1 = some (tileIn .ready)
        ∧ ∀ j, j < 4 → (0x3000000000000 + 0x40000 + (48 + j * 32 / 8)) % elemAlign 6 = 0 ∧ 48 + j * 32 / 8 + max 1 (32 / 8) ≤ 64)
      ∧ (∃ v, opOf (.vldl 1 4 5 0 0) = some v ∧ VReady (st (vctx.wr 5 16320)) v ∧ laneWant (.vldl 1 4 5 0 0) = some true
        ∧ 16320 % 64 = 0 ∧ ∀ j, j < 4 → 16320 + 64 * (j * 32 / 8 / 256) + j * 32 / 8 % 64 + max 1 (32 / 8) ≤ 16384) := by
  refine ⟨⟨_, rfl, ready_of (c := vctx.wr 8 48) (by decide +kernel), rfl, by decide +kernel, by decide⟩,
    ⟨_, rfl, ready_of (by decide +kernel), rfl, by decide, by decide⟩⟩

/-- A raw segment load of f4e2m1 codes, one that decodes to f32, and a segment store: one segment, its page cached. -/
theorem test_witness_VsegResults :
    ∀ (i : Instr) (ty : Nat) (acc : Machine.Acc),
      (i, ty, acc) ∈ [(Instr.vlseg 1 6 5 7 0 0, 17, Machine.Acc.read), (.vlseg 1 6 5 0 0 0, 12, .read), (.vsseg 1 6 5 7 0 0, 17, .write)] →
      ∃ (v : VInstr) (place : Nat → List (Nat × Nat)), opOf i = some v ∧ VReady (mover ((typed 32 ty).wr 5 0x2000)) v
        ∧ exec i (mover ((typed 32 ty).wr 5 0x2000)) = .next (run i (mover ((typed 32 ty).wr 5 0x2000)))
        ∧ ∀ n, n < 1 → (afterIssue (run i (mover ((typed 32 ty).wr 5 0x2000)))).checkPieces 0 acc (pagePieces 3 (0x2000 + n * segStride 17) (segStride 17))
            = .ok (place n, afterIssue (run i (mover ((typed 32 ty).wr 5 0x2000)))) := by
  intro i ty acc h
  rw [List.mem_cons, List.mem_cons, List.mem_singleton] at h
  obtain h | h | h := h <;> cases h
  · obtain ⟨place, hp⟩ := place_of (r := afterIssue (run (.vlseg 1 6 5 7 0 0) (mover ((typed 32 17).wr 5 0x2000)))) (k := 0) (acc := .read) (n := 1)
      (ps := fun n => pagePieces 3 (0x2000 + n * segStride 17) (segStride 17)) (by decide +kernel)
    exact ⟨_, place, rfl, mover_ready (by decide +kernel), next_run (by decide +kernel), hp⟩
  · obtain ⟨place, hp⟩ := place_of (r := afterIssue (run (.vlseg 1 6 5 0 0 0) (mover ((typed 32 12).wr 5 0x2000)))) (k := 0) (acc := .read) (n := 1)
      (ps := fun n => pagePieces 3 (0x2000 + n * segStride 17) (segStride 17)) (by decide +kernel)
    exact ⟨_, place, rfl, mover_ready (by decide +kernel), next_run (by decide +kernel), hp⟩
  · obtain ⟨place, hp⟩ := place_of (r := afterIssue (run (.vsseg 1 6 5 7 0 0) (mover ((typed 32 17).wr 5 0x2000)))) (k := 0) (acc := .write) (n := 1)
      (ps := fun n => pagePieces 3 (0x2000 + n * segStride 17) (segStride 17)) (by decide +kernel)
    exact ⟨_, place, rfl, mover_ready (by decide +kernel), next_run (by decide +kernel), hp⟩

/-- A steward, a scalar strand, codes 23 and 22, and a vector strand with an empty queue. -/
theorem test_witness_VsetResults :
    isSteward (steward {}).cur = true ∧ (st ctx0).me.vec = false ∧ 22 < (23 : BitVec 5).toNat ∧ (22 : BitVec 5).toNat ≤ 22
      ∧ isSteward (st vctx).cur = false ∧ (st vctx).me.vec = true ∧ (st vctx).coordDest 10 = false
      ∧ (((st vctx).coreAt (st vctx).myCore).crGet 0x482).getLsbD ((st vctx).me.here % 16) = false ∧ (st vctx).me.occupancy < 16
      ∧ (st vctx).me.hold ≠ .trapped ∧ (st vctx).me.queue = [] ∧ (st vctx).me.running = none ∧ (st vctx).myCore < 256 := by decide +kernel

/-- A vector strand whose open convoy holds one member, which writes a register. -/
def opened (d : Nat) : Ctx := { vctx with queue := [.entry { m := { op := .int .add, d := d } }], open_ := true }

/-- What the first word of a convoy and one that joins it need. -/
theorem issues_within :
    ∃ v, opOf (.vadd 1 3 1 2 0 0) = some v ∧ v.m.cb = true ∧ v.m.syncs = false
        ∧ (st { vctx with queue := List.replicate 15 (.entry {}) }).me.occupancy < 16
        ∧ convoyOk (convoyWith (st vctx) v) (st vctx).me.strip.2 (st vctx).me.strip.1 = true
        ∧ convoyOk (convoyWith (st (opened 4)) { v with m := { v.m with cb := false } }) (st (opened 4)).me.strip.2 (st (opened 4)).me.strip.1 = true
        ∧ (st (opened 4)).me.open_ = true ∧ 16 ≤ (st { vctx with queue := List.replicate 16 (.entry {}) }).me.occupancy :=
  ⟨_, rfl, by decide +kernel⟩

/-- A mask destination m8; CB = 0 with no convoy open; a queue with 15 and with 16 entries; a convoy that the word makes, and one that it joins, within
the rules; a synchronising member. -/
theorem test_witness_VectorIssue :
    (∃ v, opOf (.vmand 1 8 1 2 0) = some v ∧ v.m.malformed = true)
      ∧ (∃ v, opOf (.vadd 0 3 1 2 0 0) = some v ∧ v.m.malformed = false ∧ v.m.cb = false ∧ (st vctx).me.reopen = false
        ∧ (st vctx).me.open_ = false ∧ (st vctx).me.drained = true)
      ∧ (∃ v, opOf (.vadd 1 3 1 2 0 0) = some v ∧ v.m.cb = true ∧ v.m.syncs = false
        ∧ (st { vctx with queue := List.replicate 15 (.entry {}) }).me.occupancy < 16
        ∧ convoyOk (convoyWith (st vctx) v) (st vctx).me.strip.2 (st vctx).me.strip.1 = true
        ∧ convoyOk (convoyWith (st (opened 4)) { v with m := { v.m with cb := false } }) (st (opened 4)).me.strip.2 (st (opened 4)).me.strip.1 = true
        ∧ (st (opened 4)).me.open_ = true ∧ 16 ≤ (st { vctx with queue := List.replicate 16 (.entry {}) }).me.occupancy)
      ∧ ∃ v, opOf (.vmpop 1 7 1 0) = some v ∧ v.m.syncs = true ∧ (st vctx).me.isCoord v.m.d = false :=
  ⟨⟨_, rfl, by decide +kernel⟩, ⟨_, rfl, by decide +kernel⟩, issues_within, ⟨_, rfl, by decide +kernel⟩⟩

/-- A convoy of two members that write v3, closed. -/
def clash : Ctx := { vctx with queue := [.entry { m := { op := .int .add, d := 3 } }, .entry { m := { op := .int .sub, d := 3 }, opens := false }] }

theorem test_witness_ConvoysRefused :
    (st clash).vectorStrand (st clash).input.core.toNat = some 0 ∧ isSteward 0 = false ∧ ((st clash).ctxAt 0).vec = true
      ∧ ((st clash).ctxAt 0).hold ≠ .trapped ∧ ((st clash).ctxAt 0).running = none
      ∧ (∃ e q, ((st clash).ctxAt 0).queue = .entry e :: q ∧ ∀ n, e.m.op ≠ .vset n) ∧ ((st clash).ctxAt 0).closed = true
      ∧ Refusable ((st clash).ctxAt 0).convoy (tyOf ((st clash).ctxAt 0)) (vlOf ((st clash).ctxAt 0)) := by
  refine ⟨by decide +kernel, by decide, by decide +kernel, by decide +kernel, by decide +kernel, ⟨_, _, rfl, nofun⟩, by decide +kernel, ?_⟩
  iterate 9 refine .inr ?_
  exact ⟨0, 1, { m := { op := .int .add, d := 3 } }, { m := { op := .int .sub, d := 3 }, opens := false }, by decide, by decide +kernel,
    by decide +kernel, 3, by decide +kernel, .inl (by decide +kernel)⟩

/-- A second member that writes v3 joins the first, and a member joins a VSET. -/
theorem test_witness_ConvoysRefused_issue :
    ∃ v, opOf (.vadd 0 3 1 2 0 0) = some v ∧ v.m.malformed = false ∧ v.m.syncs = false
      ∧ ∀ c, c ∈ [opened 3, { opened 3 with queue := [.entry { m := { op := .vset 4 } }] }] →
          isSteward (st c).cur = false ∧ (st c).me.vec = true ∧ (st c).me.open_ = true ∧ (st c).me.occupancy < 16
            ∧ Refusable (convoyWith (st c) v) (st c).me.strip.2 (st c).me.strip.1 := by
  refine ⟨_, rfl, by decide +kernel, by decide +kernel, fun c h => ?_⟩
  rw [List.mem_cons, List.mem_singleton] at h
  obtain rfl | rfl := h
  · refine ⟨by decide, by decide +kernel, rfl, by decide +kernel, ?_⟩
    iterate 9 refine .inr ?_
    exact ⟨0, 1, _, _, by decide, rfl, rfl, 3, by decide +kernel, .inl (by decide +kernel)⟩
  · refine ⟨by decide, by decide +kernel, rfl, by decide +kernel, ?_⟩
    iterate 6 refine .inr ?_
    exact .inl ⟨by decide +kernel, by decide +kernel⟩

/-- Two largest f32 in element 1, whose sum overflows with every flag but NX enabled, after 0 + 0 in element 0. -/
def overflow : Ctx := ((typed 4 12).crSet 0x105 0xEF).vput 1 32 1 0x7F7FFFFF |>.vput 2 32 1 0x7F7FFFFF

theorem test_witness_ConvoyStops :
    ∃ v, opOf (.vfadd 1 3 1 2 0 0) = some v ∧ fpWant (.vfadd 1 3 1 2 0 0) = some .add ∧ FpOp.add.compares = false ∧ VReady (st overflow) v
      ∧ v.m.x = false ∧ exec (.vfadd 1 3 1 2 0 0) (st overflow) = .next (run (.vfadd 1 3 1 2 0 0) (st overflow))
      ∧ ActiveIn overflow (memberOf overflow v) 1
      ∧ (let f (n : Nat) : Nat × Flags := onParts 1 32 (fpOp .add (fmtOf (partTy 12)) .rne) (overflow.vraw 1 32 n) (overflow.vraw 2 32 n) 0
         (f 1).2 &&& overflow.settings.fen ≠ 0 ∧ (f 0).2 &&& overflow.settings.fen = 0) :=
  ⟨_, rfl, rfl, rfl, ready_of (by decide +kernel), rfl, next_run (by decide +kernel), by unfold ActiveIn; decide +kernel, by decide +kernel⟩


/-! #### The anvil, tiles and transfers -/

/-- A vector strand with a tile in a state, the lease's holder and requests as given, two owned and tagged slots, and commands. -/
def anv (t : TileState) (holder : Option Nat) (asks : List Nat) (cmds : List AnvilCmd) (c : Ctx) : State :=
  ((tiled t c).onCore 0 fun k => { k with anvil := cmds }).onCluster 0 fun y =>
    { y with holder := holder, requests := asks
             slots := [(0, some { job := 1, tag := some (0, false, false) }), (1, some { job := 1, tag := some (0, false, false) }), (255, some { owner := 7 })] }

theorem test_witness_AnvilResults_lease :
    (st ctx0).anvilStrand = false ∧ isAnvil .alease = true ∧ (anv .ready (some 0) [] [] vctx).anvilStrand = true
      ∧ (myAnvil (anv .ready (some 0) [] [] vctx)).holder = some (anv .ready (some 0) [] [] vctx).cur
      ∧ (myAnvil (anv .ready none [0] [] vctx)).holder ≠ some (anv .ready none [0] [] vctx).cur
      ∧ (∀ c ∈ commands (anv .ready (some 0) [] [{ started := true }] vctx), c.started = true)
      ∧ (∃ c ∈ commands (anv .ready (some 0) [] [{}] vctx), c.started = false)
      ∧ (myAnvil (anv .ready none [0] [] vctx)).passing = false
      ∧ (anv .ready none [0] [] vctx).lease = .asked ∧ (anv .ready none [] [] vctx).lease = .none := by decide +kernel

/-- A claim of 257, of 256 with slot 255 taken, and of 1, which takes slot 2. -/
theorem test_witness_AnvilResults_slots :
    256 < max 1 ((anv .ready none [] [] (vctx.wr 1 257)).rd 1).toNat
      ∧ max 1 ((anv .ready none [] [] (vctx.wr 1 256)).rd 1).toNat = 256
      ∧ (∀ i, i + 256 ≤ 256 → ∃ j, j < 256 ∧ slotOf (anv .ready none [] [] (vctx.wr 1 256)) (i + j) ≠ none)
      ∧ max 1 ((anv .ready none [] [] vctx).rd 1).toNat = 1 ∧ (∀ j, j < 1 → slotOf (anv .ready none [] [] vctx) (2 + j) = none)
      ∧ (∀ h, h < 2 → ∃ j, j < 1 ∧ slotOf (anv .ready none [] [] vctx) (h + j) ≠ none)
      ∧ Owns (anv .ready none [] [] vctx) 0 2 ∧ ¬ Owns (anv .ready none [] [] vctx) 255 1 ∧ ¬ Owns (anv .ready none [] [] vctx) 1 2
      ∧ (∃ c ∈ commands (anv .ready none [] [{ op := .lda, sa := 1 }] vctx), c.key = 0 ∧ ∃ i ∈ c.named, 0 ≤ i ∧ i < 0 + 2) := by
  have owns0 : Owns (anv .ready none [] [] vctx) 0 2 := by
    rintro (_ | _ | j) h
    · exact ⟨by decide, { job := 1, tag := some (0, false, false) }, by decide +kernel, rfl, rfl⟩
    · exact ⟨by decide, { job := 1, tag := some (0, false, false) }, by decide +kernel, rfl, rfl⟩
    · omega
  refine ⟨by decide +kernel, by decide +kernel, fun i hi => ⟨255, by decide, ?_⟩, by decide +kernel, by decide +kernel,
    fun h hh => ⟨0, by decide, ?_⟩, owns0, ?_, ?_, by decide +kernel⟩
  · obtain rfl : i = 0 := by omega
    decide +kernel
  · have : ∀ h, h < 2 → slotOf (anv .ready none [] [] vctx) (h + 0) ≠ none := by decide +kernel
    exact this h hh
  · intro h
    obtain ⟨_, o, ho, hc, -⟩ := h 0 (by decide)
    rw [show slotOf (anv .ready none [] [] vctx) (255 + 0) = some { owner := 7 } by decide +kernel] at ho
    cases ho
    revert hc
    decide
  · intro h
    obtain ⟨_, o, ho, _⟩ := h 1 (by decide)
    rw [show slotOf (anv .ready none [] [] vctx) (1 + 1) = none by decide +kernel] at ho
    cases ho

/-- Formats 12 and 13 of a shape; a tile of 64 bytes in each state, with OFF 0 and 32, and ends 64 and 65; formats loaded by A, and by B only. -/
theorem test_witness_AnvilResults_operands :
    (fieldOf (12 : W64) 0 4 < 13 ∧ 13 ≤ fieldOf (13 : W64) 0 4)
      ∧ (anv .ready (some 0) [] [] vctx).tile? 0 1 1 = none
      ∧ (∃ t, (anv .empty (some 0) [] [] vctx).tile? 0 0 1 = some t ∧ t.state = .empty)
      ∧ (∃ t, (anv .filling (some 0) [] [] vctx).tile? 0 0 1 = some t ∧ t.state = .filling)
      ∧ (∃ t, TileReady (anv .ready (some 0) [] [] vctx) 0 t [64] ∧ 64 ≤ t.len ∧ t.len < 65)
      ∧ fieldOf (0x2000000000 : W64) 32 20 % 64 ≠ 0
      ∧ FormatAllowed 10 true true false ∧ FormatAllowed 13 false false true ∧ ¬ FormatAllowed 13 false false false
      ∧ ¬ FormatAllowed 14 false false true
      ∧ CommandReady (anv .ready (some 0) [] [] vctx) ∧ (anv .ready (some 0) [] [] vctx).anyVectorMemory = none := by
  refine ⟨by decide, by decide +kernel, ⟨tileIn .empty, by decide +kernel, rfl⟩, ⟨tileIn .filling, by decide +kernel, rfl⟩,
    ⟨tileIn .ready, ⟨by decide +kernel, rfl, by decide +kernel, ?_⟩, by decide, by decide⟩, by decide, by unfold FormatAllowed; decide,
    by unfold FormatAllowed; decide, by unfold FormatAllowed; decide, by unfold FormatAllowed; decide, by unfold CommandReady; decide +kernel,
    by decide +kernel⟩
  intro e h
  rw [List.mem_singleton] at h
  subst h
  exact Nat.le_refl 64

/-- A pair of slots with their path, accumulators 1 and 2, an accumulator with no path, with the pair's and with another, a store that fits, and
commands of the strand. -/
theorem test_witness_AnvilResults_multiply :
    (∃ x, (anv .ready (some 0) [] [] vctx).multiplySlots false 0 1 = some x) ∧ (anv .ready (some 0) [] [] vctx).multiplySlots false 0 255 = none
      ∧ 1 < (2 : BitVec 5).toNat ∧ (1 : BitVec 5).toNat ≤ 1 ∧ (anv .ready (some 0) [] [] vctx).accPath 1 = 0
      ∧ ((anv .ready (some 0) [] [] vctx).setAccPath 1 3).accPath 1 ≠ 0 ∧ storeBytes 31 = 0 ∧ storeBytes 12 ≠ 0
      ∧ storeFits 0 12 = true
      ∧ (∃ c ∈ commands (anv .ready (some 0) [] [{}] vctx), c.key = 0) ∧ (∀ c ∈ commands (anv .ready (some 0) [] [] vctx), c.key ≠ 0) := by
  refine ⟨Option.isSome_iff_exists.mp (by decide +kernel), by decide +kernel⟩

theorem bf16_zero : realOf fmtBf16 0 = some 0 := by
  rw [realOf, show fmtBf16.decode 0 = .fin false 0 (-133) by decide +kernel]
  norm_num

/-- A pass of one K position over empty slots of bf16, of i8, and of the complex formats, with the tags named; and stores of each path. -/
theorem test_witness_AnvilResults_values :
    (∀ f, f ∈ [0, 7, 11, 12] →
      let c : AnvilCmd := { op := .mma, fa := f, fb := f, m := 1, n := 1, k := 1, ta := [(f, false, false)], tb := [(f, false, false)] }
      c.multiplies = true ∧ TagsNamed c ∧ c.acc < 2 ∧ c.m ≤ 32 ∧ c.n ≤ 32
        ∧ ∃ row, pairRow f f = some row ∧ pairPath row false false = (match f with | 0 => 2 | 7 => 1 | 11 => 4 | _ => 3))
      ∧ (let c : AnvilCmd := { op := .mma, m := 1, n := 1, k := 1 }
         ∃ q : Nat → ℝ, ∀ j, j < c.passes → floatSum {} c 0 0 j = some (q j))
      ∧ (∀ p, p ∈ [(0, 12), (1, 6), (2, 12), (3, 19), (4, 22)] → storeBytes p.2 ≠ 0 ∧ storeFits p.1 p.2 = true) := by
  refine ⟨?_, ⟨fun _ => 0, ?_⟩, by decide⟩
  · have tags (f : Nat) (h : 1 < kPass f) :
        TagsNamed { op := .mma, fa := f, fb := f, m := 1, n := 1, k := 1, ta := [(f, false, false)], tb := [(f, false, false)] } := by
      refine ⟨fun j hj => ?_, fun j hj => ?_⟩
      · obtain rfl : j = 0 := by
          refine Nat.lt_one_iff.mp (lt_of_lt_of_le hj ?_)
          show (1 + _ - 1) / _ ≤ 1
          exact Nat.div_le_of_le_mul (by omega)
        rfl
      · obtain rfl : j = 0 := by
          rcases j with _ | j
          · rfl
          · exfalso
            have : kPass f ≤ (j + 1) * kPass f := Nat.le_mul_of_pos_left _ (Nat.succ_pos j)
            exact absurd hj (by show ¬ (j + 1) * kPass f < 1; omega)
        rfl
    intro f hf
    simp only [List.mem_cons, List.not_mem_nil, or_false] at hf
    rcases hf with rfl | rfl | rfl | rfl <;> exact ⟨rfl, tags _ (by decide), by decide, by decide, by decide, _, rfl, rfl⟩
  · intro j hj
    obtain rfl : j = 0 := Nat.lt_one_iff.mp (lt_of_lt_of_le hj (by decide))
    have zero : numberAt {} 0 false false 0 0 0 0 = some 0 := by
      show realOf fmtBf16 (slotElem {} (elemBits 0) 0 0 0) = some 0
      rw [show slotElem {} (elemBits 0) 0 0 0 = 0 by decide +kernel, bf16_zero]
    unfold floatSum
    dsimp only
    rw [if_neg (by decide), show denseAt (kPass 0) 1 0 = [0] by decide +kernel, List.map_singleton]
    show columnSum {} 0 0 0 [mulO (numberAt {} 0 false false 0 0 0 0) (numberAt {} 0 false false 0 0 0 0)] = some 0
    rw [zero]
    simp [columnSum, mulO, sumO]

/-- Transfers of core 0: a FIFO with room and a full one, a coordinate destination, a queued vector access, a request that is misaligned by one,
and one that reads as all zeros. -/
def hauled (xs : List Xfer) (c : Ctx) : State := (mapped c).onCore 0 fun k =>
  { k with xfers := xs, chans := [(0, { next := 5 }), (1, { next := 5, fault := true, fid := 3 })] }

theorem test_witness_HaulAndTiles_haul :
    (hauled [] ctx0).coordDest 1 = false ∧ (hauled [] (ctx0.crSet 0x3C0 0x8000000000000022)).coordDest 1 = true
      ∧ (hauled [] ctx0).anyVectorMemory = none ∧ (hauled [] { vctx with queue := [.entry queuedStore] }).anyVectorMemory ≠ none
      ∧ ¬ 16 ≤ (((hauled (List.replicate 15 {}) ctx0).coreAt 0).xfers.filter fun x => x.state == .waiting).length
      ∧ 16 ≤ (((hauled (List.replicate 16 {}) ctx0).coreAt 0).xfers.filter fun x => x.state == .waiting).length
      ∧ ((hauled [] (ctx0.wr 1 0x2001)).rd 1).toNat % 8 ≠ 0
      ∧ (∃ bs s1, (hauled [] (ctx0.wr 1 0x2000)).engineRead 0 ((hauled [] (ctx0.wr 1 0x2000)).rootOf 0) 0x2000 32 = .ok (bs, s1)
        ∧ bs = List.replicate 32 0) ∧ RequestClean (List.replicate 32 0) := by
  obtain ⟨⟨bs, s1⟩, h, q⟩ := ok_of
    (e := (hauled [] (ctx0.wr 1 0x2000)).engineRead 0 ((hauled [] (ctx0.wr 1 0x2000)).rootOf 0) 0x2000 32)
    (p := fun r => decide (r.1 = List.replicate 32 0)) (by decide +kernel)
  exact ⟨by decide +kernel, by decide +kernel, by decide +kernel, by decide +kernel, by decide +kernel, by decide +kernel, by decide +kernel,
    ⟨bs, s1, h, of_decide_eq_true q⟩, by unfold RequestClean; decide +kernel⟩

/-- Ids 4 and 5 of a channel at 5; ids 2 and 3 of one with fault 3; a milestone below and at an id. -/
theorem test_witness_HaulAndTiles_wait :
    ((hauled [] ctx0).chanAt 0 0).next ≤ 5 ∧ 4 < ((hauled [] ctx0).chanAt 0 0).next
      ∧ (((hauled [] ctx0).chanAt 0 1).fault = true ∧ ((hauled [] ctx0).chanAt 0 1).fid ≤ 3 ∧ 2 < ((hauled [] ctx0).chanAt 0 1).fid)
      ∧ IsMilestone (hauled [] ctx0) 0 0 5 ∧ IsMilestone (hauled [{ id := 3 }] ctx0) 0 0 3 := by
  refine ⟨by decide +kernel, by decide +kernel, by decide +kernel, ⟨?_, by decide +kernel, .inl (by decide +kernel)⟩, ⟨?_, by decide +kernel, .inr ?_⟩⟩
  · intro x h
    rw [show ((hauled [] ctx0).coreAt 0).xfers = [] by decide +kernel] at h
    cases h
  · intro x h _ _
    rw [show ((hauled [{ id := 3 }] ctx0).coreAt 0).xfers = [{ id := 3 }] by decide +kernel, List.mem_singleton] at h
    rw [h]
  · exact ⟨{ id := 3 }, by decide +kernel, rfl, nofun, rfl⟩

/-- The regions at the ends of what a tile may be, outside it, and on a tile; a full table; a tile in each state, and none. -/
theorem test_witness_HaulAndTiles_tiles :
    HaulsStarted (tiled .ready ctx0) ∧ ¬ HaulsStarted (hauled [{ job := 1 }] ctx0)
      ∧ (∀ r, r ∈ [(0x40000, 64), (0xBFFC0, 64), (0x40000, 524288)] → RegionAllowed r.1 r.2)
      ∧ (∀ r, r ∈ [(0x3FFC0, 64), (0x40000, 63), (0xBFFC0, 128)] → ¬ RegionAllowed r.1 r.2)
      ∧ Overlaps (tiled .ready ctx0) 0x40000 64 ∧ ¬ Overlaps (tiled .ready ctx0) 0x40040 64
      ∧ (windowOffset 0 0x3000000040000 = some 0x40000 ∧ windowOffset 0 0x1000 = none ∧ privateVa privateWindow = true
        ∧ privateVa 0x3000000040000 = false)
      ∧ (tileAt (tiled .ready ctx0) 0 ≠ none ∧ tileAt (tiled .ready ctx0) 1 = none
      ∧ (∀ id, id < 64 → tileAt ((st ctx0).onCore 0 fun k => { k with tiles := (List.range 64).map fun n => (n, some { off := 0x80000 + 64 * n, len := 64 }) }) id ≠ none)
      ∧ tileDest (.tfree 1 2) = some 1 ∧ (tiled .ready ctx0).tile? 0 1 1 = none)
      ∧ (∃ t, (tiled .filling ctx0).tile? 0 0 1 = some t ∧ t.state = .filling ∧ t.owner ≠ 1)
      ∧ (∃ t, (tiled .draining ctx0).tile? 0 0 1 = some t ∧ t.state = .draining)
      ∧ (∃ t, (tiled .empty ctx0).tile? 0 0 1 = some t ∧ t.state = .empty)
      ∧ (∃ t, (tiled .ready ctx0).tile? 0 0 1 = some t ∧ t.state = .ready) ∧ (tiled .ready ctx0).anyVectorMemory = none
      ∧ (tiled .ready { vctx with queue := [.entry queuedStore] }).anyVectorMemory ≠ none := by
  refine ⟨?_, ?_, by unfold RegionAllowed; decide, by unfold RegionAllowed; decide, ?_, ?_, by decide +kernel, by decide +kernel,
    ⟨tileIn .filling, by decide +kernel, rfl, by decide⟩, ⟨tileIn .draining, by decide +kernel, rfl⟩, ⟨tileIn .empty, by decide +kernel, rfl⟩,
    ⟨tileIn .ready, by decide +kernel, rfl⟩, by decide +kernel⟩
  · intro x h
    rw [show ((tiled .ready ctx0).coreAt (tiled .ready ctx0).myCore).xfers = [] by decide +kernel] at h
    cases h
  · intro h
    exact h { job := 1 } (by decide +kernel) ⟨rfl, rfl, rfl⟩
  · exact ⟨(0, some (tileIn .ready)), by
      rw [show ((tiled .ready ctx0).coreAt (tiled .ready ctx0).myCore).tiles = [(0, some (tileIn .ready))] by decide +kernel]
      exact List.mem_cons_self, tileIn .ready, rfl, by decide, by decide⟩
  · rintro ⟨p, hp, t, ht, h1, h2⟩
    rw [show ((tiled .ready ctx0).coreAt (tiled .ready ctx0).myCore).tiles = [(0, some (tileIn .ready))]
      by decide +kernel, List.mem_singleton] at hp
    subst hp
    cases ht
    revert h1
    decide

/-! #### Engine requests and wayfarers -/

/-- Two tiles of 32 KiB of job 1, and n commands at the trellis encoder of the strand's cluster. -/
def eng (a b : TileState) (n : Nat) (c : Ctx) : State := ((mapped c).onCore 0 fun k =>
  { k with tiles := [(0, some { tileIn a with len := 32768 }), (1, some { tileIn b with off := 0x50000, len := 32768 })] }).onCluster 0 fun y =>
    { y with tenc := List.replicate n {} }

/-- TENC's operands: NSEG and the offset of the input. -/
def tencAt (nseg soff : Nat) : Ctx := (ctx0.wr 1 (BitVec.ofNat 64 (soff * 2 ^ 32 + nseg * 256))).wr 2 1

/-- NSEG at and beyond its ends; the tile missing, and in each state; 32 segments that end with the tile, and 64 bytes beyond; an offset of 32;
queues of 7 and 8. -/
theorem test_witness_EngineRequests_tenc :
    (∀ n, n ∈ [0, 33] → n = 0 ∨ 32 < n) ∧ (∀ n, n ∈ [1, 32] → fieldOf ((eng .ready .ready 0 (tencAt n 0)).rd 1) 8 6 = n ∧ n ≠ 0 ∧ ¬ 32 < n)
      ∧ (eng .ready .ready 0 (tencAt 1 0)).coordDest 3 = false
      ∧ myTile (st (tencAt 1 0)) 0 = none ∧ (∃ t, myTile (eng .empty .ready 0 (tencAt 1 0)) 0 = some t ∧ t.state = .empty)
      ∧ (∃ t, myTile (eng .ready .filling 0 (tencAt 1 0)) 1 = some t ∧ Busy t)
      ∧ (∃ ts td, myTile (eng .ready .ready 7 (tencAt 32 20480)) 0 = some ts ∧ myTile (eng .ready .ready 7 (tencAt 32 20480)) 1 = some td
        ∧ AtRest ts ∧ AtRest td ∧ 20480 % 64 = 0 ∧ 20512 % 64 ≠ 0
        ∧ fieldOf ((eng .ready .ready 7 (tencAt 32 20480)).rd 1) 32 20 = 20480
        ∧ 20480 + 32 * (96 * 4) ≤ ts.len ∧ 0 + 32 * segmentBytes 0 ≤ td.len ∧ ¬ 20544 + 32 * (96 * 4) ≤ ts.len)
      ∧ ((eng .ready .ready 7 (tencAt 32 20480)).clusterAt 0).tenc.length < 8 ∧ 8 ≤ ((eng .ready .ready 8 (tencAt 32 20480)).clusterAt 0).tenc.length
      ∧ (eng .ready .ready 7 (tencAt 32 20480)).anyVectorMemory = none := by
  refine ⟨by decide, by decide +kernel, by decide +kernel, by decide +kernel, ⟨{ tileIn .empty with len := 32768 }, by decide +kernel, rfl⟩,
    ⟨{ tileIn .filling with off := 0x50000, len := 32768 }, by decide +kernel, .inl rfl⟩,
    ⟨{ tileIn .ready with len := 32768 }, { tileIn .ready with off := 0x50000, len := 32768 }, by decide +kernel, by decide +kernel, rfl, rfl,
      by decide +kernel⟩, by decide +kernel⟩

/-- Ids and milestones of a core: five of each issued, three passed. -/
def miles (fault : Bool) (fid : Nat) : State := (st ctx0).onCore 0 fun k =>
  { k with tencNext := 5, tencOpen := [3], codeNext := 5, codeOpen := [3, 4], codeFault := fault, codeFid := fid }

theorem test_witness_EngineRequests_wait :
    (let c := (miles false 0).coreAt (miles false 0).myCore
     c.tencNext ≤ 5 ∧ 4 < c.tencNext ∧ 2 < c.tmile ∧ c.tmile ≤ 3 ∧ c.codeNext ≤ 5 ∧ 4 < c.codeNext ∧ 2 < c.cmile ∧ c.cmile ≤ 3 ∧ c.codeFault = false)
      ∧ (let c := (miles true 2).coreAt (miles true 2).myCore
         c.codeFault = true ∧ c.codeFid ≤ 2 ∧ (c.codeFault = true → 1 < c.codeFid) ∧ 1 < c.cmile)
      ∧ (let c := (miles true 4).coreAt (miles true 4).myCore
         (c.codeFault = true → 3 < c.codeFid) ∧ c.cmile ≤ 3)
      ∧ ∀ f, f ∈ [false, true] → IsMileWord (BitVec.ofNat 64 ((if f then 2 ^ 63 else 0) + 3)) f 3 := by
  refine ⟨by decide +kernel, by decide +kernel, by decide +kernel, ?_⟩
  unfold IsMileWord
  decide +kernel

/-- A block for an encode of 12 bits to 13 by a polar code, from tile 0 to tile 1, at 0x2000, in a job whose tiles are in a state. -/
def blockAt (a b : TileState) (tout : Nat) : State :=
  let s := eng a b 0 (ctx0.wr 1 0x2000)
  [3 * 2 ^ 60 + 9 * 2 ^ 34, 13 * 2 ^ 44 + 12 * 2 ^ 24, 0, tout].foldl (fun (p : State × Nat) w => (p.1.performNat p.2 8 w, p.2 + 8)) (s, 0x2000) |>.1

def blockReq (tout : Nat) : CodeReq :=
  { key := 0, core := 0, job := 1, root := 0x40000, id := 0
    words := [3 * 2 ^ 60 + 9 * 2 ^ 34, 13 * 2 ^ 44 + 12 * 2 ^ 24, 0, BitVec.ofNat 64 tout, 0, 0, 0, 0] }

theorem test_witness_EngineRequests_csub_read (a b : TileState) (tout : Nat) (hs : a ∈ [.ready, .filling, .empty]) (ht : b = .ready)
    (h : tout ∈ [0, 1]) : ∃ p s1, (blockAt a b tout).request 0x2000 64 64 .read = .ok (p, s1)
      ∧ (List.range 8).map (fun j => s1.read64 (p.loc + 8 * j)) = (blockReq tout).words ∧ s1.anyVectorMemory = none
      ∧ (blockAt a b tout).me.job = 1 ∧ (blockAt a b tout).rootOf 0 = 0x40000 ∧ (blockAt a b tout).coordDest 3 = false := by
  subst ht
  have : ∀ a ∈ [TileState.ready, .filling, .empty], ∀ tout ∈ [0, 1],
      okWith ((blockAt a .ready tout).request 0x2000 64 64 .read) (fun x =>
        (List.range 8).map (fun j => x.2.read64 (x.1.loc + 8 * j)) == (blockReq tout).words && x.2.anyVectorMemory.isNone
          && (blockAt a .ready tout).me.job == 1 && (blockAt a .ready tout).rootOf 0 == 0x40000 && !(blockAt a .ready tout).coordDest 3) = true := by
    decide +kernel
  obtain ⟨⟨p, s1⟩, hr, hb⟩ := ok_of (this a hs tout h)
  simp only [Bool.and_eq_true, beq_iff_eq, Option.isNone_iff_eq_none, Bool.not_eq_true'] at hb
  exact ⟨p, s1, hr, hb.1.1.1.1, hb.1.1.1.2, hb.1.1.2, hb.1.2, hb.2⟩

/-- A block that is as R354 allows, and fits; with the tiles alike it does not; and the tiles are at rest, busy, empty. -/
theorem test_witness_EngineRequests_csub :
    (∃ c, (st (ctx0.wr 1 0x2008)).request 0x2008 64 64 .read = .error c)
      ∧ (∀ (ti tout : Tile), ti.len = 32768 → tout.len = 32768 →
          (blockReq 1).valid = true ∧ (blockReq 1).tin ≠ (blockReq 1).tout ∧ (blockReq 1).inOff + (blockReq 1).inBytes ≤ ti.len
            ∧ (blockReq 1).outOff + (blockReq 1).outBytes ≤ tout.len)
      ∧ (blockReq 0).tin = (blockReq 0).tout
      ∧ (∃ t, myTile (blockAt .ready .ready 1) 0 = some t ∧ ¬ Busy t ∧ t.state ≠ .empty ∧ t.len = 32768)
      ∧ (∃ t, myTile (blockAt .ready .ready 1) 1 = some t ∧ ¬ Busy t ∧ t.len = 32768)
      ∧ (∃ t, myTile (blockAt .filling .ready 1) 0 = some t ∧ Busy t) ∧ (∃ t, myTile (blockAt .empty .ready 1) 0 = some t ∧ t.state = .empty)
      ∧ (Sparse.get [] (blockAt .ready .ready 1).coding 0).length < 64
      ∧ 64 ≤ (Sparse.get [] { blockAt .ready .ready 1 with coding := [(0, List.replicate 64 {})] }.coding 0).length := by
  refine ⟨⟨.misalign, error_of (by decide +kernel)⟩, fun ti tout h1 h2 => ?_, by decide +kernel,
    ⟨{ tileIn .ready with len := 32768 }, by decide +kernel, by unfold Busy; decide, by decide, rfl⟩,
    ⟨{ tileIn .ready with off := 0x50000, len := 32768 }, by decide +kernel, by unfold Busy; decide, rfl⟩,
    ⟨{ tileIn .filling with len := 32768 }, by decide +kernel, .inl rfl⟩, ⟨{ tileIn .empty with len := 32768 }, by decide +kernel, rfl⟩,
    by decide +kernel, by decide +kernel⟩
  exact ⟨by decide +kernel, by decide +kernel, by rw [h1]; decide +kernel, by rw [h2]; decide +kernel⟩

/-- A record at 0x2000 for a window or a send of one PRB at port 0, which is enabled, with n in use, and a tile 0 in a state. -/
def recordAt (isSend : Bool) (n : Nat) (t : TileState) : State :=
  let s := eng t .ready 0 ((ctx0.wr 1 0x2000).wr 2 0)
  let s := s.onCore 0 fun k => { k with fh := List.replicate n { isSend := isSend, state := if isSend then .queued else .armed } }
  let s : State := { s with dev := { s.dev with tables := { ports := [{ enabled := true }] } } }
  ((s.performNat 0x2000 8 (2 ^ 21)).performNat 0x2008 8 (2 ^ 32)).performNat 0x2018 8 (if isSend then 0 else 1)

def recordItem (s : State) (isSend : Bool) : FhItem :=
  { core := s.myCore, key := s.cur, job := s.me.job, handle := (s.coreAt s.myCore).fhNext, isSend := isSend, tile := 0, order := s.dev.fhOrder
    words := [2 ^ 21, 2 ^ 32, 0, if isSend then 0 else 1], state := if isSend then .queued else .armed }

/-- A valid record for a port with 63 and with 64 in use, the same where the port is not configured, a busy tile, an empty one, and no tile. -/
theorem test_witness_EngineRequests_fh (isSend : Bool) :
    (∀ n, n ∈ [63, 64] → ∃ p s1, (recordAt isSend n .ready).request 0x2000 8 32 .read = .ok (p, s1)
        ∧ (List.range 4).map (fun j => s1.read64 (p.loc + 8 * j)) = (recordItem (recordAt isSend n .ready) isSend).words
        ∧ s1.portUse 0 isSend = n ∧ s1.fhConfigured (recordItem (recordAt isSend n .ready) isSend).fields = true
        ∧ (recordItem (recordAt isSend n .ready) isSend).valid = true
        ∧ s1.fhFits (recordItem (recordAt isSend n .ready) isSend) { tileIn .ready with len := 32768 } = true)
      ∧ (st ctx0).fhConfigured (recordItem (st ctx0) isSend).fields = false
      ∧ myTile (recordAt isSend 63 .ready) 0 = some { tileIn .ready with len := 32768 } ∧ AtRest (tileIn .ready)
      ∧ (recordAt isSend 63 .ready).anyVectorMemory = none ∧ (recordAt isSend 63 .ready).coordDest 3 = false
      ∧ (∃ t, myTile (recordAt isSend 0 .draining) 0 = some t ∧ Busy t) ∧ (∃ t, myTile (recordAt isSend 0 .empty) 0 = some t ∧ t.state = .empty)
      ∧ myTile (st ctx0) 0 = none ∧ (∃ c, (recordAt isSend 0 .ready).request 0x2004 8 32 .read = .error c) := by
  have h : ∀ b ∈ [true, false], ∀ n ∈ [63, 64], okWith ((recordAt b n .ready).request 0x2000 8 32 .read) (fun x =>
      ((List.range 4).map fun j => x.2.read64 (x.1.loc + 8 * j)) == (recordItem (recordAt b n .ready) b).words && x.2.portUse 0 b == n
        && x.2.fhConfigured (recordItem (recordAt b n .ready) b).fields && (recordItem (recordAt b n .ready) b).valid
        && x.2.fhFits (recordItem (recordAt b n .ready) b) { tileIn .ready with len := 32768 }) = true := by
    decide +kernel
  refine ⟨fun n hn => ?_, ?_⟩
  · obtain ⟨⟨p, s1⟩, hr, hb⟩ := ok_of (h isSend (by cases isSend <;> decide) n hn)
    simp only [Bool.and_eq_true, beq_iff_eq] at hb
    exact ⟨p, s1, hr, hb.1.1.1.1, hb.1.1.1.2, hb.1.1.2, hb.1.2, hb.2⟩
  · cases isSend <;> exact ⟨by decide +kernel, by decide +kernel, rfl, by decide +kernel, by decide +kernel,
      ⟨{ tileIn .draining with len := 32768 }, by decide +kernel, .inr rfl⟩, ⟨{ tileIn .empty with len := 32768 }, by decide +kernel, rfl⟩,
      by decide +kernel, ⟨.misalign, error_of (by decide +kernel)⟩⟩

/-- A handle that 128 later ones have pushed out, one that is kept, and one never given. -/
theorem test_witness_EngineRequests_fhstat :
    let c := ((st ctx0).onCore 0 fun k => { k with fhNext := 130, fh := [{ handle := 2 }] }).coreAt 0
    1 + 128 < c.fhNext ∧ c.fhNext ≤ 2 + 128 ∧ c.fh.find? (fun f => f.handle == 2) = some { handle := 2 } ∧ ∀ f ∈ c.fh, f.handle ≠ 3 := by
  decide +kernel

/-! #### Wayfarers -/

/-- Strand 0 as a wayfarer with x in g3 and y in g4, at (1, 2) on core 0, with records of others there. -/
def rover (others : List WayRecord) (c : Ctx) : State := (mapped ((c.crSet 0x3C0 (2 ^ 63 + 3 * 32 + 4)).wr 3 1 |>.wr 4 2)).onCore 0 fun k =>
  { k with records := { key := 0, job := 1, x := 1, y := 2 } :: others }

/-- A strand that is no wayfarer, with g5 and g6, and n wayfarers counted in core 0's tract. -/
def joiner (n : Nat) (x y : W64) : State :=
  let s := mapped ((ctx0.wr 5 x).wr 6 y)
  { s with way := { s.way with counts := (List.range n).map fun i => (0, (i + 100, 1)) } }

/-- ADD of g1 and g2 to g3: a sum that keeps the pair, one in core 0's tract, one in another core's, and one in none. -/
theorem test_witness_Wayfarers_results :
    plainDest (.time 3) = some 3 ∧ (rover [] ctx0).coordDest 3 = true ∧ (rover [] ctx0).coordDest 4 = true ∧ (rover [] ctx0).coordDest 5 = false
      ∧ (∃ p, CoordRule (.add 3 1 2) (rover [] ctx0) 3 p) ∧ (rover [] ctx0).me.xreg = 3 ∧ (rover [] ctx0).me.yreg = 4
      ∧ (1, 2) = (rover [] ctx0).recordPair (rover [] ctx0).cur ∧ (2, 2) ≠ (rover [] ctx0).recordPair (rover [] ctx0).cur
      ∧ hostOf (rover [] ctx0) 2 2 = some (rover [] ctx0).myCore ∧ (rover [] ctx0).record? 0 0 = some { key := 0, job := 1, x := 1, y := 2 }
      ∧ (∃ m, hostOf (rover [] ctx0) 65535 2 = some m ∧ m ≠ (rover [] ctx0).myCore) ∧ hostOf (rover [] ctx0) 65536 2 = none := by
  refine ⟨rfl, by decide +kernel, by decide +kernel, by decide +kernel, ⟨_, .inl rfl⟩, by decide +kernel, by decide +kernel, by decide +kernel,
    by decide +kernel, by decide +kernel, by decide +kernel, ⟨15, by decide +kernel, by decide +kernel⟩, by decide +kernel⟩

/-- WJOIN that is refused for its registers, and one that is not: into no tract, into its own with room for one more and with none, and into
another. -/
theorem test_witness_Wayfarers_join :
    ((0 : BitVec 5) = 0 ∧ (joiner 0 1 2).me.vec = false ∧ isSteward (joiner 0 1 2).cur = false ∧ (joiner 0 1 2).me.wayfarer = false
        ∧ (joiner 0 1 2).me.bindsTarget 5 = false ∧ (joiner 0 1 2).me.bindsTarget 6 = false ∧ (rover [] ctx0).me.wayfarer = true)
      ∧ hostOf (joiner 0 1 2) 1 2 = some (joiner 0 1 2).myCore ∧ hostOf (joiner 0 65536 2) 65536 2 = none
      ∧ (∃ m, hostOf (joiner 0 65535 2) 65535 2 = some m ∧ m ≠ (joiner 0 65535 2).myCore)
      ∧ (∃ n, n = fieldOf ((joiner 0 1 2).coreAt 0 |>.crGet 0x3C2) 0 4 ∧ 0 < n
        ∧ ((joiner (n - 1) 1 2).giveUpAdmission 0).tractCount 0 < n ∧ n ≤ ((joiner n 1 2).giveUpAdmission 0).tractCount 0)
      ∧ (joiner 0 1 2).admissionStands 1 2 = false ∧ (st vctx).me.vec = true ∧ (joiner 0 1 2).coordDest 3 = false := by
  refine ⟨by decide +kernel, by decide +kernel, by decide +kernel, ⟨15, by decide +kernel, by decide +kernel⟩, ⟨12, ?_⟩, by decide +kernel⟩
  decide +kernel

/-- A record of the job near by, its handle, places to store it, words to publish, and words of the map at the ends of i. -/
theorem test_witness_Wayfarers_queries :
    (rover [] ctx0).me.vec = false ∧ (joiner 0 1 2).record? 0 0 = none
      ∧ InReach (rover [{ key := 7, job := 1, x := 2, y := 2 }] ctx0) { key := 7, job := 1, x := 2, y := 2 }
      ∧ (∃ s1, (rover [{ key := 7, job := 1, x := 2, y := 2 }] ctx0).storeRecords 0x2000 [{ key := 7, job := 1, x := 2, y := 2 }] = .ok s1)
      ∧ ((rover [{ key := 7, job := 1, x := 2, y := 2 }] ctx0).recordsAt 0 1).find? (fun p => p.key == 7) = some { key := 7, job := 1, x := 2, y := 2 }
      ∧ (∀ p, InReach (rover [] ctx0) p → p.key ≠ 7) ∧ 0x2004 % 8 ≠ 0 ∧ 0x2000 % 8 = 0
      ∧ (∃ e, (st ctx0).ctxSpan 0 .read 2 0x2000 24 = .error e) ∧ (∃ x, (rover [] ctx0).ctxSpan 0 .read 2 0x2000 24 = .ok x)
      ∧ fieldOf (16 : W64) 0 5 = 16 ∧ 16 < fieldOf (17 : W64) 0 5 ∧ (0x210 : W64).getLsbD 9 = true ∧ (16 : W64).getLsbD 9 = false := by
  have ok {ε α : Type} {e : Except ε α} (h : okWith e (fun _ => true) = true) : ∃ a, e = .ok a := (ok_of h).imp fun _ x => x.1
  have no {α ε : Type} {e : Except ε α} (h : okWith e (fun _ => true) = false) : ∃ x, e = .error x := by
    cases e with
    | ok a => cases h
    | error x => exact ⟨x, rfl⟩
  refine ⟨by decide +kernel, by decide +kernel, by unfold InReach; decide +kernel, ok (by decide +kernel), by decide +kernel, fun p h => ?_,
    by decide, by decide, no (by decide +kernel), ok (by decide +kernel), by decide⟩
  rw [InReach, show (rover [] ctx0).recordsAt (rover [] ctx0).myCore (rover [] ctx0).me.job = [{ key := 0, job := 1, x := 1, y := 2 }]
    by decide +kernel, List.mem_singleton] at h
  subst h
  decide

/-! #### The scheduler -/

/-- Strand 0 of job 1 in stage n of a route run of three stages, queue 0 with a ring of two records, and a table. -/
def served (x : HwQueue) (n : Nat) (r : RouteRun) (c : Ctx) : State :=
  let s := mapped (c.wr 1 0x2000)
  { s with
    sched := { s.sched with jobs := [{ loadJob with stage := some (1, n), retained := [(9, 4)] }, { id := 5, parent := 1 }], queues := [(0, x)], routes := [r] }
    dev := { s.dev with tables := { queues := [{ w0 := 0x100000, w1 := 2 ^ 32 + 2 }] } } }

def run3 : RouteRun := { id := 1, stages := [1, 2, 3], statuses := [none, none, none], channels := [{ allowance := 2 }, { allowance := 1 }] }

def heldPush : HeldOp := { key := 9, kind := 0 }

/-- A strand whose record at 0x2000 asks for one strand, and some jobs. -/
def spawner (js : List Job) : State := ({ mapped ctx0 with sched := { jobs := js } } : State).performNat 0x2010 8 1

theorem some_of {ε α : Type} {e : Except ε α} (h : okWith e (fun _ => true) = true) : ∃ a, e = .ok a := (ok_of h).imp fun _ x => x.1

/-- SPAWN of a record of zeros, which is invalid, and of one of size 1, with one job and with 16,384. JDONE of a child that runs, of one whose
value is retained, and of one unknown. -/
theorem test_witness_SchedulerResults_jobs :
    schedDest (.jdone 3 1) = some 3 ∧ (rover [] ctx0).coordDest 3 = true ∧ (served {} 0 run3 ctx0).coordDest 3 = false
      ∧ (∃ c, (served {} 0 run3 ctx0).spawnPlace 0x2001 = .error c)
      ∧ (∃ p s1, (served {} 0 run3 ctx0).spawnPlace 0x2000 = .ok (p, s1) ∧ (s1.withRecord p false).prepare 0 0x40000 (recordOf ((s1.withRecord p false).readBytes p.loc 64)) = none)
      ∧ (∀ js : List Job, js = [loadJob] ∨ js = List.replicate 16384 loadJob → ∃ p s1, (spawner js).spawnPlace 0x2000 = .ok (p, s1)
          ∧ ∃ list s3, (s1.withRecord p false).prepare 0 0x40000 (recordOf ((s1.withRecord p false).readBytes p.loc 64)) = some (list, s3))
      ∧ [loadJob].length < 16384 ∧ 16384 ≤ (List.replicate 16384 loadJob).length
      ∧ (served {} 0 run3 ctx0).anyVectorMemory = none
      ∧ (served {} 0 run3 { vctx with queue := [.entry queuedStore] }).anyVectorMemory ≠ none
      ∧ ChildRuns (served {} 0 run3 ctx0) 5 ∧ ¬ ChildRuns (served {} 0 run3 ctx0) 9
      ∧ (served {} 0 run3 ctx0).retainedFor 1 9 = some 4 ∧ (served {} 0 run3 ctx0).retainedFor 1 8 = none := by
  have sp (js : List Job) (h : okWith ((spawner js).spawnPlace 0x2000)
      (fun x => ((x.2.withRecord x.1 false).prepare 0 0x40000 (recordOf ((x.2.withRecord x.1 false).readBytes x.1.loc 64))).isSome) = true) :
      ∃ p s1, (spawner js).spawnPlace 0x2000 = .ok (p, s1)
        ∧ ∃ list s3, (s1.withRecord p false).prepare 0 0x40000 (recordOf ((s1.withRecord p false).readBytes p.loc 64)) = some (list, s3) := by
    obtain ⟨⟨p, s1⟩, h1, h2⟩ := ok_of h
    obtain ⟨⟨list, s3⟩, h3⟩ := Option.isSome_iff_exists.mp h2
    exact ⟨p, s1, h1, list, s3, h3⟩
  refine ⟨rfl, by decide +kernel, by decide +kernel, ⟨.misalign, error_of (by decide +kernel)⟩, ?_, ?_, by decide,
    Nat.le_of_eq List.length_replicate.symm, by decide +kernel, by decide +kernel,
    ⟨by decide, { id := 5, parent := 1 }, by decide +kernel, rfl, rfl⟩, ?_, by decide +kernel, by decide +kernel⟩
  · obtain ⟨⟨p, s1⟩, h1, h2⟩ := ok_of (e := (served {} 0 run3 ctx0).spawnPlace 0x2000)
      (p := fun x => ((x.2.withRecord x.1 false).prepare 0 0x40000 (recordOf ((x.2.withRecord x.1 false).readBytes x.1.loc 64))).isNone) (by decide +kernel)
    exact ⟨p, s1, h1, Option.isNone_iff_eq_none.mp h2⟩
  · rintro js (rfl | rfl)
    · exact sp _ (by decide +kernel)
    · exact sp _ (by decide +kernel)
  · rintro ⟨-, j, hj, hi, -⟩
    have : ∀ j ∈ (served {} 0 run3 ctx0).sched.jobs, j.id ≠ 9 := by decide +kernel
    exact this j hj hi

def bytes64 : List Byte := List.replicate 64 1

/-- The record at 0x2000 to read and to write, and one misaligned by one; a queue with 31 and with 32 records on the chip, its ring with one and two
of two, and with an older push held; a queue that is off. -/
theorem test_witness_SchedulerResults_queues :
    (∀ acc, acc ∈ [Acc.read, .write] → ∃ p s1, RecordAt (served {} 0 run3 ctx0) 1 acc p s1)
      ∧ (∃ c, (served {} 0 run3 (ctx0.wr 5 0)).request 0x2001 64 64 .read = .error c)
      ∧ ((served {} 0 run3 ctx0).queueDesc 0).w1.getLsbD 32 = true ∧ ((served {} 0 run3 ctx0).queueDesc 1).w1.getLsbD 32 = false
      ∧ fieldOf ((served {} 0 run3 ctx0).queueDesc 0).w1 0 17 = 2
      ∧ (∀ n, n ∈ [31, 32] → (({ chip := List.replicate n bytes64 } : HwQueue).ring ≠ [] ∨ 32 ≤ (List.replicate n bytes64).length ↔ n = 32))
      ∧ (∀ rs, rs ∈ [[bytes64], [bytes64, bytes64]] → ({ ring := rs } : HwQueue).ring ≠ [] ∧ (2 ≤ rs.length ↔ rs ≠ [bytes64]))
      ∧ (∃ h ∈ ({ held := [heldPush] } : HwQueue).held, h.kind = 0) ∧ ¬ ∃ h ∈ ({} : HwQueue).held, h.kind = 0
      ∧ (0x100 : W64).getLsbD 8 = true ∧ (0 : W64).getLsbD 8 = false := by
  refine ⟨fun acc h => ?_, ⟨.misalign, error_of (by decide +kernel)⟩, by decide +kernel⟩
  have : ∀ acc ∈ [Acc.read, .write], okWith ((served {} 0 run3 ctx0).request (((served {} 0 run3 ctx0).rd 1).toNat % 2 ^ 50) 64 64 acc)
      (fun _ => true) = true := by decide +kernel
  obtain ⟨⟨p, s1⟩, h1⟩ := some_of (this acc h)
  exact ⟨p, s1, h1⟩

/-- An empty queue; one with a record on the chip, or in its ring only; one with a pop held for its one record, and for the first of its two. -/
theorem test_witness_SchedulerResults_pops :
    let none_ (x : HwQueue) : Prop := QueueCount x ≤ (x.held.filter fun h => h.kind == 1).length
    let pop : HeldOp := { key := 9, kind := 1 }
    none_ {} ∧ ¬ none_ { chip := [bytes64] } ∧ (¬ none_ { ring := [bytes64] } ∧ ({ ring := [bytes64] } : HwQueue).chip = [])
      ∧ none_ { chip := [bytes64], held := [pop] }
      ∧ (¬ none_ { chip := [bytes64, bytes64], held := [pop] } ∧ ∃ h ∈ ({ held := [pop] } : HwQueue).held, h.kind = 1) := by
  decide

/-- The first, a middle and the last stage of a run; channels with room, without, with a record, with one taken; a neighbour that has finished. -/
theorem test_witness_SchedulerResults_channels :
    (∀ n, n ∈ [0, 1, 2] → (served {} n run3 ctx0).stageOf (served {} n run3 ctx0).cur = some (run3, n)
        ∧ (served {} n run3 ctx0).sched.routes.find? (fun y => y.id == run3.id) = some run3)
      ∧ Sparse.rising (served {} 1 run3 ctx0).sched.queues = true
      ∧ (st ctx0).stageOf (st ctx0).cur = none ∧ run3.stages.length ≤ 2 + 1 ∧ 1 + 1 < run3.stages.length ∧ 1 < run3.channels.length
      ∧ (∀ c : Channel, c ∈ [{ allowance := 2, records := [bytes64] }] → c.records.length + c.taken < c.allowance ∧ c.records = bytes64 :: [])
      ∧ (∀ c : Channel, c ∈ [{ allowance := 2, records := [bytes64], taken := 1 }] → ¬ c.records.length + c.taken < c.allowance ∧ 0 < c.taken)
      ∧ (run3.channels.getD 1 {}).records = [] ∧ (run3.channels.getD 1 {}).taken = 0
      ∧ (run3.statuses.getD 1 none).isSome = false ∧ (({ run3 with statuses := [some .done, none, none] } : RouteRun).statuses.getD 0 none).isSome = true := by
  decide +kernel

/-- A steward with a strand in %tslot. Tracing off and on, with a ring; selectors of a counter, of an entry and of neither; an entry of the strand's job and of another; counter events 15 and 16. -/
theorem test_witness_SchedulerResults_debug :
    ((st ctx0).coreAt 0 |>.crGet 0x484).getLsbD 6 = false
      ∧ (∃ c, c = ((st ctx0).onCore 0 fun k => { k with cr := Sparse.set 0 (Sparse.set 0 k.cr 0x484 0x44) 0x483 0x5000 }).coreAt 0
        ∧ (c.crGet 0x484).getLsbD 6 = true ∧ fieldOf (c.crGet 0x483) 12 36 * 4096 ≠ 0)
      ∧ (fieldOf (7 : W64) 12 4 = 0 ∧ fieldOf (7 : W64) 3 9 = 0)
      ∧ (fieldOf (0x10F4 : W64) 12 4 = 1 ∧ fieldOf (0x10F4 : W64) 8 4 = 0 ∧ fieldOf (0x10F4 : W64) 3 1 = 0 ∧ fieldOf (0x10F4 : W64) 0 3 ≤ 4)
      ∧ ¬ (fieldOf (0x10F5 : W64) 12 4 = 0 ∧ fieldOf (0x10F5 : W64) 3 9 = 0) ∧ ¬ fieldOf (0x10F5 : W64) 0 3 ≤ 4
      ∧ (∀ j, j ∈ [1, 2] → (((st ctx0).onCore 0 fun k => { k with stalls := [some { job := j }] }).coreAt 0).stalls.getD 0 none = some { job := j })
      ∧ ((st ctx0).coreAt 0).stalls.getD 15 none = none
      ∧ 15 < fieldOf (16 : W64) 0 8 ∧ ¬ (15 < fieldOf (15 : W64) 0 8 ∨ fieldOf (15 : W64) 13 51 ≠ 0) ∧ fieldOf (0x2000 : W64) 13 51 ≠ 0
      ∧ isSteward (serving 1 []).cur = true ∧ (serving 1 []).crStrand (serving 1 []).cur = some 0 := by
  refine ⟨by decide +kernel, ⟨_, rfl, by decide +kernel, by decide +kernel⟩, by decide, by decide, by decide, by decide, ?_, by decide +kernel⟩
  decide +kernel

/-! #### The host, boot and power -/

/-- Ring 0 holds a packet of two entries in host memory, on a locked device with templates: one of a valid stage, one of an invalid one, and one of two stages with a
word for each completion. -/
def front (ws : List Nat) : State :=
  { State.reset with
    mem := pokeBytes [] hostBase (ws.flatMap (leBytes 8))
    dev := { ({ State.reset.dev with ready := true, locked := true } : Device) with
      ring := Sparse.set 0 (Sparse.set 0 State.reset.dev.ring 1 4) 2 2
      tables := { templates := [⟨[0x10], [{ (default : JobRecord) with w2 := 1 }]⟩, ⟨[0x10], [default]⟩, ⟨[0x2000000000041, 32], [default, default]⟩] } } }

/-- A packet of each kind at the head of the ring served, with stages that are valid and that are not, and data beside the signal word and on it. -/
theorem test_witness_HostSteps_packets :
    (∀ ws, ws ∈ [[0x401, 0, 9, 0, 0], [0x401, 1, 9, 0, 0], [0x401, 2, 9, 0, 0]] → (front ws).servedRing = some 0 ∧ (front ws).packet 0 = .route)
      ∧ (∀ h, h = headerWord (⟨[0x2000000000041, 32], [default, default]⟩ : Template) → fieldOf (h 0) 0 4 = 1 ∧ fieldOf (h 0) 4 3 = 4
        ∧ fieldOf (h 0) 17 47 = 0x100000000 ∧ fieldOf (h 1) 0 6 = 32)
      ∧ (∃ x, (front [0x401, 0, 9, 0, 0]).prepareAll 0 [{ (default : JobRecord) with w2 := 1, w1 := 0, w3 := 9 }] = .ok x)
      ∧ (front [0x401, 1, 9, 0, 0]).prepareAll 0 [{ (default : JobRecord) with w1 := 0, w3 := 9 }] = .error 0
      ∧ (front [0x802, 0, 0, 1, 0, 0, 0, 0, 0]).servedRing = some 0 ∧ (front [0x802, 0, 0, 1, 0, 0, 0, 0, 0]).packet 0 = .job
      ∧ (front [0x203, 0x100000, 7]).servedRing = some 0 ∧ (front [0x203, 0x100000, 7]).packet 0 = .write
      ∧ (∀ sg, sg ∈ [0x200000, 0x100000] → (front [0x404, 0x100000, sg, 5, 7]).servedRing = some 0 ∧ (front [0x404, 0x100000, sg, 5, 7]).packet 0 = .signal
        ∧ (front [0x404, 0x100000, sg, 5, 7]).packetWords 0 - 3 = 1)
      ∧ (front [0x105, 3]).servedRing = some 0 ∧ (front [0x105, 3]).packet 0 = .abandon
      ∧ (front [0x109, 3]).servedRing = some 0 ∧ (front [0x109, 3]).packet 0 = .discard ∧ (front [0x109, 3]).discardWord 0 = false := by
  refine ⟨by decide +kernel, fun h e => e ▸ by decide, some_of (by decide +kernel), ?_, by decide +kernel⟩
  have : (match (front [0x401, 1, 9, 0, 0]).prepareAll 0 [{ (default : JobRecord) with w1 := 0, w3 := 9 }] with
    | .ok _ => none | .error i => some i) = some 0 := by decide +kernel
  revert this
  cases (front [0x401, 1, 9, 0, 0]).prepareAll 0 [{ (default : JobRecord) with w1 := 0, w3 := 9 }] with
  | ok a => exact fun h => nomatch h
  | error i => exact fun h => by rw [Option.some.inj h]

/-- Registers, channels with and without a fault, a lock that is not taken and one that is, writes at the end of memory, and a fenced core. -/
theorem test_witness_HostSteps_registers :
    (∀ p, p ∈ [RegPort.bar 0x28 8, .bar 0x2C 8, .bar 0x28 4, .barRead 0 8, .image 2] → ({ State.reset with input := { port := p } } : State).input.port = p)
      ∧ ¬ ((4 : Nat) = 8 ∧ 0x28 % 8 = 0) ∧ ¬ ((8 : Nat) = 8 ∧ 0x2C % 8 = 0) ∧ ({ recov := true } : Device).recov = true ∧ State.reset.dev.recov = false
      ∧ ({ State.reset with input := { port := .cr 3 0x800 } } : State).input.port = .cr 3 0x800
      ∧ ((hauled [] ctx0).chanAt 0 0).fault = false ∧ ((hauled [] ctx0).chanAt 0 1).fault = true
      ∧ ((miles true 2).coreAt 0).codeFault = true
      ∧ State.reset.dev.locked = false ∧ State.reset.input.value.getLsbD 0 = false
      ∧ ({ State.reset with input := { value := 1 } } : State).input.value.getLsbD 0 = true ∧ (front []).dev.locked = true
      ∧ (∀ i, i ∈ [({ addr := 0x5FFFFFFFF8, bytes := List.replicate 8 1 } : Input)] → i.addr.toNat + i.bytes.length ≤ 0x6000000000)
      ∧ (((st ctx0).onCore 0 fun k => { k with fenced := true }).coreAt 0).fenced = true ∧ ((st ctx0).coreAt 0).fenced = false
      ∧ (∃ x ∈ ((hauled [{ state := .inFlight, spans := [(twinWindow, 64)] }] ctx0).coreAt 0).xfers, x.state = .inFlight ∧ ∃ r ∈ x.spans, inTwin r.1 = true)
      ∧ (∃ q ∈ ({ flight := [{ cls := .req, src := 3, dst := twinStop }] } : Mesh).flight, q.src = 3 ∧ q.dst = twinStop ∨ q.src = twinStop ∧ q.dst = 3)
      ∧ (∀ l, l ∈ [({ reg := 5, at_ := 9, ones := some (-1) } : Late)] → l.reg ≠ 0 ∧ (st ctx0).now < l.at_ ∧ l.ones = some (-1) ∧ ctx0.isCoord l.reg = false) := by
  exact ⟨by decide, by decide, by decide, rfl, rfl, rfl, by decide +kernel⟩

/-- A device that is reset with images whose digests hold, the first signed with a key and the last held against a version. -/
def booting (key : BitVec 456) (version : Nat) : State :=
  let f : Firmware := { digest := shake256 [], version := 1 }
  { State.reset with
    dev := { State.reset.dev with rollback := 1 }
    input := { boot := { images := [{ f with signer := key }, f, { f with version := 1 - version }] } } }

/-- Boot chains that fail first, that fail last and that succeed; 99 and 100 measurements above, 9 and 10 within; a clock switch and none. -/
theorem test_witness_BootAndPower :
    BootPasses (booting 0 0) ∧ BootStops (booting 1 0) 0 ∧ BootStops (booting 0 1) 2
      ∧ (∀ d, d ∈ [({ overruns := 99 } : Device)] → d.overruns < 100) ∧ (∀ d, d ∈ [({ overruns := 100 } : Device)] → 100 ≤ d.overruns)
      ∧ (∀ d, d ∈ [({ within := 10, tier := 1 } : Device)] → 10 ≤ d.within ∧ d.tier ≠ 0 ∧ d.thermal = false ∧ d.switching = none)
      ∧ (∀ d, d ∈ [({ within := 9, tier := 1 } : Device), { within := 10 }, { within := 10, tier := 1, thermal := true }, { within := 10, tier := 1, switching := some 2 }] →
          ¬ (10 ≤ d.within ∧ d.tier ≠ 0 ∧ d.thermal = false ∧ d.switching = none)) := by
  have fault (k : BitVec 456) (v i : Nat) (hi : i < 3) : bootFault (booting k v) i
      = if i = 0 ∧ k ≠ 0 then 1 else if i = 2 ∧ 1 - v < 1 then 3 else 0 := by
    have : i = 0 ∨ i = 1 ∨ i = 2 := by omega
    rcases this with rfl | rfl | rfl <;>
      simp [bootFault, bootImage, bootKey, booting, State.reset]
  refine ⟨fun i hi => ?_, ⟨by decide, ?_, fun i hi => absurd hi (Nat.not_lt_zero i)⟩, ⟨by decide, ?_, fun i hi => ?_⟩, by decide⟩
  · rw [fault _ _ _ hi]
    simp
  · rw [fault _ _ _ (by decide)]
    decide
  · rw [fault _ _ _ (by decide)]
    decide
  · rw [fault _ _ _ (by omega), if_neg (by simp), if_neg (by omega)]

/-! #### The steps of jobs and of waiting strands -/

/-- One job, at 1 ms and cycle 1000, under a queue with watchdog limits of 1 µs; strand 0 as given. -/
def at1ms (j : Job) (c : Ctx) : State :=
  let s := stj c j
  { s with dev := { s.dev with time := 1000000, cycle := 1000, tables := { jobQueues := [{ run := 1, kill := 1, fence := 1 }] } }
           input := { job := 1 } }

/-- Not known, asked to stop (with and without the watchdog), past its deadline while queued, past its grace, in a route whose next stage runs, past
each watchdog limit and one tick before, trapped, complete, with a phase complete and not. -/
theorem test_witness_JobSteps_jobs :
    (at1ms loadJob ctx0).job? 2 = none ∧ (at1ms loadJob ctx0).job? 1 = some loadJob
      ∧ (∀ j, j ∈ [{ loadJob with preempt := true }, { loadJob with preempt := true, runAsked := some 0 }] →
          (at1ms j { ctx0 with hold := .stopped }).stopsLate j = false ∧ (at1ms j { ctx0 with hold := .stopped }).ackReady j = true)
      ∧ (at1ms loadJob ctx0).stopsLate loadJob = false ∧ (at1ms loadJob ctx0).ackReady loadJob = false
      ∧ (∀ j, j ∈ [{ loadJob with state := .queued, record := { (default : JobRecord) with w3 := 1000000 } }] →
          (at1ms j ctx0).deadlineDue j = true ∧ j.state = .queued ∧ (at1ms j ctx0).descendants j = [] ∧ j.stage = none)
      ∧ (at1ms loadJob ctx0).graceDue loadJob = false
      ∧ (∀ j, j ∈ [{ loadJob with graceEnd := some 1000000 }] → (at1ms j ctx0).graceDue j = true ∧ (at1ms j ctx0).downstreamRuns j = false)
      ∧ (∀ j, j ∈ [{ loadJob with ranFor := 1000 }] → (at1ms j ctx0).runDue j = true) ∧ (at1ms { loadJob with ranFor := 999 } ctx0).runDue { loadJob with ranFor := 999 } = false
      ∧ (∀ j, j ∈ [{ loadJob with runAsked := some 999000 }] → (at1ms j ctx0).killDue j = true)
      ∧ (at1ms loadJob ctx0).killDue { loadJob with runAsked := some 999001 } = false
      ∧ (∀ j, j ∈ [{ loadJob with state := .cutting, status := .killed, cutAt := some 999000 }] → (at1ms j ctx0).fenceDue j = true)
      ∧ (at1ms loadJob ctx0).fenceDue { loadJob with state := .cutting, status := .killed, cutAt := some 999001 } = false
      ∧ (loadJob.state = .running ∧ ∃ n ∈ loadJob.live, ((at1ms loadJob { ctx0 with hold := .trapped }).ctxAt n).hold = .trapped)
      ∧ (∀ n ∈ loadJob.live, ((at1ms loadJob ctx0).ctxAt n).hold ≠ .trapped)
      ∧ (∀ j, j ∈ [{ loadJob with state := .completing, live := [] }] → (at1ms j ctx0).completionDue j = true)
      ∧ (∀ j, j ∈ [0, 1, 5].map (fun p => ({ loadJob with record := { (default : JobRecord) with w3 := 1000000, w4 := p } } : Job)) →
          (at1ms j ctx0).deadlineDue j = true ∧ j.state = .running ∧ (at1ms j ctx0).descendants j = [] ∧ j.stage = none
            ∧ ((policyOf j.record = 0 ∨ graceOf j.record = 0) ↔ j.record.w4 ≠ 5))
      ∧ (at1ms loadJob ctx0).completionDue loadJob = false ∧ (at1ms (crew 5 [0]) ctx0).releaseDue (crew 5 [0]) = true
      ∧ (at1ms loadJob ctx0).releaseDue (crew 5 []) = false ∧ (at1ms loadJob ctx0).releaseDue { crew 5 [0] with arrivedAt := [(0, 995)] } = false := by
  decide +kernel

/-- A queue whose ring holds a record, held operations that time out at their cycle and one before, wakes with a value and without, parks with an
equal and another value, crossings, traps and notices, and stops at a strip boundary. -/
theorem test_witness_JobSteps_waits :
    (State.reset.sched.choosing = false ∧ ({ choosing := true } : Sched).choosing = true)
      ∧ (st { ctx0 with hold := .placed }).ctxAt 0 = { ctx0 with hold := .placed } ∧ isSteward 0 = false
      ∧ (served { ring := [bytes64] } 0 run3 ctx0).refillDue 0 = true ∧ (served {} 0 run3 ctx0).refillDue 0 = false
      ∧ (∀ s, s ∈ [({ at1ms loadJob { ctx0.crSet 0x031 100 with hold := .queue, since := 900 } with
            sched := { jobs := [loadJob], held := [{ key := 0, kind := 1, d := 3 }] } } : State)] →
          s.heldBy 0 = some { key := 0, kind := 1, d := 3 } ∧ s.holdExpired 0 = true ∧ s.serveOne = none)
      ∧ (at1ms loadJob { ctx0.crSet 0x031 100 with hold := .queue, since := 901 }).holdExpired 0 = false
      ∧ ((st { ctx0 with hold := .waita }).ctxAt 0).hold = .waita ∧ ((st ctx0).ctxAt 0).hold ≠ .waita
      ∧ (st ctx0).parkOf 0 = none ∧ State.reset.notices = []
      ∧ (∀ p, p ∈ [({ key := 0, loc := 0x2000, cmp := 0, d := 3 } : Park)] → ({ st ctx0 with parks := [p] } : State).parkOf 0 = some p
          ∧ (st ctx0).parkValue p = p.cmp ∧ ((st ctx0).performNat 0x2000 8 7).parkValue p ≠ p.cmp)
      ∧ (at1ms loadJob { ctx0.crSet 0x031 100 with hold := .waita, since := 900 }).parkExpired 0 = true
      ∧ (at1ms loadJob { ctx0.crSet 0x031 100 with hold := .waita, since := 901 }).parkExpired 0 = false
      ∧ (at1ms loadJob { ctx0.crSet 0x032 100 with hold := .cross, since := 900 }).crossExpired 0 = true
      ∧ (at1ms loadJob { ctx0.crSet 0x032 100 with hold := .cross, since := 901 }).crossExpired 0 = false
      ∧ ((st ctx0).onCore 0 fun k => { k with traps := [{}] }).deliverable 0 = true ∧ (st ctx0).deliverable 0 = false
      ∧ (st { ctx0 with hold := .waita, notices := [.deadline] }).noticed 0 = some 0 ∧ (st ctx0).noticed 0 = none
      ∧ (st ctx0).stripDue 0 = none := by
  decide +kernel

/-- A pop held past its time for which a record stands in its queue. -/
theorem test_witness_JobSteps_served :
    let s0 := served { chip := [bytes64] } 0 run3 { ctx0.crSet 0x031 100 with hold := .queue, since := 900 }
    let s : State := { s0 with
      sched := { s0.sched with queues := [(0, { chip := [bytes64], held := [{ key := 0, kind := 1, d := 3, loc := 0x3000 }] })] }
      dev := { s0.dev with cycle := 1000 } }
    (s.heldBy 0).isSome = true ∧ s.holdExpired 0 = true ∧ (s.serveOne.any fun t => (t.heldBy 0).isNone) = true := by
  decide +kernel

/-- The END at which a strip stops: %bpctl asks for strand 0. -/
theorem test_witness_JobSteps_strip :
    (((mapped ctx0).performNat 0x1000 4 0x04).onCore 0 fun k => { k with cr := Sparse.set 0 k.cr 0x482 1 }).stripDue 0 = some 0 := by
  decide +kernel

/-- A job whose strands have all ended, with a completion address. -/
def ender (w : Nat) : Job :=
  { loadJob with state := .completing, live := [], root := 0x40000, record := { (default : JobRecord) with w5 := BitVec.ofNat 64 w } }

/-- A job that completes DONE, with a completion word and without, and one that was killed; a crossing of one core, and of two that share no line. -/
theorem test_witness_JobSteps_ends :
    (∀ w, w ∈ [0, 0x40000000] → IsEndCode (mapped ctx0) (ender w) 1 ∧ (ender w).stage = none ∧ policyOf (ender w).record ≠ 2
        ∧ (caddrOf (ender w).record = 0 ↔ w = 0)
        ∧ ∃ s1, (mapped ctx0).engineWrite schedCore (ender w).root 0x2000 (leBytes 8 (((ender w).id * 2 ^ 32 + 1) % 2 ^ 64)) = .ok s1)
      ∧ IsEndCode State.reset { state := .cutting, status := .killed } 5
      ∧ IsReleaseCycle { crew 5 [0] with places := [0], arrivedAt := [(0, 990)] } 996
      ∧ IsReleaseCycle { crew 5 [0] with places := [0, 272] } 12 := by
  refine ⟨fun w hw => ?_, ⟨nofun, fun _ => rfl⟩, ⟨990, ?_⟩, ⟨0, ?_⟩⟩
  · have h : ∀ w ∈ [0, 0x40000000], policyOf (ender w).record ≠ 2 ∧ (caddrOf (ender w).record = 0 ↔ w = 0)
        ∧ okWith ((mapped ctx0).engineWrite schedCore (ender w).root 0x2000 (leBytes 8 (((ender w).id * 2 ^ 32 + 1) % 2 ^ 64))) (fun _ => true) = true := by
      decide +kernel
    obtain ⟨h1, h2, h3⟩ := h w hw
    refine ⟨⟨fun _ => ⟨?_, fun _ => rfl⟩, fun h => absurd rfl h⟩, rfl, h1, h2, some_of h3⟩
    rintro (h | ⟨p, hp, _⟩)
    · cases h
    · cases hp
  · decide
  · decide

/-- Operations held with nothing to complete, and a pop with a record; a stop at a strip boundary with a ring and without; notices of a WAITA with a value
and without. -/
theorem test_witness_JobSteps_holds :
    NoneCanComplete State.reset ∧ NoneCanComplete (served { held := [{ key := 0, kind := 1 }] } 0 run3 ctx0)
      ∧ ¬ NoneCanComplete (served { chip := [bytes64], held := [{ key := 0, kind := 1 }] } 0 run3 ctx0)
      ∧ (∀ v, v ∈ [none, some (3, (7 : W64))] → ({ st ctx0 with notices := [(0, v)] } : State).notices = (0, v) :: [])
      ∧ (let s := ({ served { ring := [bytes64] } 0 run3 ctx0 with mem := pokeBytes [] (ringSlot { w0 := 0x100000, w1 := 2 ^ 32 + 2 } 0) bytes64 } : State)
         s.refillDue 0 = true ∧ (s.queueAt 0).ring = bytes64 :: [] ∧ s.readBytes (ringSlot (s.queueDesc 0) (s.queueAt 0).head) 64 = bytes64)
      ∧ ((st ctx0).coreAt 0).traps = [] ∧ ((serving 1 [{}]).coreAt 0).traps = {} :: [] ∧ ((serving 1 [{}]).coreAt 0).servicing = true := by
  refine ⟨⟨nofun, nofun, nofun⟩, ⟨nofun, nofun, fun q hq => ?_⟩, fun h => ?_, by decide +kernel⟩
  · obtain rfl : q = 0 := by simpa [served, mapped, st] using hq
    exact ⟨fun _ => by decide +kernel, fun ⟨h, hm, hk⟩ => by
      rw [show ((served { held := [{ key := 0, kind := 1 }] } 0 run3 ctx0).queueAt 0).held = [{ key := 0, kind := 1 }] by decide +kernel,
        List.mem_singleton] at hm
      subst hm
      cases hk⟩
  · have := (h.2.2 0 (by decide +kernel)).1 ⟨{ key := 0, kind := 1 }, by decide +kernel, rfl⟩
    revert this
    decide +kernel

/-- A wayfarer that asks for its own core's tract, with n counted there, and its write. -/
def asking (n : Nat) (w : CoordWrite) (h : Hold) : State :=
  let s := rover [] { ctx0.crSet 0x3C5 100 with coordWrite := some w, hold := h, since := 900 }
  { s with
    dev := { s.dev with cycle := 1000 }
    way := { s.way with counts := (0, (0, 1)) :: (List.range n).map fun i => (0, (i + 100, 1)), requests := [{ key := 0, x := 2, y := 2 }], answers := [0] } }

/-- A strand of another core, which counts nowhere and has asked for core 0's tract, with n counted there and every tract above full or not. -/
def visitor (n : Nat) (full : Bool) : State :=
  let s : State := { State.reset with ctx := [(35, some { ctx0 with here := 35, hold := .coord, coordWrite := some {} })] }
  { s with way := { s.way with
      counts := ((List.range n).map fun i => (0, (i + 100, 1))) ++ if full then (List.range 12).map fun i => (16, (i + 200, 1)) else []
      requests := [{ key := 35, x := 2, y := 2 }] } }

/-- A map that comes with the tables, allowed or not; a tract that a wayfarer has left, and a request that waits for it, or for one two rows above. -/
theorem test_witness_JobSteps_tracts :
    (MapAllowed State.reset.way.map.xb State.reset.way.map.yb ∧ ¬ MapAllowed [] [] ∧ State.reset.way.counts = []
        ∧ ({} : OperatorTables).cells = none ∧ ({ cells := some ([], []) } : OperatorTables).cells = some ([], []) ∧ (asking 0 {} .coord).way.counts ≠ [])
      ∧ (∀ t, t ∈ [0, 16, 32] → let s : State := { visitor 0 false with way := { (visitor 0 false).way with left := [t], waiting := [{ key := 35, x := 2, y := 2 }] } }
          s.input.index ≠ 1 ∧ s.way.left = t :: [] ∧ ((s.wantedTract { key := 35, x := 2, y := 2 } = t ∨ s.wantedTract { key := 35, x := 2, y := 2 } + 16 = t) ↔ t ≠ 32))
      ∧ Admissible (visitor 11 false) { key := 35, x := 2, y := 2 } ∧ Admissible (asking 0 {} .coord) { key := 0, x := 2, y := 2 }
      ∧ (visitor 11 false).openSlots 0 ≠ []
      ∧ (∀ b, b ∈ [true, false] → (visitor 12 b).countsIn ((visitor 12 b).who 35) ≠ some 0 ∧ (visitor 12 b).nextRequest = some { key := 35, x := 2, y := 2 }
          ∧ (visitor 12 b).wantedTract { key := 35, x := 2, y := 2 } = 0 ∧ fieldOf (((visitor 12 b).coreAt 0).crGet 0x3C2) 0 4 ≤ (visitor 12 b).tractCount 0
          ∧ (fieldOf (((visitor 12 b).coreAt 16).crGet 0x3C2) 0 4 ≤ (visitor 12 b).tractCount 16 ↔ b = true)) := by
  refine ⟨⟨?_, fun h => by exact absurd h.1 (by decide), by decide, by decide, by decide, by decide +kernel⟩, by decide +kernel, ?_, ?_, by decide +kernel,
    by decide +kernel⟩
  · unfold MapAllowed BoundsAllowed
    decide +kernel
  · unfold Admissible
    decide +kernel
  · unfold Admissible
    decide +kernel

theorem test_witness_JobSteps_way :
    (asking 0 {} .coord).way.left = [] ∧ State.reset.nextRequest = none
      ∧ (∀ r, r ∈ [({ key := 0, x := 2, y := 2 } : TractReq)] → (asking 10 {} .coord).nextRequest = some r)
      ∧ 0 ∈ (asking 0 {} .coord).way.answers ∧ 0 ∉ State.reset.way.answers
      ∧ (asking 0 {} .coord).countsIn ((asking 0 {} .coord).who 0) = some ((asking 0 {} .coord).coreOf 0)
      ∧ (∀ w, w ∈ [({ admitted := true } : CoordWrite), {}] → ((asking 0 w .coord).ctxAt 0).coordWrite = some w)
      ∧ ((rover [] { ctx0 with hold := .migrate 5 }).ctxAt 0).hold = .migrate 5 ∧ ((rover [] { ctx0 with hold := .migrate 5 }).ctxAt 0).coordWrite = none
      ∧ (∀ s, s ∈ [({ rover [] { ctx0 with handover := some 0 } with way := { State.reset.way with counts := [(0, (0, 1))], slots := [(3, (0, 1))] } } : State)] →
          s.handOverReady 0 = true ∧ s.wayPlace 0 = some 3)
      ∧ (rover [] ctx0).handOverReady 0 = false
      ∧ (asking 0 { answered := true } .coord).tractFullDue 0 = true ∧ (asking 0 {} .coord).tractFullDue 0 = false
      ∧ 3 ∈ ({ updates := [3] } : WayUnit).updates ∧ 3 ∉ State.reset.way.updates
      ∧ (∀ k, k ∈ [MsgKind.state, .image] → ({ rover [] { ctx0 with hold := .migrate 20 } with
            mesh := { flight := [{ cls := .msg, kind := k, key := some 0, src := 0, dst := 1 }] } } : State).arrives 0 20 = (k == .state))
      ∧ (∀ h, h ∈ [Hold.ready, .migrate 20] → (({ rover [] { ctx0 with hold := h } with
            mesh := { flight := [{ cls := .msg, kind := .state, key := some 0, src := 0, dst := 1 }] } } : State).strayState 0).isSome = (h == .ready))
      ∧ (rover [] ctx0).record? ((rover [] ctx0).coreOf 0) 0 ≠ none
      ∧ (∀ b, b ∈ [true, false] → ({ State.reset with way := { State.reset.way with halo := [{ dst := 3, src := 3, remove := b }] } } : State).haloNext 3
          = some { dst := 3, src := 3, remove := b })
      ∧ State.reset.haloNext 3 = none := by
  decide +kernel

/-! #### The steps of the engines, the ports and the mesh -/

/-- A transfer of 32 bytes between 0x2000 and tile 0, which is in a state. -/
def moving (t : TileState) (x : Xfer) (fault : Bool) : State :=
  let s := eng t .ready 0 ctx0
  s.onCore 0 fun k => { k with xfers := [x], chans := [(0, { fault := fault })] }

def fill32 (st : XferState) (code : Nat) : Xfer :=
  { id := 0, mem := 0x2000, len := 32, job := 1, root := 0x40000, state := st, code := code }

/-- A fill that starts and one that does not, a drain that starts, a transfer in flight, and a fault on a clean channel and on
one with a fault. -/
theorem test_witness_EngineSteps_haul :
    (∀ x, x ∈ [fill32 .waiting 0, { fill32 .waiting 0 with drain := true }] → (moving .ready x false).xferStarts 0 x = true ∧ x.len ≠ 0
        ∧ ((moving .ready x false).coreAt 0).xfers.find? (fun y => y.chan == 0 && y.id == 0) = some x)
      ∧ (moving .filling (fill32 .waiting 0) false).xferStarts 0 (fill32 .waiting 0) = false
      ∧ ((st ctx0).coreAt 0).xfers.find? (fun y => y.chan == 0 && y.id == 0) = none
      ∧ (∀ d, d ∈ [false, true] → ∃ tl, (moving .ready { fill32 .waiting 0 with drain := d } false).xferTile 0 { fill32 .waiting 0 with drain := d } = some tl
          ∧ tileStart (some tl) { fill32 .waiting 0 with drain := d } = if d then .drain else .fill)
      ∧ (fill32 .inFlight 0).state = .inFlight ∧ (fill32 .inFlight 0).code = 0 ∧ (fill32 .inFlight 2).code ≠ 0
      ∧ (∀ b, b ∈ [false, true] → ((moving .ready (fill32 .inFlight 2) b).chanAt 0 0).fault = b) := by
  refine ⟨by decide +kernel, by decide +kernel, by decide +kernel, fun d h => ⟨{ tileIn .ready with len := 32768 }, ?_⟩, rfl, rfl, by decide,
    by decide +kernel⟩
  have : ∀ d ∈ [false, true], (moving .ready { fill32 .waiting 0 with drain := d } false).xferTile 0 { fill32 .waiting 0 with drain := d }
        = some { tileIn .ready with len := 32768 }
        ∧ tileStart (some { tileIn .ready with len := 32768 }) { fill32 .waiting 0 with drain := d } = if d then .drain else .fill := by decide +kernel
  exact this d h

/-- A transfer in flight that an error strikes and one that none strikes; a command that an error strikes and one that
none strikes, of a strand of a job; a request that an error strikes, and one whose soft buffer does not translate. -/
theorem test_witness_EngineSteps_struck :
    (∀ b, b ∈ [true, false] → ({ moving .filling (fill32 .inFlight 0) false with input := { struck := b } } : State).xferStruck (fill32 .inFlight 0) = b
        ∧ ({ anv .ready (some 0) [] [{ op := .lda, started := true }] vctx with input := { struck := b } } : State).anvilStruck { op := .lda, started := true } = b
        ∧ (((anv .ready (some 0) [] [{ started := true }] vctx).job? (vctx.job)).isSome = true)
        ∧ ({ blockAt .ready .ready 1 with input := { struck := b } } : State).input.struck = b
        ∧ ({ blockAt .ready .ready 1 with input := { struck := b } } : State).codeFault { blockReq 1 with started := true } = none)
      ∧ (match (blockAt .ready .ready 1).codeBuffer { blockReq 1 with words := [2 * 2 ^ 32, 0, 0, 0, 0x9000000000, 0, 0, 0] } with
          | .ok _ => false
          | .error _ => true) = true := by
  decide +kernel

/-- A lease with a winner, one that has been idle for 256 cycles and one a cycle less; commands to start and to complete; commands of the encoder. -/
theorem test_witness_EngineSteps_commands :
    ((anv .ready none [0] [] vctx).clusterAt 0).holder = none ∧ (anv .ready none [0] [] vctx).leaseWinner 0 = some 0
      ∧ ((anv .ready (some 0) [] [] vctx).clusterAt 0).holder ≠ none ∧ ((anv .ready none [] [] vctx).clusterAt 0).requests = []
      ∧ (∀ n, n ∈ [0, 1] → ({ (anv .ready (some 0) [7] [] vctx).onCluster 0 fun y => { y with idleSince := n } with
            dev := { State.reset.dev with cycle := 256 } } : State).leaseIdle 0 = (n == 0))
      ∧ (∀ c ∈ ((anv .ready (some 0) [7] [] vctx).coreAt 0).anvil, c.started = true)
      ∧ (∃ c ∈ ((anv .ready (some 0) [7] [{}] vctx).coreAt 0).anvil, c.started = false)
      ∧ (anv .ready (some 0) [] [{}] vctx).startable 0 = some {} ∧ (anv .ready (some 0) [] [] vctx).startable 0 = none
      ∧ (∀ e, e ∈ [5, 7] → ((anv .ready (some 0) [] [{ started := true, endsAt := 7 }, { started := true, op := .lda, endsAt := e }] vctx).coreAt 0).finishing
          = some (if e = 5 then { started := true, op := .lda, endsAt := 5 } else { started := true, endsAt := 7 }))
      ∧ (({ op := .mma } : AnvilCmd).multiplies = true ∧ pairRow ({ op := .mma } : AnvilCmd).fa 0 ≠ none ∧ ({} : AnvilCmd).multiplies = false)
      ∧ (∀ b, b ∈ [true, false] → (({ tenc := [{ started := b }] } : Cluster).tenc = { started := b } :: []))
      ∧ ((st ctx0).clusterAt 0).tenc = [] := by
  decide +kernel

/-- A tile of 64 bytes that a fill of all of it has come to, and of the half of it; a drain of one run. -/
theorem test_witness_EngineSteps_transfers :
    (∀ n, n ∈ [32, 64] → let tl : Tile := { tileIn .filling with len := 64 }
        (tl.len ≤ min (tl.arr + n) (2 ^ 20 - 1) ↔ n = 64) ∧ tl.state = .filling
          ∧ ((mapped ctx0).readRuns ({ fill32 .inFlight 0 with len := n, spans := [(0x2000, n)] } : Xfer).spans).length = n)
      ∧ ({ fill32 .inFlight 0 with drain := true, spans := [(0x2000, 32)] } : Xfer).spans = [(0x2000, 32)]
      ∧ (fill32 .inFlight 0).severed = false ∧ storeBytes 12 = 4 ∧ ({ op := .ldb, fmt := 13 } : AnvilCmd).fmt = 13 := by
  decide +kernel

/-- Requests at an engine that fault on their result and that do not, started and not. -/
theorem test_witness_EngineSteps_coding :
    (∀ r, r ∈ [{ blockReq 1 with started := true }, blockReq 1] → (blockAt .ready .ready 1).codeFault r = none
        ∧ Sparse.get [] ({ blockAt .ready .ready 1 with coding := [(3, [r])] } : State).coding 3 = r :: [])
      ∧ (∃ c, (blockAt .ready .ready 1).codeFault { blockReq 1 with words := [0, 0, 0, 1, 0, 0x9000000000, 0, 0], started := true } = some c)
      ∧ Sparse.get [] State.reset.coding 3 = [] := by
  refine ⟨by decide +kernel, Option.isSome_iff_exists.mp (by decide +kernel), by decide +kernel⟩

/-- A window that arrives, opens at its START and not before, closes at the tick of its END, expires 1 ms later; a send that launches and one that
finishes; and no item of the handle. -/
theorem test_witness_EngineSteps_fronthaul :
    ((st ctx0).coreAt 0).fh.find? (fun f => f.handle == 0) = none
      ∧ (∀ f, f ∈ [({ core := 0 } : FhItem)] → ((recordAt false 1 .ready).coreAt 0).fh.find? (fun f => f.handle == 0) = some f ∧ f.core = 0
          ∧ f.travels = true ∧ f.isSend = false)
      ∧ (∀ t, t ∈ [999999, 1000000] → let f : FhItem := { isSend := true, words := [0, 0, BitVec.ofNat 64 t, 0] }
          f.travels = true ∧ f.start ≠ 0 ∧ (f.start < (at1ms loadJob ctx0).dev.time.toNat ↔ t = 999999))
      ∧ (∀ n, n ∈ [0, 1] → let f : FhItem := { words := [2 ^ 21, BitVec.ofNat 64 (n * 2 ^ 32), 0, 0], slots := [0] }
          (f.slots.length * f.fields.z < f.fields.bytes false ↔ False) ∧ f.fields.nsym = 1)
      ∧ ({ arrived := true } : FhItem).travels = false
      ∧ (∀ f, f ∈ [({ arrived := true, words := [0, 0, 1000000, 1000001] } : FhItem)] → (at1ms loadJob ctx0).opensNow f = true)
      ∧ (at1ms loadJob ctx0).opensNow { arrived := true, words := [0, 0, 1000001, 1000002] } = false
      ∧ (at1ms loadJob ctx0).closesNow { words := [0, 0, 0, 1000000] } = true ∧ (at1ms loadJob ctx0).closesNow { words := [0, 0, 0, 1000001] } = false
      ∧ (at1ms loadJob ctx0).expiresNow { state := .closed } = true ∧ (at1ms loadJob ctx0).expiresNow { state := .closed, closedAt := 1 } = false
      ∧ (at1ms loadJob ctx0).launchesNow { isSend := true, arrived := true, state := .queued, words := [0, 0, 1000000, 0] } = true
      ∧ (at1ms loadJob ctx0).launchesNow { isSend := true, arrived := true, state := .queued, words := [0, 0, 1000001, 0] } = false
      ∧ ({ isSend := true, state := .sending } : FhItem).leaving = true ∧ ({ isSend := true, state := .sent } : FhItem).leaving = false := by
  decide +kernel

/-- A window on PRB 0 of symbol 0 from 10 ns to 20 ns, as it stands in core 0. -/
def fhWindow (f : FhItem → FhItem) : FhItem := f { arrived := true, state := .opened, words := [2 ^ 21, 2 ^ 32, 10, 20] }

/-- A section that no window covers, one that a window covers, armed before another one, one of another width, and one that closed 1 ms before. -/
theorem test_witness_EngineSteps_windows :
    let f := fhFields (2 ^ 21) (2 ^ 32)
    let s (ws : List FhItem) : State := (st ctx0).onCore 0 fun k => { k with fh := ws }
    (∀ p ∈ (st ctx0).core, ∀ w ∈ p.2.fh, ¬ Covers w f f.prb0 15)
      ∧ Covers (fhWindow id) f f.prb0 15 ∧ TakenBy (s [fhWindow id]) f f.prb0 15 (fhWindow id)
      ∧ (TakenBy (s [fhWindow id, fhWindow fun w => { w with order := 1 }]) f f.prb0 15 (fhWindow id))
      ∧ Covers (fhWindow fun w => { w with state := .closed, closedAt := 5 }) f 0 1000004
      ∧ ¬ Covers (fhWindow fun w => { w with state := .closed, closedAt := 5 }) f 0 1000005
      ∧ (fhFields (2 ^ 21 + 2 ^ 14) 0).width ≠ f.width
      ∧ 9 < (fhWindow id).start ∧ (fhWindow id).start ≤ 10 ∧ 19 < (fhWindow id).stop ∧ (fhWindow id).stop ≤ 20
      ∧ 0 ∉ (fhWindow id).slots ∧ 0 ∈ (fhWindow fun w => { w with slots := [0] }).slots := by
  refine ⟨nofun, by unfold Covers; decide, ⟨⟨_, List.mem_singleton.mpr rfl, List.mem_singleton.mpr rfl⟩, by unfold Covers; decide, ?_⟩,
    ⟨⟨_, List.mem_singleton.mpr rfl, List.mem_cons_self⟩, by unfold Covers; decide, ?_⟩, by unfold Covers; decide, by unfold Covers; decide, by decide⟩
  · intro p hp v hv _ hne
    rw [List.mem_singleton.mp hp] at hv
    exact absurd (List.mem_singleton.mp hv) hne
  · intro p hp v hv _ hne
    rw [List.mem_singleton.mp hp] at hv
    rcases List.mem_cons.mp hv with h | h
    · exact absurd h hne
    · rw [List.mem_singleton.mp h]
      decide

/-- A schedule; a request for a line that the L2 lacks, one for on-chip memory, none; a response, and one that names several readers; a window, with its read asked and returned; a pair
with and without a message. -/
theorem test_witness_EngineSteps_mesh :
    (∀ s, s ∈ [({ State.reset with schedule := [(.rsp, {})] } : State)] → s.schedule = (.rsp, {}) :: [])
      ∧ State.reset.oldestOf .req = none ∧ State.reset.oldestOf .rsp = none
      ∧ (∀ x, x ∈ [({ cls := .req, dst := 256, loc := 0x1000 } : Message), { cls := .req, dst := 3, loc := 0x1000 }] →
          ({ State.reset with mesh := { flight := [x] } } : State).oldestOf .req = some x
            ∧ x.kind = .plain ∧ decide (isSlice x.dst = true ∧ inLpddr x.loc = true ∧ x.wr = false ∧ x.loc / 256 ∉ ([] : List Nat)) = (x.dst != 3))
      ∧ (∀ x, x ∈ [({ cls := .rsp } : Message)] → ({ State.reset with mesh := { flight := [x] } } : State).oldestOf .rsp = some x)
      ∧ (∀ x, x ∈ [({ kind := .line } : Message)] → x.kind ≠ .plain) ∧ (∀ r, r ∈ [3, 4] → ((({ cls := .rsp, dst := 3, readers := [{ core := 3 }, { core := r }] } : Message).readers.any fun q => q.core != 3) = true ↔ r = 4))
      ∧ (∀ wr, wr ∈ [true, false] → let x : Message := { cls := .req, dst := 256, loc := 0x1000, wr := wr, mask := 255 }
          ({ State.reset with mesh := { flight := [x] } } : State).oldestOf .req = some x
            ∧ (decide (isSlice x.dst = true ∧ inLpddr x.loc = true) && x.wr) = wr ∧ 16 ∈ ({ present := [16] } : Mesh).present)
      ∧ ({ cls := .rsp, kind := .retry } : Message).kind = .retry
      ∧ (∀ b, b ∈ [true, false] → ({ State.reset with mesh := { dicts := [(3 * 256 + 4, { discarding := b })] } } : State).dict 3 4 = { discarding := b })
      ∧ (∀ w, w ∈ [({ line := 16, readers := [{}], held := [{ src := 3 }] } : MergeWindow)] →
          ({ windows := [w] } : Mesh).awaits 16 = true ∧ ({ windows := [w] } : Mesh).windows.find? (fun w => w.line == 16) = some w)
      ∧ State.reset.mesh.awaits 16 = false ∧ State.reset.lineAsked 16 = true
      ∧ ({ State.reset with mesh := { flight := [{ kind := .line, loc := 0x1000 }] } } : State).lineAsked 16 = false
      ∧ State.reset.firstMsg .msg 3 4 = none
      ∧ ({ State.reset with mesh := { flight := [{ cls := .msg, src := 3, dst := 4, raw := 8, words := [7] }] } } : State).firstMsg .msg 3 4 ≠ none := by
  decide +kernel

/-- A frame from a link that is up and from one that is not, and one too long; images: none, one for the job at hand, and one for a job that has
ended. -/
theorem test_witness_EngineSteps_arrivals :
    (recordAt false 0 .ready).linkUp 0 0 = true ∧ (recordAt false 0 .ready).linkUp 0 1 = false ∧ 9216 < (List.replicate 9217 (0 : Byte)).length
      ∧ (st vctx).imageNext 0 = none ∧ (st vctx).job? 1 ≠ none ∧ (st vctx).job? 2 = none ∧ (st vctx).vectorStrand 0 = some 0 ∧ vctx.job = 1
      ∧ ∀ i, i ∈ [({ job := 1 } : Image), { job := 2 }] → ((st vctx).onCore 0 fun k => { k with arriving := [i] }).imageNext 0 = some i := by
  decide +kernel

end Sys2Proof.Tests
end

section
namespace Sys2Proof.Machine

/-! ### Bits of bytes -/

/-- Bit i of the number that some bytes hold is bit i mod 8 of byte i / 8 (R5). -/
theorem testBit_leNat (bs : List Byte) (i : Nat) : (leNat bs).testBit i = (bs.getD (i / 8) 0).getLsbD (i % 8) := by
  induction bs generalizing i with
  | nil => simp [leNat]
  | cons b bs ih =>
    have hb : b.toNat < 2 ^ 8 := b.isLt
    rw [leNat, Nat.add_comm, show (256 : Nat) = 2 ^ 8 from rfl, Nat.testBit_two_pow_mul_add _ hb]
    split
    · rw [Nat.div_eq_of_lt ‹_›, Nat.mod_eq_of_lt ‹_›]
      rfl
    · have hi : i / 8 = (i - 8) / 8 + 1 := by omega
      rw [ih, hi, show i % 8 = (i - 8) % 8 by omega]
      rfl

/-- Byte i of the bytes of a number holds its bits from 8 i on. -/
theorem getD_leBytes (n v i : Nat) (h : i < n) (x : Nat) (hx : x < 8) : ((leBytes n v).getD i 0).getLsbD x = v.testBit (8 * i + x) := by
  induction n generalizing v i with
  | zero => omega
  | succ n ih =>
    rw [leBytes]
    cases i with
    | zero =>
      show (BitVec.ofNat 8 v).getLsbD x = _
      rw [BitVec.getLsbD_ofNat, decide_eq_true hx, Bool.true_and, Nat.mul_zero, Nat.zero_add]
    | succ i =>
      rw [List.getD_cons_succ, ih _ i (by omega), show (256 : Nat) = 2 ^ 8 from rfl, Nat.testBit_div_two_pow]
      congr 1
      omega

/-- A byte with some bits replaced has the new bits in their place and its own elsewhere. -/
theorem getLsbD_withBits (old : Byte) {lo w : Nat} (v i : Nat) (_ : lo + w ≤ 8) (hi : i < 8) :
    (withBits old lo w v).getLsbD i = if lo ≤ i ∧ i < lo + w then v.testBit (i - lo) else old.getLsbD i := by
  obtain ⟨l, hl, m, hm, u, ho⟩ : ∃ l < 2 ^ lo, ∃ m < 2 ^ w, ∃ u, old.toNat = 2 ^ lo * (2 ^ w * u + m) + l :=
    ⟨old.toNat % 2 ^ lo, Nat.mod_lt _ (Nat.two_pow_pos _), old.toNat / 2 ^ lo % 2 ^ w, Nat.mod_lt _ (Nat.two_pow_pos _),
      old.toNat / 2 ^ lo / 2 ^ w, by rw [Nat.div_add_mod, Nat.div_add_mod]⟩
  have hmid : old.toNat / 2 ^ lo % 2 ^ w = m := by
    rw [ho, Nat.mul_add_div (Nat.two_pow_pos _), Nat.div_eq_of_lt hl, Nat.add_zero, Nat.mul_add_mod, Nat.mod_eq_of_lt hm]
  have hv : v % 2 ^ w < 2 ^ w := Nat.mod_lt _ (Nat.two_pow_pos _)
  have hnew : old.toNat - old.toNat / 2 ^ lo % 2 ^ w * 2 ^ lo + v % 2 ^ w * 2 ^ lo = 2 ^ lo * (2 ^ w * u + v % 2 ^ w) + l := by
    rw [hmid, ho, Nat.mul_add, Nat.mul_add, Nat.mul_comm m, Nat.mul_comm (v % 2 ^ w)]
    omega
  have bit (x j : Nat) (hx : x < 2 ^ w) : (2 ^ lo * (2 ^ w * u + x) + l).testBit j =
      if j < lo then l.testBit j else if j - lo < w then x.testBit (j - lo) else u.testBit (j - lo - w) := by
    rw [Nat.testBit_two_pow_mul_add _ hl, Nat.testBit_two_pow_mul_add _ hx]
  rw [withBits, hnew, BitVec.getLsbD_ofNat, decide_eq_true hi, Bool.true_and, bit _ _ hv, BitVec.getLsbD, ho, bit _ _ hm, Nat.testBit_mod_two_pow]
  by_cases h1 : i < lo
  · rw [if_pos h1, if_pos h1, if_neg (by omega)]
  · by_cases h2 : i - lo < w
    · rw [if_neg h1, if_pos h2, if_pos (by omega), decide_eq_true h2, Bool.true_and]
    · rw [if_neg h1, if_neg h1, if_neg h2, if_neg h2, if_neg (by omega)]

/-! ### Elements of vector registers -/

/-- Bit n of vector register r. -/
def Ctx.vbit (c : Ctx) (r n : Nat) : Bool := (c.vbyte r (n / 8)).getLsbD (n % 8)

/-- The element widths: parts of a byte, and whole bytes. -/
theorem elementWidth_cases {w : Nat} (h : w ∈ [2, 4, 8, 16, 32, 64]) : (w < 8 ∧ (w = 2 ∨ w = 4)) ∨ ∃ k, 0 < k ∧ w = 8 * k := by
  simp only [List.mem_cons, List.not_mem_nil, or_false] at h
  rcases h with rfl | rfl | rfl | rfl | rfl | rfl
  · exact .inl ⟨by decide, .inl rfl⟩
  · exact .inl ⟨by decide, .inr rfl⟩
  · exact .inr ⟨1, by decide, rfl⟩
  · exact .inr ⟨2, by decide, rfl⟩
  · exact .inr ⟨4, by decide, rfl⟩
  · exact .inr ⟨8, by decide, rfl⟩

/-- An element that is a part of a byte does not cross into the next. -/
theorem element_in_byte {w : Nat} (hw : w = 2 ∨ w = 4) (j : Nat) : j * w % 8 + w ≤ 8 := by
  rcases hw with rfl | rfl <;> omega

theorem vraw_testBit (c : Ctx) (r j b : Nat) {w : Nat} (hw : w ∈ [2, 4, 8, 16, 32, 64]) (hb : b < w) :
    (c.vraw r w j).testBit b = c.vbit r (w * j + b) := by
  rw [Ctx.vbit, Ctx.vbyte, Ctx.vraw]
  rcases elementWidth_cases hw with ⟨hlt, hs⟩ | ⟨k, hk, rfl⟩
  · have hin := element_in_byte hs j
    rw [if_pos hlt, Nat.testBit_mod_two_pow, decide_eq_true hb, Bool.true_and, Nat.testBit_div_two_pow, Nat.mul_comm w j,
      show (j * w + b) / 8 = j * w / 8 by omega, show (j * w + b) % 8 = b + j * w % 8 by omega]
    rfl
  · have hi : b / 8 < k := by omega
    have ha : j * (8 * k) / 8 = j * k := by rw [Nat.mul_left_comm, Nat.mul_div_cancel_left _ (by decide)]
    have hd : (8 * k * j + b) / 8 = j * k + b / 8 := by
      rw [Nat.mul_assoc, Nat.mul_add_div (by decide), Nat.mul_comm k j]
    rw [if_neg (by omega), testBit_leNat, Nat.mul_div_cancel_left _ (by decide), ha, hd, Nat.mul_assoc, Nat.mul_add_mod,
      List.getD_eq_getElem?_getD, List.getElem?_map, List.getElem?_range hi, ← Nat.add_assoc]
    rfl

theorem leNat_lt (bs : List Byte) : leNat bs < 2 ^ (8 * bs.length) := by
  induction bs with
  | nil => exact Nat.one_pos
  | cons b bs ih =>
    have hb := b.isLt
    rw [leNat, List.length_cons, Nat.mul_succ, Nat.pow_add]
    omega

theorem vraw_lt (c : Ctx) (r j : Nat) {w : Nat} (hw : w ∈ [2, 4, 8, 16, 32, 64]) : c.vraw r w j < 2 ^ w := by
  rw [Ctx.vraw]
  rcases elementWidth_cases hw with ⟨hlt, _⟩ | ⟨k, hk, rfl⟩
  · rw [if_pos hlt]
    exact Nat.mod_lt _ (Nat.two_pow_pos _)
  · rw [if_neg (by omega)]
    refine Nat.lt_of_lt_of_eq (leNat_lt _) ?_
    rw [List.length_map, List.length_range, Nat.mul_div_cancel_left _ (by decide)]

/-- Writing an element replaces its bits and no other bit of any register. -/
theorem vbit_vput (c : Ctx) (r j v q n : Nat) {w : Nat} (hw : w ∈ [2, 4, 8, 16, 32, 64]) (hj : j * w + w ≤ 16384) (hn : n < 16384) :
    (c.vput r w j v).vbit q n = if q = r ∧ w * j ≤ n ∧ n < w * j + w then v.testBit (n - w * j) else c.vbit q n := by
  rw [Ctx.vput, Nat.mul_comm w j]
  rcases elementWidth_cases hw with ⟨hlt, hs⟩ | ⟨k, hk, rfl⟩
  · have hin := element_in_byte hs j
    have hbyte : (c.setVbyte r (j * w / 8) (withBits (c.vbyte r (j * w / 8)) (j * w % 8) w v)).vbyte q (n / 8) =
        if q = r ∧ n / 8 = j * w / 8 then withBits (c.vbyte r (j * w / 8)) (j * w % 8) w v else c.vbyte q (n / 8) := by
      rw [Ctx.setVbyte, Ctx.vbyte, Sparse.get_set]
      exact if_congr (by omega) rfl rfl
    rw [if_pos hlt, Ctx.vbit, hbyte]
    by_cases hq : q = r ∧ n / 8 = j * w / 8
    · obtain ⟨rfl, hd⟩ := hq
      rw [if_pos ⟨rfl, hd⟩, getLsbD_withBits _ _ _ hin (by omega), Ctx.vbit, hd]
      by_cases hm : j * w ≤ n ∧ n < j * w + w
      · rw [if_pos (by omega), if_pos ⟨rfl, hm⟩, show n % 8 - j * w % 8 = n - j * w by omega]
      · rw [if_neg (by omega), if_neg fun h => hm h.2]
    · rw [if_neg hq, if_neg fun h => hq ⟨h.1, by omega⟩, Ctx.vbit]
  · have ha : j * (8 * k) = 8 * (j * k) := Nat.mul_left_comm ..
    rw [ha] at hj ⊢
    rw [if_neg (by omega), Nat.mul_div_cancel_left _ (by decide), Nat.mul_div_cancel_left _ (by decide), Ctx.vbit, Ctx.vbyte, get_pokeBytes,
      leBytes_length]
    by_cases hq : q = r ∧ 8 * (j * k) ≤ n ∧ n < 8 * (j * k) + 8 * k
    · obtain ⟨rfl, h1, h2⟩ := hq
      rw [if_pos (by omega), if_pos ⟨rfl, h1, h2⟩, getD_leBytes _ _ _ (by omega) _ (by omega)]
      congr 1
      omega
    · rw [if_neg (by omega), if_neg hq, Ctx.vbit, Ctx.vbyte]

theorem vraw_vput (c : Ctx) (r j v : Nat) {w : Nat} (hw : w ∈ [2, 4, 8, 16, 32, 64]) (hj : j * w + w ≤ 16384) (hv : v < 2 ^ w) :
    (c.vput r w j v).vraw r w j = v := by
  apply Nat.eq_of_testBit_eq
  intro b
  by_cases hb : b < w
  · have hm : w * j = j * w := Nat.mul_comm ..
    rw [vraw_testBit _ _ _ _ hw hb, vbit_vput c r j v r _ hw hj (by omega), if_pos ⟨rfl, by omega, by omega⟩, Nat.add_sub_cancel_left]
  · have hp : 2 ^ w ≤ 2 ^ b := Nat.pow_le_pow_right (by decide) (by omega)
    rw [Nat.testBit_lt_two_pow (Nat.lt_of_lt_of_le (vraw_lt _ r j hw) hp), Nat.testBit_lt_two_pow (Nat.lt_of_lt_of_le hv hp)]

/-! ### Mask registers and lengths -/

theorem mbit_setMbit (c : Ctx) (r j q n : Nat) (b : Bool) (hj : j < 8192) (hn : n < 8192) :
    (c.setMbit r j b).mbit q n = if q = r ∧ n = j then b else c.mbit q n := by
  rw [Ctx.setMbit, Ctx.mbit, Sparse.get_set, Ctx.mbit]
  by_cases ha : 1024 * q + n / 8 = 1024 * r + j / 8
  · obtain rfl : q = r := by omega
    rw [if_pos ha, getLsbD_withBits _ _ _ (by omega) (by omega), ha]
    by_cases he : n = j
    · subst he
      rw [if_pos (by omega), Nat.sub_self, if_pos (⟨rfl, rfl⟩ : q = q ∧ n = n)]
      cases b <;> rfl
    · rw [if_neg (by omega), if_neg fun h => he h.2]
  · rw [if_neg ha, if_neg fun h => ha (by rw [h.1, h.2])]

theorem Sparse.get_without (d : α) (m : Sparse α) (lo hi k : Nat) :
    Sparse.get d (Sparse.without m lo hi) k = if lo ≤ k ∧ k < hi then d else Sparse.get d m k := by
  induction m with
  | nil => simp [Sparse.without]
  | cons p m ih =>
    obtain ⟨j, x⟩ := p
    rw [Sparse.without, List.filter_cons]
    by_cases h : lo ≤ j ∧ j < hi
    · rw [if_neg (by simp [h.1, h.2]), ← Sparse.without, ih, Sparse.get]
      by_cases hk : lo ≤ k ∧ k < hi
      · rw [if_pos hk, if_pos hk]
      · rw [if_neg hk, if_neg hk, if_neg fun (e : j = k) => hk (e ▸ h)]
    · rw [if_pos (by rw [Bool.not_eq_true', ← Bool.decide_and, decide_eq_false h]), ← Sparse.without, Sparse.get, ih, Sparse.get]
      by_cases hk : j = k
      · rw [if_pos hk, if_pos hk, if_neg (hk ▸ h)]
      · rw [if_neg hk, if_neg hk]

theorem lenOf_setLen (c : Ctx) (r n : Nat) : (c.setLen r n).lenOf r = n := (Sparse.get_set ..).trans (if_pos rfl)

theorem vbyte_setLen (c : Ctx) (r n q b : Nat) (hn : n ≤ 2048) (hb : b < 2048) :
    (c.setLen r n).vbyte q b = if q = r ∧ n ≤ b then 0 else c.vbyte q b := by
  rw [Ctx.setLen, Ctx.vbyte, Sparse.get_without]
  exact if_congr (by omega) rfl rfl

end Sys2Proof.Machine

open Sys2Proof Sys2Proof.Machine Sys2Proof.Claims

/-- Settles O34: an element is a run of bits of its register, and writing it replaces that run. -/
theorem elementStorage : Obligations.ElementStorage := by
  unfold Obligations.ElementStorage
  refine ⟨fun c r w j hw hj => ⟨fun b hb => vraw_testBit c r j b hw hb, vraw_lt c r j hw, fun v hv => ⟨vraw_vput c r j v hw hj hv, ?_⟩⟩,
    fun c r j b hj q n hn => mbit_setMbit c r j q n b hj hn,
    fun c r n hn => ⟨lenOf_setLen c r n, fun q b hb => vbyte_setLen c r n q b hn hb⟩⟩
  intro q n hn hout
  have h := vbit_vput c r j v q n hw hj hn
  rwa [if_neg (by omega)] at h
end

section
namespace Sys2Proof.Machine

open Sys2Proof.Claims

/-! ### Fields of a control register -/

/-- A register that held `old` reads `new` after a write of v: each field takes v's bits where the map assigns them and stays otherwise, and
every bit outside the fields reads 0 (R8, R144). -/
def FieldsKept (fs : List (Nat × Nat × (Nat → Prop))) (old v new : W64) : Prop :=
  (∀ f ∈ fs, (f.2.2 (fieldOf v f.1 f.2.1) → fieldOf new f.1 f.2.1 = fieldOf v f.1 f.2.1)
      ∧ (¬ f.2.2 (fieldOf v f.1 f.2.1) → fieldOf new f.1 f.2.1 = fieldOf old f.1 f.2.1))
    ∧ ∀ j, (∀ f ∈ fs, j < f.1 ∨ f.1 + f.2.1 ≤ j) → new.getLsbD j = false

theorem fieldOf_lt (v : W64) (lo n : Nat) : fieldOf v lo n < 2 ^ n := Nat.mod_lt _ (Nat.two_pow_pos n)

/-- The low field of a number that fits it. -/
theorem fieldOf_zero_ofNat {x n : Nat} (hn : n ≤ 64) (hx : x < 2 ^ n) : fieldOf (BitVec.ofNat 64 x) 0 n = x := by
  have h64 : x < 2 ^ 64 := Nat.lt_of_lt_of_le hx (Nat.pow_le_pow_right (by decide) hn)
  rw [fieldOf, BitVec.toNat_ofNat, Nat.mod_eq_of_lt h64, Nat.pow_zero, Nat.div_one, Nat.mod_eq_of_lt hx]

/-- A number below 2^n has no bit from n on. -/
theorem getLsbD_ofNat_of_lt {x n j : Nat} (hx : x < 2 ^ n) (hj : n ≤ j) : (BitVec.ofNat 64 x).getLsbD j = false := by
  rw [BitVec.getLsbD_ofNat, Nat.testBit_lt_two_pow (Nat.lt_of_lt_of_le hx (Nat.pow_le_pow_right (by decide) hj)), Bool.and_false]

/-- One field at the bottom of a register. -/
theorem FieldsKept.of_low {n x : Nat} {ok : Nat → Prop} {old v : W64} (hn : n ≤ 64) (hx : x < 2 ^ n)
    (hok : ok (fieldOf v 0 n) → x = fieldOf v 0 n) (hno : ¬ ok (fieldOf v 0 n) → x = fieldOf old 0 n) :
    FieldsKept [(0, n, ok)] old v (BitVec.ofNat 64 x) := by
  refine ⟨fun f hf => ?_, fun j hj => getLsbD_ofNat_of_lt hx ?_⟩
  · obtain rfl := List.mem_singleton.mp hf
    dsimp only
    rw [fieldOf_zero_ofNat hn hx]
    exact ⟨hok, hno⟩
  · have := hj _ (List.mem_singleton.mpr rfl)
    dsimp only at this
    omega

/-- A field that takes every value. -/
theorem FieldsKept.low {n : Nat} (hn : n ≤ 64) (old v : W64) : FieldsKept [(0, n, fun _ => True)] old v (Machine.low n v) := by
  have h : v.toNat % 2 ^ n = fieldOf v 0 n := by rw [fieldOf, Nat.pow_zero, Nat.div_one]
  rw [Machine.low, h]
  exact .of_low hn (fieldOf_lt ..) (fun _ => rfl) (fun h => absurd trivial h)

theorem FieldsKept.whole (old v : W64) : FieldsKept [(0, 64, fun _ => True)] old v v := by
  have h := FieldsKept.low (Nat.le_refl 64) old v
  rwa [Machine.low, Nat.mod_eq_of_lt v.isLt, BitVec.ofNat_toNat, BitVec.setWidth_eq] at h

/-- The bits of a field after a write: v's where they are assigned, or else the old ones. -/
def chosen (ok : Nat → Bool) (old v : W64) (lo n : Nat) : Nat := if ok (fieldOf v lo n) then fieldOf v lo n else fieldOf old lo n

theorem chosen_lt (ok : Nat → Bool) (old v : W64) (lo n : Nat) : chosen ok old v lo n < 2 ^ n := by
  unfold chosen
  split <;> exact fieldOf_lt ..

theorem field_eq (old v : W64) (lo n : Nat) (ok : Nat → Bool) : field old v lo n ok = chosen ok old v lo n * 2 ^ lo := rfl

/-- A field at the bottom that takes only the values its map assigns. -/
theorem FieldsKept.field {n : Nat} {ok : Nat → Bool} {p : Nat → Prop} (hn : n ≤ 64) (hp : ∀ f, ok f = true ↔ p f) (old v : W64) :
    FieldsKept [(0, n, p)] old v (BitVec.ofNat 64 (Machine.field old v 0 n ok)) := by
  rw [field_eq, Nat.pow_zero, Nat.mul_one]
  refine .of_low hn (chosen_lt ..) (fun h => ?_) (fun h => ?_)
  · exact if_pos ((hp _).mpr h)
  · exact if_neg fun e => h ((hp _).mp e)

/-- The map of %afa and %afb: a format of four bits, and h bits above it that take every value (R316). -/
theorem FieldsKept.format {h : Nat} {ok : Nat → Bool} {p : Nat → Prop} (hh : h ≤ 2) (hp : ∀ f, ok f = true ↔ p f) (old v : W64) :
    FieldsKept [(0, 4, p), (4, h, fun _ => True)] old v
      (BitVec.ofNat 64 (Machine.field old v 4 h always + Machine.field old v 0 4 ok)) := by
  have hlow := chosen_lt ok old v 0 4
  have hup : Machine.field old v 4 h always = fieldOf v 4 h * 2 ^ 4 := by rw [field_eq]; rfl
  have hfit : fieldOf v 4 h < 2 ^ h := fieldOf_lt ..
  have hsum : fieldOf v 4 h * 2 ^ 4 + chosen ok old v 0 4 < 2 ^ (4 + h) := by
    rw [Nat.pow_add]
    generalize 2 ^ h = b at hfit ⊢
    omega
  have h64 : fieldOf v 4 h * 2 ^ 4 + chosen ok old v 0 4 < 2 ^ 64 := Nat.lt_of_lt_of_le hsum (Nat.pow_le_pow_right (by decide) (by omega))
  rw [hup, field_eq, Nat.pow_zero, Nat.mul_one]
  refine ⟨fun f hf => ?_, fun j hj => getLsbD_ofNat_of_lt hsum ?_⟩
  · rcases List.mem_pair.mp hf with rfl | rfl
    · have e : fieldOf (BitVec.ofNat 64 (fieldOf v 4 h * 2 ^ 4 + chosen ok old v 0 4)) 0 4 = chosen ok old v 0 4 := by
        rw [fieldOf, BitVec.toNat_ofNat, Nat.mod_eq_of_lt h64]
        omega
      dsimp only
      rw [e]
      exact ⟨fun h => if_pos ((hp _).mpr h), fun h => if_neg fun e => h ((hp _).mp e)⟩
    · have e : fieldOf (BitVec.ofNat 64 (fieldOf v 4 h * 2 ^ 4 + chosen ok old v 0 4)) 4 h = fieldOf v 4 h := by
        have hd : (fieldOf v 4 h * 2 ^ 4 + chosen ok old v 0 4) / 2 ^ 4 = fieldOf v 4 h := by omega
        rw [fieldOf, BitVec.toNat_ofNat, Nat.mod_eq_of_lt h64, hd, Nat.mod_eq_of_lt hfit]
      exact ⟨fun _ => e, fun h => absurd trivial h⟩
  · have h1 := hj _ List.mem_cons_self
    have h2 := hj _ (List.mem_cons_of_mem _ (List.mem_singleton.mpr rfl))
    dsimp only at h1 h2
    omega

/-- What a write stores over each register that a strand writes and that keeps what is written. -/
theorem crStore_fieldsKept {n : Nat} {fs : List (Nat × Nat × (Nat → Prop))} (h : (n, fs) ∈ strandRegisters) (old v : W64) :
    FieldsKept fs old v (crStore n old v) := by
  have format (f : Nat) : decide (f ≤ 13) = true ↔ f ≤ 13 := decide_eq_true_iff
  simp only [strandRegisters, List.mem_cons, List.not_mem_nil, or_false, Prod.mk.injEq] at h
  rcases h with ⟨rfl, rfl⟩ | ⟨rfl, rfl⟩ | ⟨rfl, rfl⟩ | ⟨rfl, rfl⟩ | ⟨rfl, rfl⟩ | ⟨rfl, rfl⟩ | ⟨rfl, rfl⟩ | ⟨rfl, rfl⟩ | ⟨rfl, rfl⟩ | ⟨rfl, rfl⟩
    | ⟨rfl, rfl⟩ | ⟨rfl, rfl⟩ | ⟨rfl, rfl⟩ | ⟨rfl, rfl⟩ | ⟨rfl, rfl⟩ | ⟨rfl, rfl⟩ | ⟨rfl, rfl⟩ | ⟨rfl, rfl⟩ | ⟨rfl, rfl⟩ | ⟨rfl, rfl⟩
    | ⟨rfl, rfl⟩ | ⟨rfl, rfl⟩
  · exact .low (by decide) old v
  · exact .low (by decide) old v
  · exact .low (by decide) old v
  · exact .low (by decide) old v
  · exact .whole old v
  · exact .low (by decide) old v
  · exact .low (by decide) old v
  · exact .low (by decide) old v
  · exact .low (by decide) old v
  · exact .low (by decide) old v
  · exact .low (by decide) old v
  · exact .field (by decide) (fun f => by simp) old v
  · exact .format (by decide) format old v
  · exact .format (by decide) format old v
  · exact .low (by decide) old v
  · exact .low (by decide) old v
  · exact .field (by decide) (fun f => by simp) old v
  · exact .field (by decide) (fun f => by simp) old v
  · exact .field (by decide) (fun f => by simp [or_assoc]) old v
  · exact .field (by decide) (fun f => by simp) old v
  · exact .field (by decide) (fun f => by simp) old v
  · exact .low (by decide) old v

/-- The numbers of those registers. -/
theorem strandRegisters_number {n : Nat} {fs : List (Nat × Nat × (Nat → Prop))} (h : (n, fs) ∈ strandRegisters) :
    n ∈ [0x030, 0x031, 0x032, 0x102, 0x103, 0x104, 0x105, 0x106, 0x107, 0x108, 0x109, 0x10C, 0x200, 0x201, 0x202, 0x203, 0x204, 0x205,
      0x280, 0x281, 0x3C4, 0x3C5] := List.mem_map_of_mem (f := Prod.fst) h

/-! ### A strand's write of a register of its own -/

theorem State.crStrand_of_strand (s : State) {k : Nat} (hk : isSteward k = false) : s.crStrand k = some k := by
  rw [State.crStrand, hk]
  rfl

theorem State.strandCr_of_strand (s : State) {k : Nat} (hk : isSteward k = false) (n : Nat) : s.strandCr k n = (s.ctxAt k).crGet n := by
  rw [State.strandCr, State.crStrand_of_strand s hk]

theorem State.crRead_strandRegister (s : State) {k n : Nat} (hk : isSteward k = false) {fs : List (Nat × Nat × (Nat → Prop))}
    (h : (n, fs) ∈ strandRegisters) : s.crRead k n = (s.ctxAt k).crGet n := by
  rw [← State.strandCr_of_strand s hk]
  have hn := strandRegisters_number h
  simp only [List.mem_cons, List.not_mem_nil, or_false] at hn
  rcases hn with rfl | rfl | rfl | rfl | rfl | rfl | rfl | rfl | rfl | rfl | rfl | rfl | rfl | rfl | rfl | rfl | rfl | rfl | rfl | rfl | rfl | rfl
    <;> rfl

theorem State.crWrite_strandRegister (s : State) {k n : Nat} (hk : isSteward k = false) {fs : List (Nat × Nat × (Nat → Prop))}
    (h : (n, fs) ∈ strandRegisters) (v : W64) : s.crWrite k n v = s.onCtx k fun c => c.crSet n (crStore n (c.crGet n) v) := by
  have hset : s.strandCrSet k n v = s.onCtx k fun c => c.crSet n (crStore n (c.crGet n) v) := by
    rw [State.strandCrSet, State.crStrand_of_strand s hk]
  rw [← hset]
  have hn := strandRegisters_number h
  simp only [List.mem_cons, List.not_mem_nil, or_false] at hn
  rcases hn with rfl | rfl | rfl | rfl | rfl | rfl | rfl | rfl | rfl | rfl | rfl | rfl | rfl | rfl | rfl | rfl | rfl | rfl | rfl | rfl | rfl | rfl
    <;> rfl

/-- Every register below 0x800 reads the same of a strand in two states that differ in its control registers alone, where the registers that
it, %slack and %wtract are made of agree. -/
theorem State.crRead_onCtx_crSet (s : State) {k : Nat} (hk : isSteward k = false) {n q : Nat} (x : Ctx → W64) (hq : q < 0x800) (hne : q ≠ n)
    (h400 : n ≠ 0x400) (h3C0 : n ≠ 0x3C0) : (s.onCtx k fun c => c.crSet n (x c)).crRead k q = s.crRead k q := by
  have hctx : (s.onCtx k fun c => c.crSet n (x c)).ctxAt k = (s.ctxAt k).crSet n (x (s.ctxAt k)) := State.ctxAt_setCtx_same ..
  have hcore : (s.onCtx k fun c => c.crSet n (x c)).coreOf k = s.coreOf k := by rw [State.coreOf, hctx]; rfl
  have hget (r : Nat) (hr : r ≠ n) : (s.onCtx k fun c => c.crSet n (x c)).strandCr k r = s.strandCr k r := by
    rw [State.strandCr_of_strand _ hk, State.strandCr_of_strand _ hk, hctx, Ctx.crGet_crSet, if_neg hr]
  have hway : ((s.ctxAt k).crSet n (x (s.ctxAt k))).wayfarer = (s.ctxAt k).wayfarer := by
    rw [Ctx.wayfarer, Ctx.crGet_crSet, if_neg (Ne.symm h3C0), Ctx.wayfarer]
  have hastat : (s.onCtx k fun c => c.crSet n (x c)).astat k = s.astat k := by
    unfold State.astat
    rw [hcore, hctx]
    rfl
  have hwtract : (s.onCtx k fun c => c.crSet n (x c)).wtract k = s.wtract k := by
    unfold State.wtract
    rw [hcore, hctx, hway]
    rfl
  have hvd : ¬ (0x810 ≤ q ∧ q ≤ 0x817) := by omega
  unfold State.crRead
  rw [State.crStrand_of_strand _ hk, State.crStrand_of_strand _ hk]
  simp only [hcore, hctx, hastat, hwtract, hget q hne, hget 0x400 (Ne.symm h400), if_neg hvd]
  rfl

end Sys2Proof.Machine

open Sys2Proof Sys2Proof.Machine Sys2Proof.Claims

/-- Settles O21: a write stores the register's fields over what the strand's register held, and no other register of a strand is made of it. -/
theorem crKeeps : Obligations.CrKeeps := by
  unfold Obligations.CrKeeps
  intro s k v n fs hk h
  have hn : n ≠ 0x400 ∧ n ≠ 0x3C0 := by
    have hn := strandRegisters_number h
    constructor <;> rintro rfl <;> revert hn <;> decide
  have hw := State.crWrite_strandRegister s hk h v
  have hnew : (s.crWrite k n v).crRead k n = crStore n (s.crRead k n) v := by
    rw [State.crRead_strandRegister _ hk h, State.crRead_strandRegister s hk h, hw, State.onCtx, State.ctxAt_setCtx_same,
      Ctx.crGet_crSet, if_pos rfl]
  have hkept := crStore_fieldsKept h (s.crRead k n) v
  rw [← hnew] at hkept
  exact ⟨hkept.1, hkept.2, fun q hq hlt => by
    show (s.crWrite k n v).crRead k q = _
    rw [hw, State.crRead_onCtx_crSet s hk _ hlt hq hn.1 hn.2]⟩
end

section
namespace Sys2Proof.Machine

/-! ### A wake notice whose sample wakes another strand (O59) -/

/-- Core 0 counts the wake notices (event 11) of every slot in counter 0, samples each into the trace ring at 0x2000, and strand 1 is parked on that
ring's first double-word; the notice of strand 0 is the only one in flight. -/
def parkedOnTrace : State where
  core := [(0, { coreDefault with cr := [(0x483, 0x2000), (0x484, 32), (0x486, 1), (0x498, 0x100B)] })]
  ctx := [(0, some { hold := .waita }), (1, some { hold := .waita, here := 1 })]
  parks := [{ key := 1, loc := 0x2000, cmp := 0, d := 4 }]
  notices := [(0, some (3, 7))]

/-- The sample record of strand 0's wake (R389) is a write, and sends strand 1 a notice (R179). -/
theorem parkedOnTrace_wakeOldest_notices : parkedOnTrace.wakeOldest.notices = [(1, some (4, 0x1000000000000000))] := by decide +kernel

/-- Refutes O59: with a sampled event the step of a wake notice may send another, so the notices left are not those that stood behind the first. The
counterexample is `parkedOnTrace`. -/
theorem not_jobSteps : ¬ Obligations.JobSteps := by
  intro h
  obtain ⟨-, -, -, -, -, -, -, -, -, -, wake, -⟩ := h parkedOnTrace
  obtain ⟨-, wakes⟩ := wake 0 (some (3, 7)) [] rfl
  obtain ⟨t, step, left, -⟩ := wakes rfl
  obtain rfl : parkedOnTrace.wakeOldest = t := Host.Outcome.next.inj step
  rw [parkedOnTrace_wakeOldest_notices] at left
  cases left

end Sys2Proof.Machine
end

section
namespace Sys2Proof.Machine
open Sys2Proof.Claims

/-! ### What reaches out from a step: messages, counted events, translations and stores (O57, O60) -/

/-- A core differs at most in what an access leaves there: its translation cache, its counters, its home cache. -/
def Core.Kept (c d : Core) : Prop :=
  ∃ tlb cr n home unseen, d = { c with tlb := tlb, cr := cr, nflit := n, home := home, unseen := unseen }

theorem Core.Kept.refl (c : Core) : c.Kept c := ⟨_, _, _, _, _, rfl⟩

theorem Core.Kept.trans {c d e : Core} (h : c.Kept d) (g : d.Kept e) : c.Kept e := by
  obtain ⟨_, _, _, _, _, rfl⟩ := h
  obtain ⟨_, _, _, _, _, rfl⟩ := g
  exact ⟨_, _, _, _, _, rfl⟩

/-- Beside what every core keeps, only memory, the strands that wait on it, the mesh and the count of free values differ. -/
structure Outward (s t : State) : Prop where
  parts : ∃ mem parks notices core mesh free,
    t = { s with mem := mem, parks := parks, notices := notices, core := core, mesh := mesh, free := free }
  kept : ∀ m, (s.coreAt m).Kept (t.coreAt m)

namespace Outward

theorem refl (s : State) : Outward s s := ⟨⟨_, _, _, _, _, _, rfl⟩, fun _ => .refl _⟩

theorem trans {s t u : State} (h : Outward s t) (g : Outward t u) : Outward s u := by
  obtain ⟨_, _, _, _, _, _, ht⟩ := h.parts
  obtain ⟨_, _, _, _, _, _, hu⟩ := g.parts
  exact ⟨⟨_, _, _, _, _, _, by rw [hu, ht]⟩, fun m => (h.kept m).trans (g.kept m)⟩

theorem ctx {s t : State} (h : Outward s t) : t.ctx = s.ctx := by obtain ⟨_, _, _, _, _, _, rfl⟩ := h.parts; rfl
theorem sched {s t : State} (h : Outward s t) : t.sched = s.sched := by obtain ⟨_, _, _, _, _, _, rfl⟩ := h.parts; rfl
theorem dev {s t : State} (h : Outward s t) : t.dev = s.dev := by obtain ⟨_, _, _, _, _, _, rfl⟩ := h.parts; rfl
theorem cluster {s t : State} (h : Outward s t) : t.cluster = s.cluster := by obtain ⟨_, _, _, _, _, _, rfl⟩ := h.parts; rfl
theorem coding {s t : State} (h : Outward s t) : t.coding = s.coding := by obtain ⟨_, _, _, _, _, _, rfl⟩ := h.parts; rfl
theorem input {s t : State} (h : Outward s t) : t.input = s.input := by obtain ⟨_, _, _, _, _, _, rfl⟩ := h.parts; rfl

theorem tiles {s t : State} (h : Outward s t) (m : Nat) : (t.coreAt m).tiles = (s.coreAt m).tiles := by
  obtain ⟨_, _, _, _, _, hm⟩ := h.kept m
  rw [hm]

theorem of_perform (s : State) (a : Nat) (bs : List Byte) : Outward s (s.perform a bs) := ⟨⟨_, _, _, _, _, _, rfl⟩, fun _ => .refl _⟩

theorem of_freshen (s : State) (n : Nat) : Outward s (s.freshen n) := ⟨⟨_, _, _, _, _, _, rfl⟩, fun _ => .refl _⟩

theorem of_translated {s t : State} (h : OnlyTranslated s t) : Outward s t :=
  ⟨h.parts, fun m => by obtain ⟨_, _, _, hm⟩ := h.cores m; exact ⟨_, _, _, _, _, hm⟩⟩

theorem ite {s t u : State} (c : Prop) [Decidable c] (h : Outward s t) (g : Outward s u) : Outward s (if c then t else u) := by
  split
  · exact h
  · exact g

theorem fold {β : Type} {f : State → β → State} (hf : ∀ s b, Outward s (f s b)) (bs : List β) (s : State) : Outward s (bs.foldl f s) := by
  induction bs generalizing s with
  | nil => exact .refl s
  | cons b bs ih => exact (hf s b).trans (ih _)

theorem of_writeRuns (runs : List (Nat × Nat)) (s : State) (bs : List Byte) : Outward s (s.writeRuns runs bs) := by
  induction runs generalizing s bs with
  | nil => exact .refl s
  | cons r rs ih => exact (of_perform s r.1 (bs.take r.2)).trans (ih _ _)

theorem of_performChunks (cs : List (Nat × List Byte)) (s : State) : Outward s (s.performChunks cs) := by
  unfold State.performChunks
  exact fold (fun s c => of_perform s c.1 c.2) cs s

end Outward

/-- Messages have been sent and events counted: nothing translates otherwise, the mesh has messages more, and memory changes only by the records of samples. -/
structure OnlyAsked (s t : State) : Prop extends Outward s t where
  sampling : ∀ m, (t.coreAt m).crGet 0x484 = (s.coreAt m).crGet 0x484
  tlb : ∀ m, (t.coreAt m).tlb = (s.coreAt m).tlb
  mesh : ∃ ys tag, t.mesh = { s.mesh with flight := s.mesh.flight ++ ys, tag := tag }
  mem : Unsampled s → t.mem = s.mem

namespace OnlyAsked

theorem refl (s : State) : OnlyAsked s s :=
  ⟨.refl s, fun _ => rfl, fun _ => rfl, ⟨[], s.mesh.tag, by rw [List.append_nil]⟩, fun _ => rfl⟩

theorem unsampled {s t : State} (h : OnlyAsked s t) (q : Unsampled s) : Unsampled t := fun m => by rw [h.sampling]; exact q m

theorem trans {s t u : State} (h : OnlyAsked s t) (g : OnlyAsked t u) : OnlyAsked s u := by
  refine ⟨h.toOutward.trans g.toOutward, fun m => (g.sampling m).trans (h.sampling m),
    fun m => (g.tlb m).trans (h.tlb m), ?_, fun q => (g.mem (h.unsampled q)).trans (h.mem q)⟩
  obtain ⟨ys, a, hm⟩ := h.mesh
  obtain ⟨zs, b, gm⟩ := g.mesh
  exact ⟨ys ++ zs, b, by rw [gm, hm, List.append_assoc]⟩

theorem ite {s t u : State} (c : Prop) [Decidable c] (h : OnlyAsked s t) (g : OnlyAsked s u) : OnlyAsked s (if c then t else u) := by
  split
  · exact h
  · exact g

theorem fold {β : Type} {f : State → β → State} (hf : ∀ s b, OnlyAsked s (f s b)) (bs : List β) (s : State) :
    OnlyAsked s (bs.foldl f s) := by
  induction bs generalizing s with
  | nil => exact .refl s
  | cons b bs ih => exact (hf s b).trans (ih _)

/-- A core changed only where an access changes it. -/
theorem onCore {s t : State} (h : OnlyAsked s t) (m : Nat) {f : Core → Core} 
    (hf : ∀ c, c.Kept (f c) ∧ (f c).crGet 0x484 = c.crGet 0x484 ∧ (f c).tlb = c.tlb) :
    OnlyAsked s (t.onCore m f) := by
  refine h.trans ⟨⟨⟨_, _, _, _, _, _, rfl⟩, fun n => ?_⟩, fun n => ?_, fun n => ?_,
    ⟨[], t.mesh.tag, by rw [List.append_nil]; rfl⟩, fun _ => rfl⟩
  · rw [State.coreAt_onCore]
    split
    · subst n; exact (hf _).1
    · exact .refl _
  · rw [State.coreAt_onCore]
    split
    · subst n; exact (hf _).2.1
    · rfl
  · rw [State.coreAt_onCore]
    split
    · subst n; exact (hf _).2.2
    · rfl

theorem freshen {s t : State} (h : OnlyAsked s t) (n : Nat) : OnlyAsked s (t.freshen n) :=
  h.trans ⟨.of_freshen t n, fun _ => rfl, fun _ => rfl, ⟨[], t.mesh.tag, by rw [List.append_nil]; rfl⟩, fun _ => rfl⟩

theorem of_countSent (s : State) (cls : MsgClass) (src len : Nat) : OnlyAsked s (s.countSent cls src len) := by
  unfold State.countSent
  refine .ite _ (.refl s) ((OnlyAsked.refl s).onCore src fun c => ⟨⟨_, _, _, _, _, rfl⟩, ?_, rfl⟩)
  exact (Core.crGet_crSet ..).trans (if_neg (by cases cls <;> decide))

theorem of_inject (s : State) (m : Message) : OnlyAsked s (s.inject m) :=
  ⟨⟨⟨_, _, _, _, _, _, rfl⟩, fun _ => .refl _⟩, fun _ => rfl, fun _ => rfl, ⟨[m], _, rfl⟩, fun _ => rfl⟩

theorem of_sendFree (s : State) (m : Message) : OnlyAsked s (s.sendFree m) := ((of_countSent ..).trans (of_inject ..)).freshen 1

theorem of_ask (s : State) (src dst loc : Nat) (wr : Bool) (k : Option Nat) (mask : Nat) : OnlyAsked s (s.ask src dst loc wr k mask) :=
  of_sendFree ..

theorem of_askWalk (s : State) (m root va : Nat) : OnlyAsked s (s.askWalk m root va) :=
  .ite _ (.refl s) (.fold (fun s _ => of_sendFree s ..) _ s)

end OnlyAsked

/-! ### Counted events -/

theorem Core.count_kept (c : Core) (event slot n : Nat) : c.Kept (c.count event slot n)
    ∧ (c.count event slot n).crGet 0x484 = c.crGet 0x484 ∧ (c.count event slot n).tlb = c.tlb := by
  have step (c : Core) (j : Nat) : ∀ d, d = (if counts (c.crGet (0x498 + j)) event slot then c.crAdd (0x490 + j) n else c) →
      c.Kept d ∧ d.crGet 0x484 = c.crGet 0x484 ∧ d.tlb = c.tlb := by
    rintro _ rfl
    split
    · exact ⟨⟨_, _, _, _, _, rfl⟩, (Core.crGet_crSet ..).trans (if_neg (by omega)), rfl⟩
    · exact ⟨.refl c, rfl, rfl⟩
  unfold Core.count
  generalize List.range 8 = js
  induction js generalizing c with
  | nil => exact ⟨.refl c, rfl, rfl⟩
  | cons j js ih =>
    obtain ⟨k1, r1, t1⟩ := step c j _ rfl
    obtain ⟨k2, r2, t2⟩ := ih (if counts (c.crGet (0x498 + j)) event slot then c.crAdd (0x490 + j) n else c)
    exact ⟨k1.trans k2, r2.trans r1, t2.trans t1⟩

namespace OnlyAsked

/-- What is unsampled after an access was so before. -/
theorem sampled {s t : State} (h : OnlyAsked s t) (q : ¬ Unsampled s) : ¬ Unsampled t := fun u => q fun m => by rw [← h.sampling]; exact u m

/-- A trace record is written only where a core samples. -/
theorem of_traceRecord {s : State} (m : Nat) (ws : List W64) (h : ¬ Unsampled s) : OnlyAsked s (s.traceRecord m ws) := by
  have store (t : State) (a : Nat) (bs : List Byte) (q : ¬ Unsampled t) : OnlyAsked t (t.perform a bs) :=
    ⟨.of_perform .., fun _ => rfl, fun _ => rfl, ⟨[], t.mesh.tag, by rw [List.append_nil]; rfl⟩, fun u => absurd u q⟩
  unfold State.traceRecord
  extract_lets c base loc
  have ask := of_ask s m (edge (l2Slice loc)) loc true none (2 ^ 32 - 1)
  exact .ite _ (.refl s) ((ask.trans (store _ _ _ (ask.sampled h))).onCore m fun c =>
    ⟨⟨_, _, _, _, _, rfl⟩, (Core.crGet_crSet ..).trans (if_neg (by decide)), rfl⟩)

theorem of_samples (s : State) (m k old n : Nat) : OnlyAsked s (s.samples m k old n) := by
  unfold State.samples
  extract_lets c
  split
  case isFalse => exact .refl s
  case isTrue hc =>
    have hs : ¬ Unsampled s := fun q => by rw [q m] at hc; cases hc
    generalize multiplesReached old n (bitsOf (c.crGet 0x486) 0 32) = vs
    generalize c.sampled = j
    clear hc c
    induction vs generalizing s with
    | nil => exact .refl s
    | cons v vs ih =>
      have record := of_traceRecord m (s.traceHead m k 1 (s.ctxAt k).grant (s.ctxAt k).pc ++ [s.traceData k j, BitVec.ofNat 64 v]) hs
      exact record.trans (ih _ (record.sampled hs))

theorem of_tally (s : State) (m k event n : Nat) : OnlyAsked s (s.tally m k event n) := by
  have count := (OnlyAsked.refl s).onCore m fun c => c.count_kept event (s.slotNumber k) n
  exact .ite _ (count.trans (of_samples ..)) count

/-! ### Requests -/

theorem of_writeBack (s : State) (m : Nat) (l : HomeLine) : OnlyAsked s (s.writeBack m l) := .ite _ (.refl s) (of_ask ..)

theorem of_evictHome (s : State) (m : Nat) : OnlyAsked s (s.evictHome m) := by
  unfold State.evictHome
  extract_lets lines
  split
  · exact .refl s
  · split
    · exact .refl s
    · refine OnlyAsked.trans ?_ (of_writeBack ..)
      refine OnlyAsked.freshen (.onCore (.refl s) m fun c => ?_) 1
      exact ⟨⟨_, _, _, _, _, rfl⟩, rfl, rfl⟩

theorem of_homeAccess (s : State) (m line mask : Nat) : OnlyAsked s (s.homeAccess m line mask) :=
  .ite _ ((of_tally ..).onCore m fun _ => ⟨⟨_, _, _, _, _, rfl⟩, rfl, rfl⟩)
    (((of_ask ..).trans (of_evictHome ..)).onCore m fun _ => ⟨⟨_, _, _, _, _, rfl⟩, rfl, rfl⟩)

theorem of_requestLines (s : State) (m : Nat) (k : Option Nat) (wr : Bool) (ps : List (Place × Nat)) :
    OnlyAsked s (s.requestLines m k wr ps) := by
  have home (s : State) (l mask : Nat) : OnlyAsked s
      ((if homeCore (l * 32) = m then s else s.ask m (homeCore (l * 32)) (l * 32) wr k).homeAccess (homeCore (l * 32)) l mask) :=
    (OnlyAsked.ite _ (.refl s) (of_ask ..)).trans (of_homeAccess ..)
  unfold State.requestLines
  extract_lets cached rest homes slices lines mask mask8 away s1 s2 s3
  have h1 : OnlyAsked s s1 := .fold (fun s l => home s l _) homes s
  have h2 : OnlyAsked s s2 := h1.trans (.fold (fun s l => of_ask s ..) lines s1)
  have h3 : OnlyAsked s s3 := h2.trans (.fold (fun s t => of_ask s ..) _ s2)
  exact .ite _ h3 (h3.onCore m fun _ => ⟨⟨_, _, _, _, _, rfl⟩, rfl, rfl⟩)

theorem of_engineRequests (s : State) (m src : Nat) (root : W64) (wr : Bool) (pieces : List (Nat × Nat)) :
    OnlyAsked s (s.engineRequests m src root wr pieces) := of_requestLines ..

theorem of_walkFaulting (m : Nat) (root : W64) (acc : Acc) (ps : List (Nat × Nat)) (s : State) :
    OnlyAsked s (s.walkFaulting m root acc ps) := by
  induction ps generalizing s with
  | nil => exact .refl s
  | cons p ps ih =>
    have walk := OnlyAsked.ite (p.1 < 2 ^ 49 ∧ !(privateVa p.1)) (of_askWalk s m (bitsOf root 18 30 * 2 ^ 18) p.1) (.refl s)
    rw [State.walkFaulting]
    split
    · exact walk.trans (ih _)
    · exact walk

end OnlyAsked
end Sys2Proof.Machine
end

section
namespace Sys2Proof.Machine
open Sys2Proof.Claims

/-! ### Command rings and packets (O57) -/

theorem Device.ringReg_setRingReg (d : Device) (r : Nat) {i : Nat} (v : W64) (q : Nat) {j : Nat} (hi : i < 4) (hj : j < 4) :
    (d.setRingReg r i v).ringReg q j = if q = r ∧ j = i then v else d.ringReg q j := by
  refine (Sparse.get_set ..).trans ?_
  by_cases h : q = r ∧ j = i
  · rw [if_pos h, if_pos (by omega)]
  · rw [if_neg h, if_neg (by omega)]
    rfl

theorem State.ringBell_ringReg (s : State) (r : Nat) (v : W64) (q : Nat) {i : Nat} (hi : i < 4) :
    (s.ringBell r v).dev.ringReg q i = if q = r ∧ i = 2 then BitVec.ofNat 64 (v.toNat % 2 ^ 32) else s.dev.ringReg q i :=
  Device.ringReg_setRingReg _ _ _ _ (by decide) hi

/-- A number below 2^32 as a word. -/
theorem toNat_ofNat_mod32 (n : Nat) : (BitVec.ofNat 64 (n % 2 ^ 32)).toNat = n % 2 ^ 32 := by
  rw [BitVec.toNat_ofNat]
  exact Nat.mod_eq_of_lt (by have := Nat.mod_lt n (show 0 < 2 ^ 32 by decide); omega)

theorem doorbell_sets (s : State) : Does .doorbell s fun t => OnlyDevice s t
    ∧ (t.dev.ringReg (s.input.index.toNat % 16) 2).toNat = s.input.value.toNat % 2 ^ 32
    ∧ ∀ q i, i < 4 → (q ≠ s.input.index.toNat % 16 ∨ i ≠ 2) → t.dev.ringReg q i = s.dev.ringReg q i := by
  refine ⟨_, rfl, rfl, ?_, fun q i hi h => ?_⟩
  · rw [State.ringBell_ringReg _ _ _ _ (by decide), if_pos ⟨rfl, rfl⟩, toNat_ofNat_mod32]
  · rw [State.ringBell_ringReg _ _ _ _ hi, if_neg (by omega)]

theorem sliceExpiry_passes (s : State) : Does .sliceExpiry s fun t =>
    t.dev.serving = (s.dev.serving + 1) % 16 ∧ t.mem = s.mem ∧ t.sched = s.sched := ⟨_, rfl, rfl, rfl, rfl⟩

theorem Device.ringReg_congr {d e : Device} (h : d.ring = e.ring) (r i : Nat) : d.ringReg r i = e.ringReg r i := by
  rw [Device.ringReg, Device.ringReg, h]

theorem State.pastPacket_ringReg (u : State) (r n : Nat) :
    (u.pastPacket r n).dev.ringReg r 3 = BitVec.ofNat 64 (((u.dev.ringReg r 3).toNat + n) % 2 ^ 32) := by
  generalize hv : BitVec.ofNat 64 (((u.dev.ringReg r 3).toNat + n) % 2 ^ 32) = v
  have ring : (u.pastPacket r n).dev.ring = (u.dev.setRingReg r 3 v).ring := by rw [← hv]; rfl
  rw [Device.ringReg_congr ring, Device.ringReg_setRingReg _ _ _ _ (by decide) (by decide), if_pos ⟨rfl, rfl⟩]

/-- RCONS goes past a packet, whatever the packet did beside the ring's registers. -/
theorem State.pastPacket_past {s u : State} (r : Nat) (h : u.dev.ring = s.dev.ring) :
    PastPacket s (u.pastPacket r (min (s.packetEntries r) (s.dev.ringCount r))) r := by
  have cons := Device.ringReg_congr h r 3
  refine ⟨?_, rfl⟩
  rw [State.pastPacket_ringReg, cons, toNat_ofNat_mod32]

theorem State.onPacket_served {s : State} {r : Nat} {k : Packet} (hr : s.servedRing = some r) (hk : s.packet r = k)
    (go : Nat → State → State) : s.onPacket k go = .next ((go r s).pastPacket r (min (s.packetEntries r) (s.dev.ringCount r))) := by
  -- the function's own equation, since the kernel evaluates the ring served when it compares the applied one
  generalize hF : @State.onPacket = F
  delta State.onPacket at hF
  have h := congrFun (congrFun (congrFun hF s) k) go
  clear hF
  beta_reduce at h
  generalize State.packet s = p at hk h
  generalize s.servedRing = o at hr h
  subst hr
  exact h.symm.trans (if_pos hk)

/-! ### What the front end reads and stores through a root -/

theorem State.engineRead_outward {s s1 : State} {m : Nat} {root : W64} {va n : Nat} {bs : List Byte}
    (h : s.engineRead m root va n = .ok (bs, s1)) : Outward s s1 := .of_translated (State.engineRead_frame h)

theorem State.engineWrite_outward {s s1 : State} {m : Nat} {root : W64} {va : Nat} {bs : List Byte}
    (h : s.engineWrite m root va bs = .ok s1) : Outward s s1 := by
  unfold State.engineWrite at h
  split at h
  · cases h
  · rename_i rs s2 hs
    cases h
    exact (Outward.of_translated (State.engineSpan_frame _ hs)).trans (.of_writeRuns ..)

theorem State.schedStore_outward (s : State) (root : W64) (va : Nat) (v : W64) : Outward s (s.schedStore root va v) := by
  unfold State.schedStore
  split
  · rename_i s1 h
    exact (State.engineWrite_outward h).trans (OnlyAsked.of_engineRequests ..).toOutward
  · exact .refl s

theorem State.prepare_outward {s s1 : State} {m : Nat} {root : W64} {r : JobRecord} {l : List Nat}
    (h : s.prepare m root r = some (l, s1)) : Outward s s1 := by
  have list {l : List Nat} {s1 : State} (h : s.readList m root r = some (l, s1)) : Outward s s1 := by
    unfold State.readList at h
    split at h
    · split at h
      · rename_i bs s2 hr
        cases h
        exact (State.engineRead_outward hr).trans (OnlyAsked.of_engineRequests ..).toOutward
      · cases h
    · cases h
      exact .refl s
  unfold State.prepare at h
  split at h
  · rename_i l2 s2 hl
    split at h <;> cases h
    exact list hl
  · cases h

theorem State.prepareAll_outward (rs : List JobRecord) {s s1 : State} {i : Nat} {ls : List (List Nat)}
    (h : s.prepareAll i rs = .ok (ls, s1)) : Outward s s1 ∧ ls.length = rs.length := by
  induction rs generalizing s s1 i ls with
  | nil => cases h; exact ⟨.refl s, rfl⟩
  | cons r rs ih =>
    rw [State.prepareAll] at h
    split at h
    · cases h
    · rename_i l s2 hp
      split at h <;> cases h
      rename_i hs
      obtain ⟨hrest, hlen⟩ := ih hs
      exact ⟨(State.prepare_outward hp).trans hrest, congrArg Nat.succ hlen⟩

/-! ### Launches -/

/-- A job accepted, and then marked, is one job more. -/
theorem State.accept_adds (s : State) (r : JobRecord) (root : W64) (list above : List Nat) (tree id : Nat) (f : Job → Job) :
    ((s.accept r root list above tree).onJob id f).sched.jobs.length = s.sched.jobs.length + 1 := by
  unfold State.accept State.onJob
  exact (List.length_map ..).trans List.length_append

theorem State.acceptStages_adds (route : Nat) (xs : List (JobRecord × List Nat)) (s : State) (tree i : Nat) :
    (s.acceptStages route tree i xs).sched.jobs.length = s.sched.jobs.length + xs.length
      ∧ (s.acceptStages route tree i xs).sched.routes = s.sched.routes ∧ (s.acceptStages route tree i xs).dev = s.dev := by
  induction xs generalizing s tree i with
  | nil => exact ⟨rfl, rfl, rfl⟩
  | cons x xs ih =>
    rw [State.acceptStages]
    obtain ⟨jobs, routes, dev⟩ := ih (((s.accept _ _ _ _ _).onJob _ _)) _ _
    refine ⟨jobs.trans ?_, routes, dev⟩
    rw [State.accept_adds, List.length_cons, Nat.add_assoc, Nat.add_comm 1]

end Sys2Proof.Machine
end

section
namespace Sys2Proof.Machine
open Sys2Proof.Claims

/-! ### What a packet asks for (R229, O57) -/

/-- The check that a packet of a kind has passed. -/
def State.Checked (s : State) (r : Nat) : Packet → Prop
  | .route => (s.template r).isSome = true
  | .job => (s.prepare schedCore (s.queueRoot (s.packetRecord r)) (s.packetRecord r)).isSome = true
  | .write => s.writeOk r 2 = true
  | .signal => s.writeOk r 4 = true
  | _ => True

theorem State.packet_checked {s : State} {r : Nat} {k : Packet} (h : s.packet r = k) : s.Checked r k := by
  unfold State.packet at h
  dsimp only at h
  split at h
  · subst h; trivial
  · split at h
    · split at h <;> subst h
      next hc => exact hc.2.2.2
      trivial
    · split at h <;> subst h
      next hc => exact hc.2.2
      trivial
    · split at h <;> subst h
      next hc => exact hc
      trivial
    · split at h <;> subst h
      next hc => exact hc
      trivial
    · split at h <;> subst h <;> trivial
    · subst h; trivial

theorem does_of_served {s : State} {r : Nat} {k : Packet} {i : Instr} {go : Nat → State → State} {P : State → Prop}
    (hr : s.servedRing = some r) (hk : s.packet r = k) (hi : exec i s = s.onPacket k go)
    (hP : P ((go r s).pastPacket r (min (s.packetEntries r) (s.dev.ringCount r)))) : Does i s P :=
  ⟨_, hi.trans (State.onPacket_served hr hk go), hP⟩

/-! ### Launches -/

/-- A packet that is taken as a launch of a route names a template. -/
theorem State.template_of_packet {s : State} {r : Nat} (h : s.packet r = .route) :
    ∃ t, s.dev.tables.templates[(s.packetWord r 1).toNat]? = some t ∧ s.template r = some t ∧ templateValid t = true := by
  obtain ⟨t, ht⟩ := Option.isSome_iff_exists.mp (State.packet_checked h)
  obtain ⟨hl, hv⟩ := Option.filter_eq_some_iff.mp ht
  exact ⟨t, hl, ht, hv⟩

theorem stageRecords_length {t : Template} (h : templateValid t = true) (deadline arg : W64) :
    (stageRecords t deadline arg).length = bitsOf (templateWord t 0) 0 4 + 1 := by
  unfold templateValid at h
  simp only [Bool.and_eq_true, decide_eq_true_eq] at h
  obtain ⟨⟨⟨⟨-, hlen⟩, -⟩, -⟩, -⟩ := h
  rw [stageRecords, List.length_map, templateStages, List.length_take, Nat.min_eq_left hlen]

/-- A route whose stages are not all valid queues none. -/
theorem State.launchRoute_invalid {s : State} {t : Template} {deadline arg : W64} {tree i : Nat}
    (h : s.prepareAll 0 (stageRecords t deadline arg) = .error i) : Outward s (s.launchRoute t deadline arg tree) := by
  unfold State.launchRoute
  dsimp only
  rw [h]
  exact .ite _ (.refl s) (State.schedStore_outward ..)

/-- A route whose stages are all valid queues each of them, and is one route more. -/
theorem State.launchRoute_valid {s s1 : State} {t : Template} {deadline arg : W64} {tree : Nat} {ls : List (List Nat)}
    (h : s.prepareAll 0 (stageRecords t deadline arg) = .ok (ls, s1)) :
    (s.launchRoute t deadline arg tree).sched.jobs.length = s.sched.jobs.length + (stageRecords t deadline arg).length
      ∧ (s.launchRoute t deadline arg tree).dev = s.dev
      ∧ ∃ run : RouteRun, (s.launchRoute t deadline arg tree).sched.routes = s.sched.routes ++ [run] ∧ run.id = s.sched.nextRoute
        ∧ run.statuses = (stageRecords t deadline arg).map (fun _ => none) ∧ run.caddr = templateCaddr t ∧ run.scope = templateScope t
        ∧ run.channels = (templateAllowances t).map fun a => ({ allowance := a } : Channel) := by
  obtain ⟨hout, hlen⟩ := State.prepareAll_outward _ h
  unfold State.launchRoute
  dsimp only
  rw [h]
  dsimp only
  obtain ⟨jobs, routes, dev⟩ := State.acceptStages_adds _ ((stageRecords t deadline arg).zip ls) _ tree 0
  refine ⟨jobs.trans ?_, dev.trans hout.dev, _, routes.trans (congrArg (· ++ _) (congrArg (·.routes) hout.sched)), ?_, rfl, rfl, rfl, rfl⟩
  · rw [List.length_zip, hlen, Nat.min_self]
    exact congrArg (·.jobs.length + _) hout.sched
  · exact congrArg (·.nextRoute) hout.sched

/-- A step that leaves the rings' registers, and then goes past its packet. -/
theorem does_pastPacket {s u : State} {r : Nat} {k : Packet} {i : Instr} {go : Nat → State → State} {P : State → Prop}
    (hr : s.servedRing = some r) (hk : s.packet r = k) (hi : exec i s = s.onPacket k go) (hgo : go r s = u) (hd : u.dev.ring = s.dev.ring)
    (hP : ∀ n, P (u.pastPacket r n)) : Does i s fun t => PastPacket s t r ∧ P t := by
  subst hgo
  exact does_of_served hr hk hi ⟨State.pastPacket_past r hd, hP _⟩

theorem launchRoute_launches {s : State} {r : Nat} (hr : s.servedRing = some r) (hk : s.packet r = .route) :
    Does .launchRoute s fun t => PastPacket s t r ∧
      ∃ tp, s.dev.tables.templates[(s.packetWord r 1).toNat]? = some tp
        ∧ let h := headerWord tp
          let n := fieldOf (h 0) 0 4
          let rs := (tp.records.take (n + 1)).map fun x : JobRecord => { x with w1 := s.packetWord r 3, w3 := s.packetWord r 2 }
          (∀ i, s.prepareAll 0 rs = .error i → t.sched.jobs = s.sched.jobs ∧ t.sched.routes = s.sched.routes)
            ∧ ∀ ls s1, s.prepareAll 0 rs = .ok (ls, s1) →
                t.sched.jobs.length = s.sched.jobs.length + (n + 1)
                  ∧ ∃ run : RouteRun, t.sched.routes = s.sched.routes ++ [run] ∧ run.id = s.sched.nextRoute
                      ∧ run.statuses = List.replicate (n + 1) none ∧ run.caddr = fieldOf (h 0) 17 47 * 8 ∧ run.scope = fieldOf (h 0) 4 3
                      ∧ run.channels = (List.range n).map fun k => ({ allowance := fieldOf (h (k + 1)) 0 6 } : Channel) := by
  obtain ⟨tp, hlook, htp, hvalid⟩ := State.template_of_packet hk
  have dev : (s.launchRoute tp (s.packetWord r 2) (s.packetWord r 3) (bitsOf (s.packetWord r 4) 0 32)).dev = s.dev := by
    cases h : s.prepareAll 0 (stageRecords tp (s.packetWord r 2) (s.packetWord r 3)) with
    | error i => exact (State.launchRoute_invalid h).dev
    | ok p => exact (State.launchRoute_valid h).2.1
  refine does_pastPacket (u := s.launchRoute tp (s.packetWord r 2) (s.packetWord r 3) (bitsOf (s.packetWord r 4) 0 32)) hr hk (by rfl)
    (by rw [htp]) (congrArg (·.ring) dev) fun n => ⟨tp, hlook, fun i h => ?_, fun ls s1 h => ?_⟩
  · have out := (State.launchRoute_invalid (tree := bitsOf (s.packetWord r 4) 0 32) h).sched
    exact ⟨congrArg (·.jobs) out, congrArg (·.routes) out⟩
  · obtain ⟨jobs, -, run, routes, id, statuses, caddr, scope, channels⟩ :=
      State.launchRoute_valid (tree := bitsOf (s.packetWord r 4) 0 32) h
    have len := stageRecords_length hvalid (s.packetWord r 2) (s.packetWord r 3)
    refine ⟨jobs.trans (congrArg _ len), run, routes, id, ?_, caddr, scope, ?_⟩
    · rw [statuses, List.map_const', len]
      rfl
    · rw [channels, templateAllowances, List.map_map]
      rfl

theorem launchJob_launches {s : State} {r : Nat} (hr : s.servedRing = some r) (hk : s.packet r = .job) :
    Does .launchJob s fun t => PastPacket s t r
      ∧ t.sched.jobs.length = s.sched.jobs.length + 1
      ∧ ∃ j ∈ t.sched.jobs, j.hosted = true ∧ j.state = .queued ∧ j.parent = 0 ∧ j.record.w0 = s.packetWord r 1
          ∧ j.record.w1 = s.packetWord r 2 ∧ j.record.w2 = s.packetWord r 3 := by
  obtain ⟨⟨list, s1⟩, hp⟩ := Option.isSome_iff_exists.mp (State.packet_checked hk)
  have out := State.prepare_outward hp
  refine does_pastPacket
    (u := (s1.accept (s.packetRecord r) (s.queueRoot (s.packetRecord r)) list [] 0).onJob s1.newId fun j => { j with hosted := true })
    hr hk (by rfl) (by rw [State.launchJob, hp]) (congrArg (·.ring) out.dev) fun n => ⟨?_, ?_⟩
  · exact (State.accept_adds ..).trans (congrArg (·.jobs.length + 1) out.sched)
  · refine ⟨_, List.mem_map_of_mem (List.mem_append_right _ (List.mem_singleton_self _)), ?_⟩
    rw [if_pos (beq_self_eq_true _)]
    exact ⟨rfl, rfl, rfl, rfl, rfl, rfl⟩

end Sys2Proof.Machine
end

section
namespace Sys2Proof.Machine
open Sys2Proof.Claims

/-! ### Packets that write (R229, R392, O57) -/

theorem bytesAt_eq_readNat (s : State) (a n : Nat) : bytesAt s a n = s.readNat a n := by
  induction n generalizing a with
  | zero => rfl
  | succ n ih => rw [bytesAt, ih]; rfl

/-- n words stored one after another. -/
def State.storeList (s : State) (pa : Nat) (w : Nat → W64) (n : Nat) : State :=
  (List.range n).foldl (fun t i => t.performNat (pa + 8 * i) 8 (w i).toNat) s

theorem State.storeList_succ (s : State) (pa : Nat) (w : Nat → W64) (n : Nat) :
    s.storeList pa w (n + 1) = (s.storeList pa w n).performNat (pa + 8 * n) 8 (w n).toNat := by
  unfold State.storeList
  rw [List.range_succ, List.foldl_append]
  rfl

theorem State.readNat_performNat_word (s : State) (a : Nat) (v : W64) : (s.performNat a 8 v.toNat).readNat a 8 = v.toNat :=
  (State.readNat_performNat ..).trans (Nat.mod_eq_of_lt v.isLt)

theorem State.readNat_performNat_apart (s : State) {a b : Nat} (v : Nat) (h : b + 8 ≤ a ∨ a + 8 ≤ b) :
    (s.performNat a 8 v).readNat b 8 = s.readNat b 8 :=
  State.readNat_perform_apart _ _ _ _ _ (by rw [leBytes_length]; exact h)

theorem State.storeList_outward (s : State) (pa : Nat) (w : Nat → W64) (n : Nat) : Outward s (s.storeList pa w n) :=
  .fold (fun _ _ => .of_perform ..) _ s

theorem State.storeList_stores (s : State) (pa : Nat) (w : Nat → W64) (n : Nat) :
    ∀ i, i < n → (s.storeList pa w n).readNat (pa + 8 * i) 8 = (w i).toNat := by
  induction n with
  | zero => exact fun i h => absurd h (Nat.not_lt_zero i)
  | succ n ih =>
    intro i hi
    rw [State.storeList_succ]
    by_cases h : i = n
    · subst h
      exact State.readNat_performNat_word ..
    · exact (State.readNat_performNat_apart _ _ (by omega)).trans (ih i (by omega))

theorem State.storeList_outside (s : State) (pa : Nat) (w : Nat → W64) (n a : Nat) (h : a < pa ∨ pa + 8 * n ≤ a) :
    (s.storeList pa w n).readByte a = s.readByte a := by
  induction n with
  | zero => rfl
  | succ n ih =>
    rw [State.storeList_succ]
    exact (State.readByte_perform_outside _ _ _ _ (by rw [leBytes_length]; omega)).trans (ih (by omega))

theorem State.storeWords_eq {s : State} {r first pa n : Nat} (h : s.packetData r first = n) :
    s.storeWords r first pa = s.storeList pa (fun i => s.packetWord r (first + i)) n := by
  subst h
  rfl

theorem exec_writePacket (s : State) : exec .writePacket s = s.onPacket .write fun r s => s.storeWords r 2 (s.packetWord r 1).toNat := rfl

theorem exec_writeSignal (s : State) : exec .writeSignal s =
    s.onPacket .signal fun r s => (s.storeWords r 4 (s.packetWord r 1).toNat).performNat (s.packetWord r 2).toNat 8 (s.packetWord r 3).toNat := rfl

theorem State.pastPacket_readByte (u : State) (r n a : Nat) : (u.pastPacket r n).readByte a = u.readByte a := rfl

theorem State.pastPacket_bytesAt (u : State) (r n a k : Nat) : bytesAt (u.pastPacket r n) a k = u.readNat a k := by
  rw [bytesAt_eq_readNat]
  exact congrArg leNat (State.readBytes_congr u _ a k fun _ _ _ => rfl)

theorem writePacket_writes {s : State} {r : Nat} (hr : s.servedRing = some r) (hk : s.packet r = .write) :
    let pa := (s.packetWord r 1).toNat
    let n := s.packetWords r - 1
    Does .writePacket s fun t => PastPacket s t r ∧ t.sched = s.sched ∧ KeepsMemoryBut s t pa (8 * n)
      ∧ ∀ i, i < n → bytesAt t (pa + 8 * i) 8 = (s.packetWord r (2 + i)).toNat := by
  intro pa n
  have hout := s.storeList_outward pa (fun i => s.packetWord r (2 + i)) n
  refine does_pastPacket hr hk (exec_writePacket s) (State.storeWords_eq (n := n) (by unfold State.packetData; omega))
    (congrArg (·.ring) hout.dev) fun _ => ⟨hout.sched, fun a h => s.storeList_outside pa _ n a h, fun i hi => ?_⟩
  rw [State.pastPacket_bytesAt]
  exact s.storeList_stores pa _ n i hi

/-- A signal packet's data and its signal word stand at double-word addresses. -/
theorem State.signal_aligned {s : State} {r : Nat} (h : s.writeOk r 4 = true) :
    (s.packetWord r 1).toNat % 8 = 0 ∧ (s.packetWord r 2).toNat % 8 = 0 := by
  unfold State.writeOk State.writable at h
  simp only [Bool.and_eq_true, Bool.or_eq_true, beq_iff_eq] at h
  obtain ⟨⟨-, ⟨pa, -⟩, -⟩, h4 | ⟨-, ⟨sg, -⟩, -⟩⟩ := h
  · cases h4
  · exact ⟨pa, sg⟩

theorem writeSignal_writes {s : State} {r : Nat} (hr : s.servedRing = some r) (hk : s.packet r = .signal) :
    let pa := (s.packetWord r 1).toNat
    let sg := (s.packetWord r 2).toNat
    let n := s.packetWords r - 3
    Does .writeSignal s fun t => PastPacket s t r ∧ t.sched = s.sched ∧ bytesAt t sg 8 = (s.packetWord r 3).toNat
      ∧ (∀ i, i < n → pa + 8 * i ≠ sg → bytesAt t (pa + 8 * i) 8 = (s.packetWord r (4 + i)).toNat)
      ∧ ∀ a, (a < pa ∨ pa + 8 * n ≤ a) → (a < sg ∨ sg + 8 ≤ a) → t.readByte a = s.readByte a := by
  intro pa sg n
  obtain ⟨hpa, hsg⟩ := State.signal_aligned (State.packet_checked hk)
  have hout := s.storeList_outward pa (fun i => s.packetWord r (4 + i)) n
  have data : s.storeWords r 4 pa = s.storeList pa (fun i => s.packetWord r (4 + i)) n :=
    State.storeWords_eq (by unfold State.packetData; omega)
  have go : (s.storeWords r 4 pa).performNat sg 8 (s.packetWord r 3).toNat =
      (s.storeList pa (fun i => s.packetWord r (4 + i)) n).performNat sg 8 (s.packetWord r 3).toNat := by rw [data]
  refine does_pastPacket hr hk (exec_writeSignal s) go (congrArg (·.ring) hout.dev) fun _ => ⟨hout.sched, ?_, fun i hi hne => ?_, fun a h1 h2 => ?_⟩
  · rw [State.pastPacket_bytesAt]
    exact State.readNat_performNat_word ..
  · rw [State.pastPacket_bytesAt]
    exact (State.readNat_performNat_apart _ _ (by omega)).trans (s.storeList_stores pa _ n i hi)
  · rw [State.pastPacket_readByte]
    exact (State.readByte_perform_outside _ _ _ _ (by rw [leBytes_length]; exact h2)).trans (s.storeList_outside pa _ n a h1)

end Sys2Proof.Machine
end

section
namespace Sys2Proof.Machine
open Sys2Proof.Claims

/-! ### ABANDON_TREE and discarded packets (R229, R391, O57) -/

theorem fieldOf_eq_bitsOf (v : W64) (lo n : Nat) : fieldOf v lo n = bitsOf v lo n := rfl

theorem abandonTree_abandons {s : State} {r : Nat} (hr : s.servedRing = some r) (hk : s.packet r = .abandon) :
    exec .abandonTree s = .next ((s.abandonTree (fieldOf (s.packetWord r 1) 0 32)).pastPacket r
      (min (s.packetEntries r) (s.dev.ringCount r))) := by
  have h : exec .abandonTree s = s.onPacket .abandon fun r s => s.abandonTree (bitsOf (s.packetWord r 1) 0 32) := rfl
  rw [h, State.onPacket_served hr hk, fieldOf_eq_bitsOf]

/-- Of a word put together from a low and a high half, each half. -/
theorem fieldOf_halves {hi lo : Nat} (hh : hi < 2 ^ 32) (hl : lo < 2 ^ 32) :
    fieldOf (BitVec.ofNat 64 (hi * 2 ^ 32 + lo)) 0 32 = lo ∧ fieldOf (BitVec.ofNat 64 (hi * 2 ^ 32 + lo)) 32 32 = hi := by
  unfold fieldOf
  rw [BitVec.toNat_ofNat]
  omega

theorem Device.rerr_countError (d : Device) (r : Nat) :
    Sparse.get 0 (d.countError r).rerr r = BitVec.ofNat 64
      (min (bitsOf (Sparse.get 0 d.rerr r) 32 32 + 1) (2 ^ 32 - 1) * 2 ^ 32 + (d.ringReg r 3).toNat % 2 ^ 32) :=
  (Sparse.get_set ..).trans (if_pos rfl)

theorem Device.countError_counts (d : Device) (r : Nat) :
    fieldOf (Sparse.get 0 (d.countError r).rerr r) 0 32 = (d.ringReg r 3).toNat % 2 ^ 32
      ∧ fieldOf (Sparse.get 0 (d.countError r).rerr r) 32 32 = min (fieldOf (Sparse.get 0 d.rerr r) 32 32 + 1) (2 ^ 32 - 1) := by
  rw [Device.rerr_countError]
  exact fieldOf_halves (hi := min (bitsOf (Sparse.get 0 d.rerr r) 32 32 + 1) (2 ^ 32 - 1)) (by omega) (Nat.mod_lt _ (by decide))

theorem Device.ring_countError (d : Device) (r : Nat) : (d.countError r).ring = d.ring := by
  obtain ⟨v, h⟩ : ∃ v, d.countError r = { d with rerr := v } := ⟨_, rfl⟩
  rw [h]

theorem State.pastPacket_rerr (u : State) (r n : Nat) : (u.pastPacket r n).dev.rerr = u.dev.rerr := rfl

theorem discardedPacket_counts {s : State} {r : Nat} (hr : s.servedRing = some r) (hk : s.packet r = .discard) :
    Does .discardedPacket s fun t => PastPacket s t r ∧ t.sched = s.sched
      ∧ (s.discardWord r = false → t.mem = s.mem)
      ∧ let old := Sparse.get 0 s.dev.rerr r
        let new := Sparse.get 0 t.dev.rerr r
        fieldOf new 0 32 = (s.dev.ringReg r 3).toNat % 2 ^ 32 ∧ fieldOf new 32 32 = min (fieldOf old 32 32 + 1) (2 ^ 32 - 1) := by
  obtain ⟨w, hw, out, plain⟩ : ∃ w, (if s.discardWord r then
        s.schedStore (s.queueRoot (s.packetRecord r)) (caddrOf (s.packetRecord r)) (wordOf 0 .faulted) else s) = w
      ∧ Outward s w ∧ (s.discardWord r = false → w = s) :=
    ⟨_, rfl, .ite _ (State.schedStore_outward ..) (.refl s), fun h => if_neg (by rw [h]; exact Bool.false_ne_true)⟩
  have go : exec .discardedPacket s = s.onPacket .discard fun r s =>
      let j := s.packetRecord r
      let s1 := if s.discardWord r then s.schedStore (s.queueRoot j) (caddrOf j) (wordOf 0 .faulted) else s
      { s1 with dev := s1.dev.countError r } := rfl
  refine does_pastPacket (u := { w with dev := s.dev.countError r }) hr hk go (by rw [← out.dev, ← hw]) (s.dev.ring_countError r) fun n =>
    ⟨out.sched, fun h => congrArg (·.mem) (plain h), ?_⟩
  rw [State.pastPacket_rerr]
  exact s.dev.countError_counts r

end Sys2Proof.Machine
end

section
namespace Sys2Proof.Machine
open Sys2Proof.Claims

/-! ### The lock, posted writes and the twin link's state (R396, R398, O57) -/

theorem Device.hallmark_extend (d : Device) (k : Nat) (m : BitVec 512) (j : Nat) :
    Sparse.get 0 (d.extend k m).hallmarks j =
      if j = k then shake256 (leBytes 64 (Sparse.get 0 d.hallmarks k).toNat ++ leBytes 64 m.toNat) else Sparse.get 0 d.hallmarks j :=
  Sparse.get_put ..

/-- Beside the hallmarks the lock sets the lock bit and the tables. -/
theorem State.lock_parts (s : State) : ∃ h, s.lock =
    { s with dev := { s.dev with locked := true, tables := s.input.tables, hallmarks := h } } := ⟨_, rfl⟩

theorem State.lock_hallmarks (s : State) : ∃ d : Device, d.hallmarks = s.dev.hallmarks ∧ s.lock.dev =
    (d.extend 4 (shake256 (s.readBytes (bitsOf s.dev.cbase 21 27 * 2 ^ 21) (s.dev.csize.toNat * 2 ^ 21)))).extend 5
      (shake256 (leBytes 8 s.dev.feaen.toNat)) := ⟨{ s.dev with locked := true, tables := s.input.tables }, rfl, rfl⟩

theorem lock_ignored {s : State} (h : s.dev.locked = true ∨ s.input.value.getLsbD 0 = false) : exec .lock s = .next s := by
  have run : exec .lock s = .next (s.writeLock s.input.value) := rfl
  rw [run, State.writeLock, if_pos (h.imp_right fun h => by rw [h]; rfl)]

theorem State.writeLock_locks {s : State} {v : W64} (h : s.dev.locked = false) (hv : v.getLsbD 0 = true) : s.writeLock v = s.lock := by
  rw [State.writeLock, if_neg (by rw [h, hv]; decide)]

theorem lock_locks {s : State} (h : s.dev.locked = false) (hv : s.input.value.getLsbD 0 = true) : Does .lock s fun t => OnlyDevice s t
    ∧ t.dev.locked = true ∧ t.dev.tables = s.input.tables ∧ t.dev.cbase = s.dev.cbase ∧ t.dev.csize = s.dev.csize
    ∧ (∀ k m, (k = 4 ∧ m = shake256 (s.readBytes (fieldOf s.dev.cbase 21 27 * 2 ^ 21) (s.dev.csize.toNat * 2 ^ 21))
          ∨ k = 5 ∧ m = shake256 (leBytes 8 s.dev.feaen.toNat)) →
        Sparse.get 0 t.dev.hallmarks k = shake256 (leBytes 64 (Sparse.get 0 s.dev.hallmarks k).toNat ++ leBytes 64 m.toNat))
    ∧ ∀ k, k ≠ 4 → k ≠ 5 → Sparse.get 0 t.dev.hallmarks k = Sparse.get 0 s.dev.hallmarks k := by
  have run : exec .lock s = .next (s.writeLock s.input.value) := rfl
  obtain ⟨d, hd, hall⟩ := s.lock_hallmarks
  obtain ⟨hm, parts⟩ := s.lock_parts
  have dev := congrArg State.dev parts
  refine ⟨s.lock, run.trans (congrArg _ (State.writeLock_locks h hv)), ?_, ?_, ?_, ?_, ?_, ?_, fun k h4 h5 => ?_⟩
  · rw [OnlyDevice, parts]
  · rw [dev]
  · rw [dev]
  · rw [dev]
  · rw [dev]
  · rintro k m (⟨rfl, rfl⟩ | ⟨rfl, rfl⟩)
    · rw [hall, Device.hallmark_extend, if_neg (by decide), Device.hallmark_extend, if_pos rfl, hd, fieldOf_eq_bitsOf]
    · rw [hall, Device.hallmark_extend, if_pos rfl, Device.hallmark_extend, if_neg (by decide), hd]
  · rw [hall, Device.hallmark_extend, if_neg h5, Device.hallmark_extend, if_neg h4, hd]

theorem postedWrite_dropped {s : State} (h : s.dev.locked = true) :
    Does .postedWrite s fun t => OnlyDevice s t ∧ t.dev.dropped = s.dev.dropped + 1 :=
  ⟨{ s with dev := { s.dev with dropped := s.dev.dropped + 1 } }, if_pos h, rfl, rfl⟩

theorem postedWrite_lands {s : State} (h : s.dev.locked = false) (ha : s.input.addr.toNat + s.input.bytes.length ≤ 0x6000000000) :
    Does .postedWrite s fun t =>
      t.mem = pokeBytes s.mem s.input.addr.toNat s.input.bytes ∧ t.dev = s.dev ∧ t.sched = s.sched ∧ t.ctx = s.ctx :=
  ⟨s.perform s.input.addr.toNat s.input.bytes, (if_neg (by rw [h]; exact Bool.false_ne_true)).trans (if_pos ha), rfl, rfl, rfl, rfl⟩

theorem fencedAcknowledge_kept {s : State} (h : (s.coreAt s.input.core.toNat).fenced = false) : exec .fencedAcknowledge s = .next s :=
  congrArg Host.Outcome.next (if_neg (by rw [h]; exact Bool.false_ne_true))

/-- An acknowledged core is fenced no more, and no other core's fence ends. -/
theorem State.acknowledge_fenced (s : State) (m n : Nat) :
    ((s.acknowledge m).coreAt n).fenced = ((s.coreAt n).fenced && decide (n ≠ m)) := by
  have freed (c : Core) : ((s.onCore m fun _ => c).coreAt n).fenced = if n = m then c.fenced else (s.coreAt n).fenced := by
    rw [State.coreAt_onCore]
    split <;> rfl
  unfold State.acknowledge
  split
  · refine (freed { s.coreAt m with fenced := false }).trans ?_
    by_cases h : n = m
    · rw [if_pos h, decide_eq_false (not_not_intro h), Bool.and_false]
    · rw [if_neg h, decide_eq_true h, Bool.and_true]
  · by_cases h : n = m
    · subst h
      rw [decide_eq_false (not_not_intro rfl), Bool.and_false]
      exact eq_false_of_ne_true ‹_›
    · rw [decide_eq_true h, Bool.and_true]

theorem fencedAcknowledge_frees {s : State} (h : (s.coreAt s.input.core.toNat).fenced = true) :
    Does .fencedAcknowledge s fun t => (t.coreAt s.input.core.toNat).fenced = false ∧ s.input.core.toNat ∉ t.dev.reported
      ∧ t.sched.choosing = true ∧ t.sched.jobs = s.sched.jobs ∧ t.ctx = s.ctx ∧ t.mem = s.mem := by
  have run : exec .fencedAcknowledge s = .next (s.acknowledge s.input.core.toNat) := rfl
  refine ⟨_, run, ?_, ?_⟩
  · rw [State.acknowledge_fenced, decide_eq_false (not_not_intro rfl), Bool.and_false]
  · rw [State.acknowledge, if_pos h]
    refine ⟨fun hm => ?_, rfl, rfl, rfl, rfl⟩
    have ne := (List.mem_filter.mp hm).2
    rw [bne_self_eq_false] at ne
    exact Bool.false_ne_true ne

theorem twinLinkUp_up (s : State) : Does .twinLinkUp s fun t => OnlyDevice s t ∧ t.dev.twinUp = true := ⟨_, rfl, rfl, rfl⟩

end Sys2Proof.Machine
end

section
namespace Sys2Proof.Machine
open Sys2Proof.Claims

/-! ### What a steward clears (R302, R332, R363, O57) -/

theorem hstatFaultClear_idle {s : State} (h : (s.chanAt s.input.core.toNat (s.input.index.toNat % 4)).fault = false) :
    exec .hstatFaultClear s = .next s :=
  congrArg Host.Outcome.next (if_neg (by rw [h]; exact Bool.false_ne_true))

theorem hstatFaultClear_clears {s : State} (h : (s.chanAt s.input.core.toNat (s.input.index.toNat % 4)).fault = true) :
    let m := s.input.core.toNat
    let ch := s.input.index.toNat % 4
    Does .hstatFaultClear s fun t =>
      (t.chanAt m ch).fault = false ∧ (t.chanAt m ch).next = (s.chanAt m ch).next
        ∧ (∀ x ∈ (t.coreAt m).xfers, x.chan = ch → x.state ≠ .faulted ∧ x.state ≠ .discarded)
        ∧ t.mem = s.mem ∧ t.ctx = s.ctx := by
  intro m ch
  have run : exec .hstatFaultClear s = .next (s.clearHaulFault m ch) := rfl
  have chan : (s.clearHaulFault m ch).chanAt m ch = { s.chanAt m ch with fault := false } := by
    rw [State.clearHaulFault, if_pos h, State.chanAt, State.trimXfers, State.onChan, State.coreAt_onCore_same, State.coreAt_onCore_same,
      State.coreAt_onCore_same]
    exact (Sparse.get_put ..).trans (if_pos rfl)
  refine ⟨_, run, by rw [chan], by rw [chan], ?_, ?_⟩
  · intro x hx hchan
    rw [State.clearHaulFault, if_pos h, State.trimXfers, State.onChan, State.coreAt_onCore_same, State.coreAt_onCore_same,
      State.coreAt_onCore_same] at hx
    obtain ⟨y, -, rfl⟩ := List.mem_map.mp (List.mem_filter.mp hx).1
    have kept := (List.mem_filter.mp hx).2
    by_cases hy : (y.chan == ch && (y.state == .faulted || y.state == .discarded)) = true
    · rw [if_pos hy] at kept
      cases kept
    · rw [if_neg hy] at hchan ⊢
      rw [hchan, beq_self_eq_true, Bool.true_and, Bool.or_eq_true, not_or, beq_iff_eq, beq_iff_eq] at hy
      exact hy
  · rw [State.clearHaulFault, if_pos h]
    exact ⟨rfl, rfl⟩

theorem cstatFaultClear_clears (s : State) : let m := s.input.core.toNat
    Does .cstatFaultClear s fun t => (t.coreAt m).codeFault = false ∧ t.mem = s.mem ∧ t.ctx = s.ctx
      ∧ ((s.coreAt m).codeFault = true → (t.coreAt m).codeDiscard = []
          ∧ ∀ i, i ∈ (t.coreAt m).codeOpen ↔ i ∈ (s.coreAt m).codeOpen ∧ i ≠ (s.coreAt m).codeFid ∧ i ∉ (s.coreAt m).codeDiscard) := by
  intro m
  have run : exec .cstatFaultClear s = .next (s.setCstat m 0) := rfl
  refine ⟨_, run, ?_⟩
  rw [State.setCstat, if_neg (by decide)]
  refine ⟨?_, rfl, rfl, fun h => ?_⟩
  · rw [State.coreAt_onCore_same]
    split
    · rfl
    · exact eq_false_of_ne_true ‹_›
  · rw [State.coreAt_onCore_same, if_pos h]
    refine ⟨rfl, fun i => List.mem_filter.trans (and_congr_right fun _ => ?_)⟩
    rw [Bool.and_eq_true, bne_iff_ne, Bool.not_eq_true', ← Bool.not_eq_true, List.contains_iff_mem]

theorem tflagsClear_clears (s : State) : let m := s.input.core.toNat
    Does .tflagsClear s fun t => t.mem = s.mem ∧ t.ctx = s.ctx
      ∧ ∀ j, j < 2 → (t.coreAt m).tflags.getLsbD j = ((s.coreAt m).tflags.getLsbD j && s.input.value.getLsbD j) := by
  intro m
  have run : exec .tflagsClear s = .next (s.setTflags m s.input.value) := rfl
  refine ⟨_, run, rfl, rfl, fun j hj => ?_⟩
  rw [State.setTflags, State.coreAt_onCore_same, BitVec.getLsbD_and, BitVec.getLsbD_setWidth, decide_eq_true hj, Bool.true_and]

/-! ### Invalidations (R104, R385, O57) -/

theorem State.sendFree_flight (s : State) (q : Message) : (s.sendFree q).mesh.flight = s.mesh.flight ++ [{ q with len := s.freeLen }] := by
  obtain ⟨core, h⟩ := s.countSent_parts q.cls q.src s.freeLen
  rw [State.sendFree, h]
  rfl

/-- A message sent changes its sender's core alone, in its counts. -/
theorem State.coreAt_sendFree (s : State) (q : Message) (m : Nat) :
    (m ≠ q.src → (s.sendFree q).coreAt m = s.coreAt m)
      ∧ ∃ cr n, (s.sendFree q).coreAt m = { s.coreAt m with cr := cr, nflit := n } := by
  have count : (s.sendFree q).coreAt m = (s.countSent q.cls q.src s.freeLen).coreAt m := rfl
  rw [count, State.countSent]
  split
  · exact ⟨fun _ => rfl, _, _, rfl⟩
  · rw [State.coreAt_onCore]
    split
    · subst m
      exact ⟨fun h => absurd rfl h, _, _, rfl⟩
    · exact ⟨fun _ => rfl, _, _, rfl⟩

theorem translationInvalidation_empties (s : State) : let m := s.input.core.toNat
    Does .translationInvalidation s fun t => (t.coreAt m).tlb = [] ∧ t.ctx = s.ctx ∧ t.mem = s.mem ∧ t.dev = s.dev
      ∧ (∃ q, t.mesh.flight = s.mesh.flight ++ [q] ∧ q.cls = .sys ∧ q.src = m)
      ∧ ∀ c, c ≠ m → t.coreAt c = s.coreAt c := by
  intro m
  have run : exec .translationInvalidation s = .next ((s.onCore m fun c => { c with tlb := [] }).sendFree
      { cls := .sys, src := m, dst := schedulerStop, tag := s.mesh.tag }) := rfl
  refine ⟨_, run, ?_, ?_⟩
  · obtain ⟨cr, n, h⟩ := (State.coreAt_sendFree (s.onCore m fun c => { c with tlb := [] })
      { cls := .sys, src := m, dst := schedulerStop, tag := s.mesh.tag } m).2
    rw [h, State.coreAt_onCore_same]
  · obtain ⟨core, mesh, h⟩ := State.sendFree_parts (s.onCore m fun c => { c with tlb := [] })
      { cls := .sys, src := m, dst := schedulerStop, tag := s.mesh.tag }
    refine ⟨by rw [h]; rfl, by rw [h]; rfl, by rw [h]; rfl, ⟨_, State.sendFree_flight .., rfl, rfl⟩, fun c hc => ?_⟩
    exact ((State.coreAt_sendFree ..).1 hc).trans ((State.coreAt_onCore ..).trans (if_neg hc))

theorem instructionCacheInvalidation_empties (s : State) : let m := s.input.core.toNat
    Does .instructionCacheInvalidation s fun t => (t.coreAt m).lines = [] ∧ (t.coreAt m).breaks = [] ∧ t.ctx = s.ctx ∧ t.mem = s.mem
      ∧ t.dev = s.dev ∧ ∀ c, c ≠ m → t.coreAt c = s.coreAt c := by
  intro m
  have run : exec .instructionCacheInvalidation s = .next (s.onCore m fun c => { c with breaks := [], lines := [] }) := rfl
  refine ⟨_, run, ?_, ?_, rfl, rfl, rfl, fun c hc => (State.coreAt_onCore ..).trans (if_neg hc)⟩ <;> rw [State.coreAt_onCore_same]

end Sys2Proof.Machine
end

section
namespace Sys2Proof.Machine
open Sys2Proof.Claims

/-! ### The twin link goes down (R394, O57) -/

/-- What a load that returns all ones needs of a context: its result is on its way, alone to its register, or has come. -/
structure Ctx.Returns (c : Ctx) (l : Late) (v : W64) : Prop where
  alone : ∀ l' ∈ c.late, l'.reg = l.reg → l' = l
  plain : c.isCoord l.reg = false
  comes : l ∈ c.late ∨ c.rd l.reg = v

/-- A result written as all ones, where it has any. -/
def Ctx.loseLate (c : Ctx) (l : Late) : Ctx := match l.ones with | some v => c.wr l.reg v | none => c

theorem Ctx.loseTwin_eq (c : Ctx) (now : Nat) :
    c.loseTwin now = (c.late.filter fun l => decide (now < l.at_) && !(c.isCoord l.reg)).foldl Ctx.loseLate c := rfl

theorem Ctx.wr_late_subset (c : Ctx) (r : Nat) (v : W64) : (c.wr r v).late ⊆ c.late := by
  unfold Ctx.wr
  split
  · exact fun _ h => h
  · exact List.filter_subset_self _

theorem Ctx.isCoord_wr (c : Ctx) (r : Nat) (v : W64) (q : Nat) : (c.wr r v).isCoord q = c.isCoord q := by
  unfold Ctx.wr
  split <;> rfl

theorem Ctx.loseLate_keeps (c : Ctx) (x : Late) :
    (c.loseLate x).late ⊆ c.late ∧ (∀ q, (c.loseLate x).isCoord q = c.isCoord q) ∧ ∀ q, q ≠ x.reg → (c.loseLate x).rd q = c.rd q := by
  unfold Ctx.loseLate
  split
  · exact ⟨Ctx.wr_late_subset .., Ctx.isCoord_wr c _ _, fun q hq => Ctx.rd_wr_other c _ hq⟩
  · exact ⟨fun _ h => h, fun _ => rfl, fun _ _ => rfl⟩

theorem Ctx.foldl_loseLate {l : Late} {v : W64} (hr : l.reg ≠ 0) (hv : l.ones = some v) (xs : List Late) :
    ∀ c : Ctx, (∀ x ∈ xs, x.reg = l.reg → x = l) → (l ∈ xs ∨ c.rd l.reg = v) →
      (xs.foldl Ctx.loseLate c).rd l.reg = v ∧ (xs.foldl Ctx.loseLate c).late ⊆ c.late
        ∧ (xs.foldl Ctx.loseLate c).isCoord l.reg = c.isCoord l.reg := by
  induction xs with
  | nil => exact fun c _ h => ⟨h.resolve_left List.not_mem_nil, fun _ h => h, rfl⟩
  | cons x xs ih =>
    intro c alone comes
    obtain ⟨late, coord, other⟩ := c.loseLate_keeps x
    have comes' : l ∈ xs ∨ (c.loseLate x).rd l.reg = v := by
      by_cases hx : x = l
      · subst hx
        right
        rw [Ctx.loseLate, hv]
        exact (Ctx.rd_wr c _ _ v hr).trans (if_pos rfl)
      · have hreg : l.reg ≠ x.reg := fun h => hx (alone x List.mem_cons_self h.symm)
        exact comes.imp (fun h => (List.mem_cons.mp h).resolve_left (Ne.symm hx)) fun h => (other _ hreg).trans h
    obtain ⟨rd, sub, co⟩ := ih (c.loseLate x) (fun y hy => alone y (List.mem_cons_of_mem _ hy)) comes'
    exact ⟨rd, fun y hy => late (sub hy), co.trans (coord _)⟩

theorem Ctx.loseTwin_returns {c : Ctx} {l : Late} {v : W64} {now : Nat} (h : c.Returns l v) (hr : l.reg ≠ 0) (hn : now < l.at_)
    (hv : l.ones = some v) : (c.loseTwin now).rd l.reg = v ∧ (c.loseTwin now).Returns l v := by
  rw [Ctx.loseTwin_eq]
  have lost (hl : l ∈ c.late) : l ∈ c.late.filter fun l => decide (now < l.at_) && !(c.isCoord l.reg) :=
    List.mem_filter.mpr ⟨hl, by rw [h.plain, decide_eq_true hn]; rfl⟩
  obtain ⟨rd, late, coord⟩ := Ctx.foldl_loseLate hr hv _ c (fun x hx => h.alone x (List.mem_filter.mp hx).1) (h.comes.imp_left lost)
  exact ⟨rd, fun x hx => h.alone x (late hx), coord.trans h.plain, .inr rd⟩

/-- Contexts changed one after another: each as often as it is listed. -/
theorem State.ctxAt_foldl_onCtx (f : Ctx → Ctx) (ks : List Nat) (s : State) (k : Nat) :
    (ks.foldl (fun s k => s.onCtx k f) s).ctxAt k = f^[ks.count k] (s.ctxAt k) := by
  induction ks generalizing s with
  | nil => rfl
  | cons j ks ih =>
    rw [List.foldl_cons, ih, State.ctxAt_onCtx, List.count_cons]
    by_cases h : k = j
    · subst h
      rw [if_pos rfl, beq_self_eq_true, if_pos rfl]
      rfl
    · rw [if_neg h, if_neg (by rw [beq_iff_eq]; exact Ne.symm h), Nat.add_zero]

theorem Sparse.get_of_not_mem {α : Type} {d : α} {m : Sparse α} {k : Nat} (h : k ∉ m.map (·.1)) : Sparse.get d m k = d := by
  induction m with
  | nil => rfl
  | cons p m ih =>
    rw [List.map_cons, List.mem_cons, not_or] at h
    obtain ⟨hp, hm⟩ := h
    rw [Sparse.get, if_neg (Ne.symm hp)]
    exact ih hm

/-- Only a context that is held has results on their way. -/
theorem State.mem_keys_of_late {s : State} {k : Nat} {l : Late} (h : l ∈ (s.ctxAt k).late) : k ∈ s.ctx.map (·.1) := by
  by_contra hk
  have empty : (ctxDefault k).late = [] := by
    unfold ctxDefault
    split <;> rfl
  rw [State.ctxAt, Sparse.get_of_not_mem hk, Option.getD_none, empty] at h
  exact List.not_mem_nil h

/-- Cores changed one after another, each once. -/
theorem State.coreAt_foldl_onCore (f : Core → Core) {ms : List Nat} (hms : ms.Nodup) (s : State) (m : Nat) :
    (ms.foldl (fun s m => s.onCore m f) s).coreAt m = if m ∈ ms then f (s.coreAt m) else s.coreAt m := by
  induction ms generalizing s with
  | nil => rfl
  | cons j ms ih =>
    obtain ⟨hj, hms⟩ := List.nodup_cons.mp hms
    rw [List.foldl_cons, ih hms, State.coreAt_onCore]
    by_cases h : m = j
    · subst h
      rw [if_neg hj, if_pos rfl, if_pos List.mem_cons_self]
    · rw [if_neg h]
      exact if_congr (List.mem_cons.trans (or_iff_right h)).symm rfl rfl

theorem State.foldl_onCore_parts (f : Core → Core) (ms : List Nat) (s : State) :
    ∃ core, ms.foldl (fun s m => s.onCore m f) s = { s with core := core } := by
  induction ms generalizing s with
  | nil => exact ⟨_, rfl⟩
  | cons m ms ih => exact ih (s.onCore m f)

theorem State.foldl_onCtx_parts (f : Ctx → Ctx) (ks : List Nat) (s : State) :
    ∃ ctx, ks.foldl (fun s k => s.onCtx k f) s = { s with ctx := ctx } := by
  induction ks generalizing s with
  | nil => exact ⟨_, rfl⟩
  | cons k ks ih => exact ih (s.onCtx k f)

/-- The notice to a core that its access through the window is lost. -/
def State.twinNotice (s : State) (m : Nat) : State :=
  s.sendFree { cls := .sys, kind := .twin, src := twinStop, dst := m, tag := s.mesh.tag }

theorem State.foldl_twinNotice (ms : List Nat) (s : State) :
    (∀ q ∈ s.mesh.flight, q ∈ (ms.foldl State.twinNotice s).mesh.flight)
      ∧ (∀ m ∈ ms, ∃ q ∈ (ms.foldl State.twinNotice s).mesh.flight, q.cls = .sys ∧ q.kind = .twin ∧ q.dst = m)
      ∧ OnlyAsked s (ms.foldl State.twinNotice s) ∧ (ms.foldl State.twinNotice s).mem = s.mem := by
  induction ms generalizing s with
  | nil => exact ⟨fun _ h => h, fun _ h => absurd h List.not_mem_nil, .refl s, rfl⟩
  | cons m ms ih =>
    obtain ⟨kept, told, asked, mem⟩ := ih (s.twinNotice m)
    have sent : (s.twinNotice m).mesh.flight = _ := State.sendFree_flight ..
    rw [sent] at kept
    refine ⟨fun q hq => kept q (List.mem_append_left _ hq), fun n hn => ?_, (OnlyAsked.of_sendFree ..).trans asked,
      mem.trans (State.sendFree_mem ..)⟩
    rcases List.mem_cons.mp hn with rfl | hn
    · exact ⟨_, kept _ (List.mem_append_right _ (List.mem_singleton_self _)), rfl, rfl, rfl⟩
    · exact told n hn

/-- A transfer in flight through the window is cut off from its answer. -/
def Core.sever (c : Core) : Core := { c with xfers := c.xfers.map fun x => if x.onTwin then { x with severed := true } else x }

/-- The link down, and the transfers through it severed. -/
def State.twinDown (s : State) : State :=
  s.twinCores.foldl (fun t m => t.onCore m Core.sever) { s with dev := { s.dev with twinUp := false } }

theorem State.twinDown_parts (s : State) : ∃ core, s.twinDown = { s with dev := { s.dev with twinUp := false }, core := core } :=
  State.foldl_onCore_parts ..

theorem exec_twinLinkDown (s : State) : exec .twinLinkDown s = .next (s.twinCores.foldl State.twinNotice
    ((s.twinDown.ctx.map (·.1)).foldl (fun (t : State) k => t.onCtx k fun c => c.loseTwin t.now) s.twinDown)) := rfl

theorem State.foldl_loseTwin (ks : List Nat) {s : State} {n : Nat} (h : s.now = n) :
    ks.foldl (fun (t : State) k => t.onCtx k fun c => c.loseTwin t.now) s = ks.foldl (fun t k => t.onCtx k fun c => c.loseTwin n) s := by
  induction ks generalizing s with
  | nil => rfl
  | cons k ks ih =>
    subst h
    exact ih (s := s.onCtx k fun c => c.loseTwin s.now) rfl

theorem Xfer.onTwin_of_span {x : Xfer} (h : x.state = .inFlight) (hs : ∃ r ∈ x.spans, inTwin r.1 = true) : x.onTwin = true := by
  unfold Xfer.onTwin
  rw [Bool.and_eq_true, h]
  exact ⟨rfl, List.any_eq_true.mpr hs⟩

theorem State.mem_twinCores {s : State} {c : Nat} (h : c < 256) : c ∈ s.twinCores ↔
    (∃ x ∈ (s.coreAt c).xfers, x.onTwin = true) ∨ ∃ q ∈ s.mesh.flight, q.src = c ∧ q.dst = twinStop ∨ q.src = twinStop ∧ q.dst = c := by
  unfold State.twinCores
  simp only [List.mem_filter, List.mem_range, h, true_and, Bool.or_eq_true, List.any_eq_true, Bool.and_eq_true, beq_iff_eq]

theorem twinLinkDown_severs (s : State) : Does .twinLinkDown s fun t => t.dev = { s.dev with twinUp := false } ∧ t.mem = s.mem ∧ t.sched = s.sched
    ∧ (∀ c, c < 256 → ∀ x ∈ (s.coreAt c).xfers, x.state = .inFlight → (∃ r ∈ x.spans, inTwin r.1 = true) →
        { x with severed := true } ∈ (t.coreAt c).xfers ∧ ∃ q ∈ t.mesh.flight, q.cls = .sys ∧ q.kind = .twin ∧ q.dst = c)
    ∧ (∀ c, c < 256 → (∃ q ∈ s.mesh.flight, q.src = c ∧ q.dst = twinStop ∨ q.src = twinStop ∧ q.dst = c) →
        ∃ q ∈ t.mesh.flight, q.cls = .sys ∧ q.kind = .twin ∧ q.dst = c)
    ∧ ∀ k, ∀ l ∈ (s.ctxAt k).late, ∀ v, l.reg ≠ 0 → s.now < l.at_ → l.ones = some v → (s.ctxAt k).isCoord l.reg = false →
        (∀ l' ∈ (s.ctxAt k).late, l'.reg = l.reg → l' = l) → (t.ctxAt k).rd l.reg = v := by
  have cores (c : Nat) (hc : c ∈ s.twinCores) : s.twinDown.coreAt c = (s.coreAt c).sever :=
    (State.coreAt_foldl_onCore Core.sever (List.nodup_range.filter _) _ c).trans (if_pos hc)
  obtain ⟨core, h2⟩ := s.twinDown_parts
  have keys : s.twinDown.ctx = s.ctx := by rw [h2]
  have same (k : Nat) : s.twinDown.ctxAt k = s.ctxAt k := by rw [State.ctxAt, keys, State.ctxAt]
  have ctxs := State.ctxAt_foldl_onCtx (fun c => c.loseTwin s.now) (s.ctx.map (·.1)) s.twinDown
  obtain ⟨ctx, h3⟩ := State.foldl_onCtx_parts (fun c => c.loseTwin s.now) (s.ctx.map (·.1)) s.twinDown
  refine ⟨_, exec_twinLinkDown s, ?_⟩
  rw [keys, State.foldl_loseTwin _ (n := s.now) (by rw [h2]; rfl), h3]
  rw [h3] at ctxs
  obtain ⟨-, told, asked, mem⟩ := State.foldl_twinNotice s.twinCores { s.twinDown with ctx := ctx }
  refine ⟨asked.dev.trans (by rw [h2]), mem.trans (by rw [h2]), asked.sched.trans (by rw [h2]), fun c hc x hx hf hs => ?_,
    fun c hc hq => told c ((State.mem_twinCores hc).mpr (.inr hq)), ?_⟩
  · have twin := Xfer.onTwin_of_span hf hs
    have hit := (State.mem_twinCores hc).mpr (.inl ⟨x, hx, twin⟩)
    refine ⟨?_, told c hit⟩
    obtain ⟨_, _, _, _, _, kept⟩ := asked.kept c
    rw [kept]
    have severed : { x with severed := true } ∈ (s.coreAt c).sever.xfers := by
      have here := List.mem_map_of_mem (f := fun x : Xfer => if x.onTwin then { x with severed := true } else x) hx
      rw [if_pos twin] at here
      exact here
    exact (cores c hit).symm ▸ severed
  · intro k l hl v hr hn hv coord alone
    have start : (s.ctxAt k).Returns l v := ⟨alone, coord, .inl hl⟩
    have step (n : Nat) : ((fun c : Ctx => c.loseTwin s.now)^[n] (s.ctxAt k)).Returns l v := by
      induction n with
      | zero => exact start
      | succ n ih =>
        rw [Function.iterate_succ_apply']
        exact (Ctx.loseTwin_returns ih hr hn hv).2
    obtain ⟨n, count⟩ := Nat.exists_eq_succ_of_ne_zero (List.count_pos_iff.mpr (State.mem_keys_of_late hl)).ne'
    have last := ctxs k
    rw [count, Function.iterate_succ_apply', same] at last
    rw [State.ctxAt, asked.ctx]
    exact (congrArg (Ctx.rd · l.reg) last).trans (Ctx.loseTwin_returns (step n) hr hn hv).1

end Sys2Proof.Machine
end

section
namespace Sys2Proof.Machine
open Sys2Proof.Claims

/-! ### Reads of BAR0 (R391, O57) -/

/-- The number whose bits below n are given. -/
theorem testBit_sumBits (p : Nat → Bool) (n : Nat) :
    let v := (List.range n).foldl (fun v i => v + if p i then 2 ^ i else 0) 0
    v < 2 ^ n ∧ ∀ i, i < n → v.testBit i = p i := by
  induction n with
  | zero => exact ⟨Nat.one_pos, fun i h => absurd h (Nat.not_lt_zero i)⟩
  | succ n ih =>
    obtain ⟨lt, bits⟩ := ih
    intro v
    have hv : v = 2 ^ n * (if p n then 1 else 0) + (List.range n).foldl (fun v i => v + if p i then 2 ^ i else 0) 0 := by
      show (List.range (n + 1)).foldl _ 0 = _
      rw [List.range_succ, List.foldl_append, Nat.add_comm, mul_ite, mul_one, mul_zero]
      rfl
    refine ⟨?_, fun i hi => ?_⟩
    · rw [hv, Nat.pow_succ]
      split <;> omega
    · rw [hv, Nat.testBit_two_pow_mul_add _ lt]
      split
      · exact bits i ‹_›
      · obtain rfl : i = n := by omega
        rw [Nat.sub_self]
        cases p i <;> rfl

/-- The word of offset 0: RDY, RECOV and the error code. -/
theorem statusWord_fields (ready recov : Bool) (e : BitVec 8) :
    let v := BitVec.ofNat 64 ((if ready then 2 ^ 63 else 0) + (if recov then 2 ^ 62 else 0) + e.toNat)
    v.getLsbD 63 = ready ∧ v.getLsbD 62 = recov ∧ fieldOf v 0 62 = e.toNat := by
  have he : e.toNat < 2 ^ 62 := Nat.lt_trans e.isLt (by decide)
  have hv : (if ready then 2 ^ 63 else 0) + (if recov then 2 ^ 62 else 0) + e.toNat =
      2 ^ 62 * ((if ready then 2 else 0) + (if recov then 1 else 0)) + e.toNat := by
    cases ready <;> cases recov <;> simp
  intro v
  have hn : v = BitVec.ofNat 64 (2 ^ 62 * ((if ready then 2 else 0) + (if recov then 1 else 0)) + e.toNat) := congrArg (BitVec.ofNat 64) hv
  have bit (i : Nat) (hi : 62 ≤ i) (hi' : i < 64) : v.getLsbD i = ((if ready then 2 else 0) + (if recov then 1 else 0)).testBit (i - 62) := by
    rw [hn, BitVec.getLsbD_ofNat, decide_eq_true hi', Bool.true_and, Nat.testBit_two_pow_mul_add _ he, if_neg (by omega)]
  refine ⟨?_, ?_, ?_⟩
  · rw [bit 63 (by decide) (by decide)]
    cases ready <;> cases recov <;> rfl
  · rw [bit 62 (by decide) (by decide)]
    cases ready <;> cases recov <;> rfl
  · rw [hn, fieldOf, BitVec.toNat_ofNat]
    cases ready <;> cases recov <;> simp <;> omega

theorem barRead_reads (s : State) (off : Nat) : ReadsAs s off (s.barRead off) := by
  refine ⟨?_, ?_, ?_, ?_, ?_, ?_, ?_, ?_, ?_, ?_⟩
  · rintro rfl
    exact statusWord_fields ..
  · rintro rfl; rfl
  · rintro rfl; rfl
  · rintro rfl; rfl
  · rintro rfl; rfl
  · rintro rfl
    show (if s.dev.locked then (1 : W64) else 0).toNat = _
    split <;> rfl
  · rintro w i hw hi rfl
    obtain ⟨-, bits⟩ := testBit_sumBits (fun i => (s.coreAt (64 * w + i)).fenced) 64
    have word : s.barRead (0x48 + 8 * w) = BitVec.ofNat 64
        ((List.range 64).foldl (fun v i => v + if (s.coreAt (64 * w + i)).fenced then 2 ^ i else 0) 0) := by
      unfold State.barRead
      dsimp only
      rw [if_neg (by omega), if_neg (by omega), if_neg (by omega), if_neg (by omega), if_neg (by omega), if_neg (by omega),
        if_pos (by omega), show (0x48 + 8 * w - 0x48) / 8 = w by omega]
    rw [word, BitVec.getLsbD_ofNat, decide_eq_true hi, Bool.true_and]
    exact bits i hi
  · rintro r i hr hi rfl
    unfold State.barRead
    dsimp only
    rw [if_neg (by omega), if_neg (by omega), if_neg (by omega), if_neg (by omega), if_neg (by omega), if_neg (by omega),
      if_neg (by omega), if_pos (by omega), show (0x1000 + 32 * r + 8 * i - 0x1000) / 32 = r by omega,
      show (0x1000 + 32 * r + 8 * i - 0x1000) % 32 / 8 = i by omega]
  · rintro r hr rfl
    unfold State.barRead
    dsimp only
    rw [if_neg (by omega), if_neg (by omega), if_neg (by omega), if_neg (by omega), if_neg (by omega), if_neg (by omega),
      if_neg (by omega), if_neg (by omega), if_pos (by omega), show (0x2000 + 8 * r - 0x2000) / 8 = r by omega]
  · rintro ⟨hl, h1, h2⟩
    simp only [List.mem_cons, List.not_mem_nil, or_false, not_or] at hl
    unfold State.barRead
    dsimp only
    rw [if_neg (by omega), if_neg (by omega), if_neg (by omega), if_neg (by omega), if_neg (by omega), if_neg (by omega),
      if_neg (by omega), if_neg (by omega), if_neg (by omega)]

end Sys2Proof.Machine
end

section
namespace Sys2Proof.Machine
open Sys2Proof.Claims

/-! ### Writes of BAR0 (R391, R396, R400, O57) -/

/-- What a write of v leaves in register i of a ring. -/
def ringTakes (old v : W64) (i : Nat) : W64 :=
  match i with
  | 0 => BitVec.ofNat 64 (bitsOf v 6 58 * 64)
  | 1 => if 4 ≤ bitsOf v 0 5 ∧ bitsOf v 0 5 ≤ 16 then BitVec.ofNat 64 (bitsOf v 0 5) else old
  | 2 => BitVec.ofNat 64 (v.toNat % 2 ^ 32)
  | _ => old

/-- What a write of v at an offset leaves of the device's registers. -/
structure Device.Took (d e : Device) (off : Nat) (v : W64) : Prop where
  feaen : e.feaen = if off = 0x28 ∧ d.locked = false then v &&& Config.feat0.setWidth 64 else d.feaen
  cbase : e.cbase = if off = 0x30 ∧ d.locked = false then BitVec.ofNat 64 (bitsOf v 21 27 * 2 ^ 21) else d.cbase
  csize : e.csize = if off = 0x38 ∧ ¬ (d.locked = true ∨ bitsOf v 0 10 = 0 ∨ 512 < bitsOf v 0 10) then BitVec.ofNat 64 (bitsOf v 0 10) else d.csize
  locked : e.locked = if off = 0x40 then d.locked || v.getLsbD 0 else d.locked
  ring : ∀ r i, i < 4 → e.ringReg r i = if r < 16 ∧ off = 0x1000 + 32 * r + 8 * i then ringTakes (d.ringReg r i) v i else d.ringReg r i

/-- A register of a ring written, and none but it. -/
theorem Device.Took.of_setRingReg (d : Device) {off r i : Nat} (v : W64) (hr : r < 16) (hi : i < 4) (hoff : off = 0x1000 + 32 * r + 8 * i) :
    d.Took (d.setRingReg r i (ringTakes (d.ringReg r i) v i)) off v := by
  subst hoff
  refine ⟨(if_neg (by omega)).symm, (if_neg (by omega)).symm, (if_neg (by omega)).symm, (if_neg (by omega)).symm, fun q j hj => ?_⟩
  rw [Device.ringReg_setRingReg _ _ _ _ hi hj]
  by_cases h : q = r ∧ j = i
  · obtain ⟨rfl, rfl⟩ := h
    rw [if_pos ⟨rfl, rfl⟩, if_pos ⟨hr, rfl⟩]
  · rw [if_neg h, if_neg (by omega)]

/-- No register changes where the offset has none that the write changes. -/
theorem Device.Took.none (d : Device) {off : Nat} (v : W64) (h28 : off ≠ 0x28) (h30 : off ≠ 0x30) (h38 : off ≠ 0x38) (h40 : off ≠ 0x40)
    (hring : ∀ r i, i < 4 → off = 0x1000 + 32 * r + 8 * i → r < 16 → ringTakes (d.ringReg r i) v i = d.ringReg r i) : d.Took d off v := by
  refine ⟨(if_neg fun h => h28 h.1).symm, (if_neg fun h => h30 h.1).symm, (if_neg fun h => h38 h.1).symm, (if_neg h40).symm, fun r i hi => ?_⟩
  split
  · next h => exact (hring r i hi h.2 h.1).symm
  · rfl

theorem Device.barWrite_took (d : Device) (off : Nat) (v : W64) (h40 : off ≠ 0x40) (hal : off % 8 = 0)
    (hbell : ¬ (0x1000 ≤ off ∧ off < 0x1200 ∧ off % 32 = 16)) : d.Took (d.barWrite off v) off v := by
  have ring {e : Device} (h : e.ring = d.ring) (hoff : off < 0x1000) (r i : Nat) (_ : i < 4) :
      e.ringReg r i = if r < 16 ∧ off = 0x1000 + 32 * r + 8 * i then ringTakes (d.ringReg r i) v i else d.ringReg r i := by
    rw [if_neg (by omega)]
    exact Device.ringReg_congr h r i
  unfold Device.barWrite
  split
  case isTrue h =>
    subst h
    split
    · exact ⟨(if_neg (by simp [*])).symm, rfl, rfl, rfl, ring rfl (by decide)⟩
    · exact ⟨(if_pos (by simp [*])).symm, rfl, rfl, rfl, ring rfl (by decide)⟩
  case isFalse h28 =>
  split
  case isTrue h =>
    subst h
    split
    · exact ⟨rfl, (if_neg (by simp [*])).symm, rfl, rfl, ring rfl (by decide)⟩
    · exact ⟨rfl, (if_pos (by simp [*])).symm, rfl, rfl, ring rfl (by decide)⟩
  case isFalse h30 =>
  split
  case isTrue h =>
    subst h
    split
    · exact ⟨rfl, rfl, (if_neg fun h => h.2 ‹_›).symm, rfl, ring rfl (by decide)⟩
    · exact ⟨rfl, rfl, (if_pos ⟨rfl, ‹_›⟩).symm, rfl, ring rfl (by decide)⟩
  case isFalse h38 =>
  split
  case isTrue h => exact .of_setRingReg d v (i := 0) (by omega) (by decide) (by omega)
  case isFalse h0 =>
  split
  case isTrue h =>
    have took := Device.Took.of_setRingReg d v (off := off) (r := (off - 0x1000) / 32) (i := 1) (by omega) (by decide) (by omega)
    by_cases hv : 4 ≤ bitsOf v 0 5 ∧ bitsOf v 0 5 ≤ 16
    · rw [if_pos hv]
      rw [ringTakes, if_pos hv] at took
      exact took
    · rw [if_neg hv]
      refine .none d v h28 h30 h38 h40 fun r i hi hoff hr => ?_
      obtain rfl : i = 1 := by omega
      exact if_neg hv
  case isFalse h1 =>
    refine .none d v h28 h30 h38 h40 fun r i hi hoff hr => ?_
    obtain rfl : i = 3 := by omega
    rfl

/-- A host's write of a register that only the device holds does as R391 says. -/
theorem writesAs_of_took {s : State} {e : Device} {off : Nat} {v : W64} (h : s.dev.Took e off v) (hcores : off < 0x48 ∨ 0x60 < off) :
    WritesAs s { s with dev := e } off v := by
  have ringAt (r i : Nat) (hr : r < 16) (hi : i < 4) (hoff : off = 0x1000 + 32 * r + 8 * i) :
      e.ringReg r i = ringTakes (s.dev.ringReg r i) v i := (h.ring r i hi).trans (if_pos ⟨hr, hoff⟩)
  refine ⟨rfl, rfl, ?_, ?_, ?_, ?_, ?_, ?_, ?_, ?_, ?_, ?_, ?_, ?_⟩
  · rintro rfl
    rw [h.feaen]
    cases s.dev.locked <;> rfl
  · rintro rfl
    rw [h.cbase, fieldOf_eq_bitsOf]
    cases hl : s.dev.locked
    · exact (if_pos ⟨rfl, rfl⟩).trans (if_neg Bool.false_ne_true).symm
    · exact (if_neg fun h => Bool.noConfusion h.2).trans (if_pos rfl).symm
  · rintro rfl
    rw [h.csize]
    by_cases hc : s.dev.locked = true ∨ bitsOf v 0 10 = 0 ∨ 512 < bitsOf v 0 10
    · rw [if_neg fun h => h.2 hc]
      exact (if_pos hc).symm
    · rw [if_pos ⟨rfl, hc⟩]
      exact (if_neg hc).symm
  · rintro rfl
    exact h.locked
  · exact fun hoff => h.locked.trans (if_neg hoff)
  · exact fun hoff => h.feaen.trans (if_neg fun h => hoff h.1)
  · exact fun hoff => h.cbase.trans (if_neg fun h => hoff h.1)
  · exact fun hoff => h.csize.trans (if_neg fun h => hoff h.1)
  · intro w i hw hi hoff
    omega
  · refine fun r hr => ⟨fun hoff => ?_, fun hoff => ringAt r 1 hr (by decide) (by omega), fun hoff => ?_⟩
    · rw [ringAt r 0 hr (by decide) (by omega), ringTakes, BitVec.toNat_ofNat, fieldOf_eq_bitsOf]
      exact Nat.mod_eq_of_lt (by have : bitsOf v 6 58 < 2 ^ 58 := Nat.mod_lt _ (by decide); omega)
    · rw [ringAt r 2 hr (by decide) (by omega), ringTakes, toNat_ofNat_mod32]
  · intro r i hi hoff
    rw [h.ring r i hi]
    split
    · next hreg =>
      obtain rfl : i = 3 := hoff.resolve_left (not_not_intro hreg.2)
      rfl
    · rfl
  · exact fun _ _ => rfl

/-- Fences acknowledged one after another: what else the device, memory and the contexts hold is as before. -/
theorem State.foldl_acknowledge (w : Nat) (is : List Nat) (s : State) :
    let t := is.foldl (fun s i => s.acknowledge (64 * w + i)) s
    (∃ reported, t.dev = { s.dev with reported := reported }) ∧ t.mem = s.mem ∧ t.ctx = s.ctx
      ∧ ∀ i, (t.coreAt (64 * w + i)).fenced = ((s.coreAt (64 * w + i)).fenced && !(is.contains i)) := by
  induction is generalizing s with
  | nil => exact ⟨⟨_, rfl⟩, rfl, rfl, fun i => (Bool.and_true _).symm⟩
  | cons j is ih =>
    obtain ⟨⟨reported, dev⟩, mem, ctx, fenced⟩ := ih (s.acknowledge (64 * w + j))
    have one : (∃ reported, (s.acknowledge (64 * w + j)).dev = { s.dev with reported := reported })
        ∧ (s.acknowledge (64 * w + j)).mem = s.mem ∧ (s.acknowledge (64 * w + j)).ctx = s.ctx := by
      unfold State.acknowledge
      split
      · exact ⟨⟨_, rfl⟩, rfl, rfl⟩
      · exact ⟨⟨_, rfl⟩, rfl, rfl⟩
    obtain ⟨⟨_, dev1⟩, mem1, ctx1⟩ := one
    refine ⟨⟨reported, dev.trans (by rw [dev1])⟩, mem.trans mem1, ctx.trans ctx1, fun i => (fenced i).trans ?_⟩
    rw [State.acknowledge_fenced, List.contains_cons, Bool.and_assoc]
    congr 1
    by_cases hij : i = j
    · subst hij
      rw [beq_self_eq_true, decide_eq_false (not_not_intro rfl)]
      rfl
    · rw [beq_eq_false_iff_ne.mpr hij, decide_eq_true (by omega)]
      rfl

theorem State.barWrite_fences {s : State} {off : Nat} {v : W64} (h : 0x48 ≤ off ∧ off ≤ 0x60) (hal : off % 8 = 0) :
    WritesAs s (s.barWrite off v) off v := by
  obtain ⟨⟨reported, dev⟩, mem, ctx, fenced⟩ :=
    State.foldl_acknowledge ((off - 0x48) / 8) ((List.range 64).filter fun i => v.getLsbD i) s
  have run : s.barWrite off v = _ := (if_neg (by omega)).trans (if_pos h)
  rw [← run] at dev mem ctx fenced
  have ring (r i : Nat) : (s.barWrite off v).dev.ringReg r i = s.dev.ringReg r i := Device.ringReg_congr (by rw [dev]) r i
  refine ⟨mem, ctx, fun _ => by omega, fun _ => by omega, fun _ => by omega, fun _ => by omega, fun _ => by rw [dev], fun _ => by rw [dev],
    fun _ => by rw [dev], fun _ => by rw [dev], ?_, ?_, fun r i _ _ => ring r i, fun _ _ => by omega⟩
  · rintro w i hw hi rfl
    have ack := fenced i
    rw [show (0x48 + 8 * w - 0x48) / 8 = w by omega] at ack
    rw [ack]
    congr 2
    rw [Bool.eq_iff_iff, List.contains_iff_mem, List.mem_filter, List.mem_range]
    exact and_iff_right hi
  · exact fun r hr => ⟨fun _ => by omega, fun _ => by omega, fun _ => by omega⟩

theorem State.barWrite_writes (s : State) {off : Nat} (v : W64) (hal : off % 8 = 0) : WritesAs s (s.barWrite off v) off v := by
  by_cases h40 : off = 0x40
  · have run : s.barWrite off v = s.writeLock v := if_pos h40
    rw [run]
    obtain ⟨e, he, took⟩ : ∃ e, s.writeLock v = { s with dev := e } ∧ s.dev.Took e off v := by
      subst h40
      by_cases hl : s.dev.locked = true ∨ (!(v.getLsbD 0)) = true
      · refine ⟨s.dev, if_pos hl, rfl, rfl, rfl, ?_, fun r i hi => (if_neg (by omega)).symm⟩
        rcases hl with hl | hl
        · rw [if_pos rfl, hl, Bool.true_or]
        · rw [if_pos rfl, (Bool.not_eq_true' _).mp hl, Bool.or_false]
      · obtain ⟨hm, parts⟩ := s.lock_parts
        rw [not_or, Bool.not_eq_true', Bool.not_eq_false] at hl
        refine ⟨_, (if_neg (by rw [hl.2]; simpa using hl.1)).trans parts, rfl, rfl, rfl, ?_, fun r i hi => ?_⟩
        · rw [if_pos rfl, hl.2, Bool.or_true]
        · exact (Device.ringReg_congr rfl r i).trans (if_neg (by omega)).symm
    rw [he]
    exact writesAs_of_took took (by omega)
  · by_cases hf : 0x48 ≤ off ∧ off ≤ 0x60
    · exact State.barWrite_fences hf hal
    · by_cases hb : 0x1000 ≤ off ∧ off < 0x1200 ∧ off % 32 = 16
      · have run : s.barWrite off v = { s with dev := s.dev.setRingReg ((off - 0x1000) / 32) 2 (ringTakes (s.dev.ringReg ((off - 0x1000) / 32) 2) v 2) } :=
          (if_neg h40).trans ((if_neg hf).trans (if_pos hb))
        rw [run]
        exact writesAs_of_took (.of_setRingReg _ v (by omega) (by decide) (by omega)) (by omega)
      · have run : s.barWrite off v = { s with dev := s.dev.barWrite off v } := (if_neg h40).trans ((if_neg hf).trans (if_neg hb))
        rw [run]
        exact writesAs_of_took (s.dev.barWrite_took off v h40 hal hb) (by omega)

end Sys2Proof.Machine
end

section
namespace Sys2Proof.Machine
open Sys2Proof.Claims

/-! ### REGISTER_WRITE, and the claim (R391, R397, O57) -/

theorem exec_registerWrite (s : State) : exec .registerWrite s = execRegisterWrite s := rfl

theorem registerWrite_unsupported {s : State} {off size : Nat} (h : s.input.port = .bar off size ∨ s.input.port = .barRead off size)
    (hal : ¬ (size = 8 ∧ off % 8 = 0)) : exec .registerWrite s = .next { s with dev := { s.dev with completion := .unsupported } } := by
  have odd : barAligned off size = false := by
    rw [barAligned, ← Bool.not_eq_true, Bool.and_eq_true, beq_iff_eq, beq_iff_eq]
    exact hal
  rw [exec_registerWrite, execRegisterWrite]
  rcases h with h | h <;> rw [h] <;> dsimp only <;> rw [odd] <;> rfl

theorem barAligned_word {off : Nat} (hal : off % 8 = 0) : barAligned off 8 = true := by
  rw [barAligned, hal]
  rfl

/-- How the access completed is no register that the claim speaks of. -/
theorem writesAs_complete {s t : State} {off : Nat} {v : W64} (h : WritesAs s t off v) (c : BarCompletion) :
    WritesAs s (t.complete_ c) off v := by
  obtain ⟨mem, ctx, c1, c2, c3, c4, c5, c6, c7, c8, c9, c10, c11, only⟩ := h
  refine ⟨mem, ctx, c1, c2, c3, c4, c5, c6, c7, c8, c9, c10, c11, fun ho h40 => ?_⟩
  have parts := only ho h40
  rw [OnlyDevice] at parts ⊢
  rw [parts]
  rfl

theorem registerWrite_writes {s : State} {off : Nat} (h : s.input.port = .bar off 8) (hal : off % 8 = 0) :
    Does .registerWrite s fun t => t.dev.completion = .written ∧ WritesAs s t off s.input.value := by
  refine ⟨(s.barWrite off s.input.value).complete_ .written, ?_, rfl, writesAs_complete (s.barWrite_writes s.input.value hal) _⟩
  rw [exec_registerWrite, execRegisterWrite, h]
  dsimp only
  rw [barAligned_word hal, if_pos rfl]

theorem registerWrite_reads {s : State} {off : Nat} (h : s.input.port = .barRead off 8) (hal : off % 8 = 0) :
    ∃ v, ReadsAs s off v ∧ exec .registerWrite s = .next { s with dev := { s.dev with completion := .read v } } := by
  refine ⟨s.barRead off, barRead_reads s off, ?_⟩
  rw [exec_registerWrite, execRegisterWrite, h]
  dsimp only
  rw [barAligned_word hal, if_pos rfl]
  rfl

theorem registerWrite_image {s : State} {i : Nat} (h : s.input.port = .image i) : Does .registerWrite s fun t => (s.dev.recov = false → t = s)
    ∧ (s.dev.recov = true → OnlyDevice s t ∧ ∀ k, k < 3 →
        t.dev.images.getD k {} = if k = i then s.input.boot.images.headD {} else s.dev.images.getD k {}) := by
  refine ⟨{ s with dev := s.dev.setImage i (s.input.boot.images.headD {}) }, ?_, fun hr => ?_, fun hr => ⟨rfl, fun k hk => ?_⟩⟩
  · rw [exec_registerWrite, execRegisterWrite, h]
  · rw [Device.setImage, hr]
    rfl
  · rw [Device.setImage, if_pos hr, List.getD_eq_getElem?_getD, List.getElem?_set]
    by_cases hki : k = i
    · subst hki
      rw [if_pos rfl, if_pos rfl, List.length_map, List.length_range, if_pos hk]
      rfl
    · rw [if_neg (Ne.symm hki), if_neg hki, List.getElem?_map, List.getElem?_range hk]
      rfl

theorem registerWrite_cr {s : State} {c n} (h : s.input.port = .cr c n) :
    exec .registerWrite s = .next (if crAssigned n.toNat then s.crWrite (4096 + c.toNat) n.toNat s.input.value else s) := by
  rw [exec_registerWrite, execRegisterWrite, h]
  dsimp only
  split <;> rfl

/-- Settles O57: step by step, each as its lemma above says. -/
theorem hostSteps : Obligations.HostSteps := by
  intro s
  refine ⟨doorbell_sets s, fun r hr => ⟨launchRoute_launches hr, launchJob_launches hr, writePacket_writes hr, writeSignal_writes hr,
      abandonTree_abandons hr, discardedPacket_counts hr⟩, sliceExpiry_passes s, ?_⟩
  refine ⟨fun off size => registerWrite_unsupported, fun off => registerWrite_writes, fun off => registerWrite_reads,
    fun i => registerWrite_image, fun c n => registerWrite_cr, ?_⟩
  refine ⟨⟨hstatFaultClear_idle, hstatFaultClear_clears⟩, cstatFaultClear_clears s, tflagsClear_clears s, ?_⟩
  exact ⟨lock_ignored, lock_locks, postedWrite_dropped, postedWrite_lands, fencedAcknowledge_frees, fencedAcknowledge_kept,
    twinLinkUp_up s, twinLinkDown_severs s, translationInvalidation_empties s, instructionCacheInvalidation_empties s⟩

end Sys2Proof.Machine
end

section
namespace Sys2Proof.Machine
open Sys2Proof.Claims

/-! ### Tiles and chunks (R114, R295, O60) -/

theorem State.setTile_some (s : State) (m id : Nat) (t : Tile) (n j : Nat) :
    Sparse.get none ((s.setTile m id (some t)).coreAt n).tiles j =
      if n = m ∧ j = id then some t else Sparse.get none (s.coreAt n).tiles j := by
  unfold State.setTile
  rw [State.coreAt_onCore]
  by_cases h : n = m
  · subst h
    rw [if_pos rfl]
    refine (Sparse.get_put ..).trans ?_
    by_cases g : j = id
    · rw [if_pos g, if_pos ⟨rfl, g⟩]
    · rw [if_neg g, if_neg fun h => g h.2]
  · rw [if_neg h, if_neg fun g => h g.1]

/-- A tile changed, where it is defined, and no other. -/
theorem State.tiles_onTile (s : State) (m id : Nat) (f : Tile → Tile) (n j : Nat) :
    Sparse.get none ((s.onTile m id f).coreAt n).tiles j =
      if n = m ∧ j = id then (Sparse.get none (s.coreAt m).tiles id).map f else Sparse.get none (s.coreAt n).tiles j := by
  unfold State.onTile
  split
  · next h =>
    by_cases g : n = m ∧ j = id
    · obtain ⟨rfl, rfl⟩ := g
      rw [if_pos ⟨rfl, rfl⟩, h, Option.map_none]
    · rw [if_neg g]
  · next t h =>
    rw [State.setTile_some]
    by_cases g : n = m ∧ j = id
    · rw [if_pos g, if_pos g, h, Option.map_some]
    · rw [if_neg g, if_neg g]

/-- Only a table of tiles changes with a tile. -/
theorem State.onTile_core (s : State) (m id : Nat) (f : Tile → Tile) :
    (∃ core, s.onTile m id f = { s with core := core })
      ∧ ∀ n, ∃ ts, (s.onTile m id f).coreAt n = { s.coreAt n with tiles := ts } := by
  unfold State.onTile
  split
  · exact ⟨⟨_, rfl⟩, fun n => ⟨_, rfl⟩⟩
  · refine ⟨⟨_, rfl⟩, fun n => ?_⟩
    unfold State.setTile
    rw [State.coreAt_onCore]
    split
    · subst n
      exact ⟨_, rfl⟩
    · exact ⟨_, rfl⟩

/-- What of a core does not hang on its tiles is as before. -/
theorem State.onTile_field {α : Type} (f : Core → α) (hf : ∀ c ts, f { c with tiles := ts } = f c) (s : State) (m id : Nat)
    (g : Tile → Tile) (n : Nat) : f ((s.onTile m id g).coreAt n) = f (s.coreAt n) := by
  obtain ⟨ts, h⟩ := (s.onTile_core m id g).2 n
  rw [h, hf]

/-- What of a core an access does not change is as before. -/
theorem Outward.field {α : Type} (f : Core → α)
    (hf : ∀ c tlb cr n home unseen, f { c with tlb := tlb, cr := cr, nflit := n, home := home, unseen := unseen } = f c) {s t : State}
    (h : Outward s t) (m : Nat) : f (t.coreAt m) = f (s.coreAt m) := by
  obtain ⟨_, _, _, _, _, kept⟩ := h.kept m
  rw [kept, hf]

theorem State.onTile_mem (s : State) (m id : Nat) (g : Tile → Tile) : (s.onTile m id g).mem = s.mem := by
  obtain ⟨core, h⟩ := (s.onTile_core m id g).1
  rw [h]

theorem pokeBytes_append (m : Sparse Byte) (a : Nat) (xs ys : List Byte) :
    pokeBytes m a (xs ++ ys) = pokeBytes (pokeBytes m a xs) (a + xs.length) ys := by
  induction xs generalizing m a with
  | nil => rfl
  | cons x xs ih => rw [List.cons_append, pokeBytes, ih, List.length_cons, pokeBytes, Nat.add_assoc, Nat.add_comm 1]

theorem State.performChunks_core (s : State) (cs : List (Nat × List Byte)) : (s.performChunks cs).core = s.core := by
  unfold State.performChunks
  induction cs generalizing s with
  | nil => rfl
  | cons c cs ih => exact ih (s.perform c.1 c.2)

/-- Chunks performed one after another leave what one store of them all leaves. -/
theorem State.performChunks_chunks (k : Nat) (s : State) (a : Nat) (bs : List Byte) (h : bs.length + a % 64 ≤ 64 * k) :
    (s.performChunks (chunks k a bs)).mem = pokeBytes s.mem a bs := by
  induction k generalizing s a bs with
  | zero =>
    obtain rfl : bs = [] := List.length_eq_zero_iff.mp (by omega)
    rfl
  | succ k ih =>
    rw [chunks]
    split
    · next he =>
      rw [List.isEmpty_iff.mp he]
      rfl
    · have step : s.performChunks ((a, bs.take (64 - a % 64)) :: chunks k (a + (64 - a % 64)) (bs.drop (64 - a % 64))) =
          (s.perform a (bs.take (64 - a % 64))).performChunks (chunks k (a + (64 - a % 64)) (bs.drop (64 - a % 64))) := rfl
      rw [step, ih _ _ _ (by rw [List.length_drop]; omega), State.perform_mem]
      conv => rhs; rw [← List.take_append_drop (64 - a % 64) bs, pokeBytes_append]
      by_cases hl : 64 - a % 64 ≤ bs.length
      · rw [List.length_take, Nat.min_eq_left hl]
      · rw [List.drop_eq_nil_of_le (by omega)]
        rfl

theorem State.performChunks_chunksAt (s : State) (a : Nat) (bs : List Byte) :
    (s.performChunks (chunksAt a bs)).mem = pokeBytes s.mem a bs :=
  State.performChunks_chunks _ _ _ _ (by omega)

theorem runChunks_one (a n : Nat) {bs : List Byte} (h : bs.length = n) : runChunks [(a, n)] bs = chunksAt a bs := by
  rw [runChunks, List.take_of_length_le (by omega)]
  exact List.append_nil _

theorem State.readRuns_one (s : State) (a n : Nat) : s.readRuns [(a, n)] = s.readBytes a n := List.append_nil _

/-! ### Transfers (R296 to R301, O60) -/

/-- What each transfer of a name becomes. -/
theorem xferNow_onXfer (s : State) (m : Nat) (x : Xfer) {f : Xfer → Xfer} {P : Xfer → Prop}
    (h : ∀ z, z.chan = x.chan → z.id = x.id → P (f z)) : XferNow (s.onXfer m x.chan x.id f) m x P := by
  intro y hy hc hi
  unfold State.onXfer at hy
  rw [State.coreAt_onCore_same] at hy
  obtain ⟨z, -, rfl⟩ := List.mem_map.mp hy
  by_cases hz : (z.chan == x.chan && z.id == x.id) = true
  · rw [if_pos hz]
    rw [Bool.and_eq_true, beq_iff_eq, beq_iff_eq] at hz
    exact h z hz.1 hz.2
  · rw [if_neg hz] at hc hi
    rw [hc, hi, beq_self_eq_true, beq_self_eq_true] at hz
    exact absurd rfl hz

theorem State.onXfer_core (s : State) (m c i : Nat) (f : Xfer → Xfer) (n : Nat) :
    ∃ xs, (s.onXfer m c i f).coreAt n = { s.coreAt n with xfers := xs } := by
  unfold State.onXfer
  rw [State.coreAt_onCore]
  split
  · subst n
    exact ⟨_, rfl⟩
  · exact ⟨_, rfl⟩

theorem State.tiles_onXfer (s : State) (m c i : Nat) (f : Xfer → Xfer) (n : Nat) :
    ((s.onXfer m c i f).coreAt n).tiles = (s.coreAt n).tiles := by
  obtain ⟨xs, h⟩ := s.onXfer_core m c i f n
  rw [h]

/-- The step named no transfer of the core. -/
theorem State.onNamedXfer_none {s : State} {f : Nat → Xfer → State}
    (h : (s.coreAt s.input.core.toNat).xfers.find? (fun x => x.chan == s.input.index.toNat && x.id == s.input.num.toNat) = none) :
    s.onNamedXfer f = .next s := by
  rw [State.onNamedXfer, h]

theorem State.onNamedXfer_some {s : State} {f : Nat → Xfer → State} {x : Xfer}
    (h : (s.coreAt s.input.core.toNat).xfers.find? (fun x => x.chan == s.input.index.toNat && x.id == s.input.num.toNat) = some x) :
    s.onNamedXfer f = .next (f s.input.core.toNat x) := by
  rw [State.onNamedXfer, h]

end Sys2Proof.Machine
end

section
namespace Sys2Proof.Machine
open Sys2Proof.Claims

/-! ### A transfer starts (R296, R298, O60) -/

theorem State.startSpan_outward {s s1 : State} {m : Nat} {x : Xfer} {rs : List (Nat × Nat)} (h : s.startSpan m x = .ok (rs, s1)) :
    Outward s s1 := by
  unfold State.startSpan at h
  split at h
  · cases h
  · split at h
    · cases h
    · split at h
      · cases h
      · split at h
        · cases h
        · next hr =>
          cases h
          exact .of_translated (State.engineSpan_frame _ hr)

theorem State.startXfer_idle {s : State} {m : Nat} {x : Xfer} (h : s.xferStarts m x = false) : s.startXfer m x = s :=
  if_pos (by rw [h]; rfl)

/-- What a start finds of the memory side: the fault's code, the runs and the state after it. -/
def State.startFinds (s : State) (m : Nat) (x : Xfer) : Nat × List (Nat × Nat) × State :=
  match s.startSpan m x with
  | .error code => (code, [], if code = 4 ∨ code = 5 ∨ code = x.code then s else s.walkFaulting m x.root (if x.drain then .write else .read) (x.pieces))
  | .ok (runs, s1) => (0, runs, s1.engineRequests m m x.root x.drain x.pieces)

theorem State.startFinds_outward (s : State) (m : Nat) (x : Xfer) : Outward s (s.startFinds m x).2.2 := by
  unfold State.startFinds
  split
  · exact .ite _ (.refl s) (OnlyAsked.of_walkFaulting ..).toOutward
  · next hr => exact (State.startSpan_outward hr).trans (OnlyAsked.of_engineRequests ..).toOutward

/-- What a start makes of its tile. -/
def startTile (start : TileStart) (x : Xfer) (t : Tile) : Tile :=
  match start with
  | .fill => { t.take .filling 1 with arr := 0, by_ := x.pc }
  | .drain => { t.take .draining 1 with by_ := x.pc }
  | _ => t

/-- A transfer in flight, with the fault it is to record and its runs. -/
def Xfer.depart (code : Nat) (holds : Bool) (runs : List (Nat × Nat)) (y : Xfer) : Xfer :=
  { y with state := .inFlight, code := code, holds := holds, spans := runs }

/-- How a transfer starts that has bytes to move. -/
theorem State.startXfer_eq {s : State} {m : Nat} {x : Xfer} (h : s.xferStarts m x = true) (hl : x.len ≠ 0) :
    (∃ code, s.startXfer m x = s.onXfer m x.chan x.id (Xfer.depart code false [])
        ∧ tileStart (s.xferTile m x) x ≠ .fill ∧ tileStart (s.xferTile m x) x ≠ .drain)
      ∨ s.startXfer m x = ((s.startFinds m x).2.2.onTile m x.tile (startTile (tileStart (s.xferTile m x) x) x)).onXfer m x.chan x.id
          (Xfer.depart (s.startFinds m x).1 true (s.startFinds m x).2.1) := by
  unfold State.startXfer
  rw [h, Bool.not_true, if_neg Bool.false_ne_true]
  dsimp only
  split
  · next hs => exact .inl ⟨_, rfl, by rw [hs]; exact ⟨nofun, nofun⟩⟩
  · next hs => exact .inl ⟨_, rfl, by rw [hs]; exact ⟨nofun, nofun⟩⟩
  · rw [if_neg hl]
    exact .inr rfl

theorem State.startXfer_inFlight {s : State} {m : Nat} {x : Xfer} (h : s.xferStarts m x = true) (hl : x.len ≠ 0) :
    XferNow (s.startXfer m x) m x fun z => z.state = .inFlight := by
  rcases State.startXfer_eq h hl with ⟨code, he, -⟩ | he
  · rw [he]
    exact xferNow_onXfer _ _ _ fun _ _ _ => rfl
  · rw [he]
    exact xferNow_onXfer _ _ _ fun _ _ _ => rfl

theorem State.startXfer_tile {s : State} {m : Nat} {x : Xfer} {tl : Tile} (h : s.xferStarts m x = true) (hl : x.len ≠ 0)
    (ht : s.xferTile m x = some tl) (hs : tileStart (some tl) x = .fill ∨ tileStart (some tl) x = .drain) :
    Sparse.get none ((s.startXfer m x).coreAt m).tiles x.tile = some (startTile (tileStart (some tl) x) x tl) := by
  have here : Sparse.get none (s.coreAt m).tiles x.tile = some tl := by
    unfold State.xferTile State.tile? at ht
    split at ht
    · cases ht
    · split at ht <;> cases ht
      assumption
  rcases State.startXfer_eq h hl with ⟨code, -, nofill, nodrain⟩ | he
  · rw [ht] at nofill nodrain
    exact (hs.elim nofill nodrain).elim
  · rw [he, State.tiles_onXfer, State.tiles_onTile, if_pos ⟨rfl, rfl⟩, (s.startFinds_outward m x).tiles m, here, ht]
    rfl

/-! ### A transfer completes, or is struck, or records its fault (R296, R301, O60) -/

theorem unsampled_congr {s t : State} (q : Unsampled s) (h : ∀ m, (t.coreAt m).cr = (s.coreAt m).cr) : Unsampled t := by
  intro m
  have cr : (t.coreAt m).crGet 0x484 = (s.coreAt m).crGet 0x484 := by rw [Core.crGet, h, Core.crGet]
  rw [cr]
  exact q m

theorem xferNow_trimXfers {s : State} {m : Nat} {x : Xfer} (h : XferNow s m x fun z => z.state = .finished) :
    XferNow (s.trimXfers m) m x fun _ => False := by
  intro y hy hc hi
  rw [State.trimXfers, State.coreAt_onCore_same] at hy
  obtain ⟨hm, kept⟩ := List.mem_filter.mp hy
  rw [h y hm hc hi] at kept
  cases kept

theorem State.trimXfers_tiles (s : State) (m : Nat) : ((s.trimXfers m).coreAt m).tiles = (s.coreAt m).tiles := by
  rw [State.trimXfers, State.coreAt_onCore_same]

/-- A transfer marked as completed. -/
def Xfer.finish (y : Xfer) : Xfer := { y with state := .finished }

/-- The transfers of a tile still in flight once those of a name have completed. -/
theorem State.tileXfers_finish (s : State) (m : Nat) (x : Xfer) (tile : Nat) (d : Bool) :
    (s.onXfer m x.chan x.id Xfer.finish).tileXfers m tile d = 0 ↔
      ¬ ∃ y ∈ (s.coreAt m).xfers, ¬ (y.chan = x.chan ∧ y.id = x.id) ∧ y.state = .inFlight ∧ y.holds = true ∧ y.tile = tile ∧ y.drain = d := by
  unfold State.tileXfers State.onXfer
  rw [State.coreAt_onCore_same, List.length_eq_zero_iff, List.filter_eq_nil_iff]
  constructor
  · rintro none ⟨y, hy, other, fly, holds, rfl, rfl⟩
    refine none y (List.mem_map.mpr ⟨y, hy, if_neg ?_⟩) ?_
    · rw [Bool.and_eq_true, beq_iff_eq, beq_iff_eq]
      exact other
    · rw [fly, holds, beq_self_eq_true, beq_self_eq_true, beq_self_eq_true]
      rfl
  · intro none z hz hp
    obtain ⟨y, hy, rfl⟩ := List.mem_map.mp hz
    simp only [Bool.and_eq_true, beq_iff_eq] at hp
    obtain ⟨⟨⟨fly, holds⟩, tile⟩, drain⟩ := hp
    by_cases hn : y.chan = x.chan ∧ y.id = x.id
    · rw [if_pos hn] at fly
      cases fly
    · rw [if_neg hn] at fly holds tile drain
      exact none ⟨y, hy, hn, fly, holds, tile, drain⟩

/-- The state in which a transfer's bytes have moved. -/
def State.stored (s : State) (m : Nat) (x : Xfer) : State :=
  if x.severed then (s.performChunks (s.xferWrites m x)).freshen (2 ^ 44) else s.performChunks (s.xferWrites m x)

theorem State.stored_coreAt (s : State) (m : Nat) (x : Xfer) (n : Nat) : (s.stored m x).coreAt n = s.coreAt n := by
  unfold State.stored
  split <;> exact congrArg (fun c => Sparse.get coreDefault c n) (State.performChunks_core s (s.xferWrites m x))

/-- And in which it counts as completed. -/
def State.moved (s : State) (m : Nat) (x : Xfer) : State := (s.stored m x).onXfer m x.chan x.id Xfer.finish

theorem State.completeXfer_eq {s : State} {m : Nat} {x : Xfer} (hf : x.state = .inFlight) (hc : x.code = 0) :
    s.completeXfer m x = (((s.moved m x).xferDone m x).tally m x.key 14 x.len).trimXfers m :=
  if_neg (by rw [hf, hc]; exact fun h => h.elim (fun h => h rfl) fun h => h rfl)

theorem State.moved_core (s : State) (m : Nat) (x : Xfer) (n : Nat) : ∃ xs, (s.moved m x).coreAt n = { s.coreAt n with xfers := xs } := by
  obtain ⟨xs, h⟩ := (s.stored m x).onXfer_core m x.chan x.id Xfer.finish n
  rw [State.stored_coreAt] at h
  exact ⟨xs, h⟩

theorem State.tileXfers_moved (s : State) (m : Nat) (x : Xfer) (tile : Nat) (d : Bool) :
    (s.moved m x).tileXfers m tile d = 0 ↔
      ¬ ∃ y ∈ (s.coreAt m).xfers, ¬ (y.chan = x.chan ∧ y.id = x.id) ∧ y.state = .inFlight ∧ y.holds = true ∧ y.tile = tile ∧ y.drain = d := by
  rw [State.moved, State.tileXfers_finish, State.stored_coreAt]

theorem State.stored_mem (s : State) (m : Nat) (x : Xfer) : (s.stored m x).mem = (s.performChunks (s.xferWrites m x)).mem := by
  unfold State.stored
  split <;> rfl

/-- What a transfer stores of its tile, or into it. -/
theorem State.stored_bytes {s : State} {m : Nat} {x : Xfer} {tl : Tile} (ht : Sparse.get none (s.coreAt m).tiles x.tile = some tl)
    (hs : x.severed = false) :
    (x.drain = false → (s.readRuns x.spans).length = x.len → (s.stored m x).mem = pokeBytes s.mem (tileLoc m tl + x.toff) (s.readRuns x.spans))
      ∧ ∀ a, x.drain = true → x.spans = [(a, x.len)] →
          (s.stored m x).mem = pokeBytes s.mem a (s.readBytes (tileLoc m tl + x.toff) x.len) := by
  have writes : s.xferWrites m x = if x.drain then runChunks x.spans (s.readRuns [(tileLoc m tl + x.toff, x.len)])
      else runChunks [(tileLoc m tl + x.toff, x.len)] (s.readRuns x.spans) := by
    rw [State.xferWrites, ht]
    dsimp only
    rw [State.xferKept, State.xferRead, hs, if_neg Bool.false_ne_true, if_neg Bool.false_ne_true]
  rw [State.stored_mem, writes]
  refine ⟨fun hd hl => ?_, fun a hd hsp => ?_⟩
  · rw [hd, if_neg Bool.false_ne_true, runChunks_one _ _ hl, State.performChunks_chunksAt]
  · rw [hd, if_pos rfl, hsp, State.readRuns_one, runChunks_one _ _ (State.readBytes_length ..), State.performChunks_chunksAt]

/-- The tile of a transfer that has completed. -/
theorem State.xferDone_tile {s : State} {m : Nat} {x : Xfer} {tl : Tile} (ht : Sparse.get none (s.coreAt m).tiles x.tile = some tl) :
    Sparse.get none (((s.moved m x).xferDone m x).coreAt m).tiles x.tile = some (
      if x.drain then (if (s.moved m x).tileXfers m x.tile true = 0 ∧ tl.state = .draining then tl.release else tl)
      else if tl.len ≤ arrAdd tl.arr x.len ∧ (s.moved m x).tileXfers m x.tile false = 0 ∧ tl.state = .filling then
        { tl with arr := arrAdd tl.arr x.len, state := .ready, owner := 0 } else { tl with arr := arrAdd tl.arr x.len }) := by
  obtain ⟨xs, core⟩ := s.moved_core m x m
  rw [State.xferDone, State.tiles_onTile, if_pos ⟨rfl, rfl⟩, core, ht, Option.map_some]
  rfl

theorem State.xferDone_eq (s : State) (m : Nat) (x : Xfer) : ∃ f, s.xferDone m x = s.onTile m x.tile f := ⟨_, rfl⟩

theorem State.completeXfer_outcome {s : State} {m : Nat} {x : Xfer} (hf : x.state = .inFlight) (hc : x.code = 0) :
    XferNow (s.completeXfer m x) m x (fun _ => False)
      ∧ ∀ tl, Sparse.get none (s.coreAt m).tiles x.tile = some tl → TransferDone s (s.completeXfer m x) m x tl := by
  obtain ⟨f, done⟩ := (s.moved m x).xferDone_eq m x
  have tally := OnlyAsked.of_tally ((s.moved m x).xferDone m x) m x.key 14 x.len
  rw [State.completeXfer_eq hf hc]
  refine ⟨xferNow_trimXfers ?_, fun tl ht => ?_⟩
  · have same : ((((s.moved m x).xferDone m x).tally m x.key 14 x.len).coreAt m).xfers = ((s.moved m x).coreAt m).xfers := by
      rw [tally.field Core.xfers (fun _ _ _ _ _ _ => rfl), done, State.onTile_field Core.xfers (fun _ _ => rfl)]
    intro y hy
    rw [same] at hy
    exact xferNow_onXfer (P := fun z => z.state = .finished) (s.stored m x) m x (fun _ _ _ => rfl) y hy
  · have now := State.xferDone_tile ht
    rw [← tally.tiles m, ← State.trimXfers_tiles] at now
    refine ⟨fun q hs => ?_, fun hd => ?_, fun hd => ?_⟩
    · have quiet : Unsampled ((s.moved m x).xferDone m x) := unsampled_congr q fun n => by
        obtain ⟨xs, core⟩ := s.moved_core m x n
        rw [done, State.onTile_field Core.cr (fun _ _ => rfl), core]
      have mem : ((((s.moved m x).xferDone m x).tally m x.key 14 x.len).trimXfers m).mem = (s.stored m x).mem :=
        (tally.mem quiet).trans (by rw [done, State.onTile_mem]; rfl)
      rw [mem]
      exact State.stored_bytes ht hs
    · have rest := s.tileXfers_moved m x x.tile false
      rw [now, hd, if_neg Bool.false_ne_true]
      exact ⟨fun ⟨hl, ho, hs⟩ => congrArg some (if_pos ⟨hl, rest.mpr ho, hs⟩),
        fun h => congrArg some (if_neg fun ⟨hl, ho, hs⟩ => h ⟨hl, rest.mp ho, hs⟩)⟩
    · have rest := s.tileXfers_moved m x x.tile true
      rw [now, hd, if_pos rfl]
      exact ⟨fun ⟨ho, hs⟩ => congrArg some (if_pos ⟨rest.mpr ho, hs⟩), fun h => congrArg some (if_neg fun ⟨ho, hs⟩ => h ⟨rest.mp ho, hs⟩)⟩

/-- How many leading chunks a struck transfer has written. -/
def State.struckChunks (s : State) (m : Nat) (x : Xfer) : Nat :=
  match s.xferLost x with
  | some i => if s.input.struck then min (chunksBefore i (s.xferWrites m x)) s.input.value.toNat else chunksBefore i (s.xferWrites m x)
  | none => s.input.value.toNat

theorem State.strikeXfer_outcome {s : State} {m : Nat} {x : Xfer} (hf : x.state = .inFlight) (hc : x.code = 0) :
    XferNow (s.strikeXfer m x) m x (fun z => z.code = 7)
      ∧ ∃ n, (s.xferLost x = none → n = s.input.value.toNat)
        ∧ (Unsampled s → (s.strikeXfer m x).mem = (s.performChunks ((s.xferWrites m x).take n)).mem) := by
  have eq : s.strikeXfer m x = ((s.performChunks ((s.xferWrites m x).take (s.struckChunks m x))).tally m x.key 14
      (chunkBytes ((s.xferWrites m x).take (s.struckChunks m x)))).onXfer m x.chan x.id fun y => { y with code := 7 } :=
    if_neg (by rw [hf, hc]; exact fun h => h.elim (fun h => h rfl) fun h => h rfl)
  rw [eq]
  refine ⟨xferNow_onXfer _ _ _ fun _ _ _ => rfl, s.struckChunks m x, fun hl => by rw [State.struckChunks, hl], fun q => ?_⟩
  refine (OnlyAsked.of_tally ..).mem (unsampled_congr q fun n => ?_)
  rw [State.coreAt, State.performChunks_core]
  rfl

theorem State.chanAt_onChan (s : State) (m ch : Nat) (f : HaulChan → HaulChan) (n d : Nat) :
    (s.onChan m ch f).chanAt n d = if n = m ∧ d = ch then f (s.chanAt m ch) else s.chanAt n d := by
  unfold State.chanAt State.onChan
  rw [State.coreAt_onCore]
  by_cases h : n = m
  · subst h
    rw [if_pos rfl]
    refine (Sparse.get_put ..).trans ?_
    by_cases g : d = ch
    · rw [if_pos g, if_pos ⟨rfl, g⟩]
    · rw [if_neg g, if_neg fun h => g h.2]
  · rw [if_neg h, if_neg fun g => h g.1]

theorem State.chanAt_onXfer (s : State) (m c i : Nat) (f : Xfer → Xfer) (n d : Nat) : (s.onXfer m c i f).chanAt n d = s.chanAt n d := by
  obtain ⟨xs, h⟩ := s.onXfer_core m c i f n
  rw [State.chanAt, h, State.chanAt]

/-- A tile given up after a fault changes nothing but the tile. -/
theorem State.xferAbandonTile_eq (s : State) (m : Nat) (x : Xfer) :
    s.xferAbandonTile m x = s ∨ ∃ f, s.xferAbandonTile m x = s.onTile m x.tile f := by
  unfold State.xferAbandonTile
  split
  · exact .inl rfl
  · split <;> split
    · exact .inr ⟨_, rfl⟩
    · exact .inl rfl
    · exact .inr ⟨_, rfl⟩
    · exact .inl rfl

theorem State.xferAbandonTile_keeps (s : State) (m : Nat) (x : Xfer) :
    (s.xferAbandonTile m x).mem = s.mem ∧ ∀ n d, (s.xferAbandonTile m x).chanAt n d = s.chanAt n d := by
  rcases s.xferAbandonTile_eq m x with h | ⟨f, h⟩
  · rw [h]
    exact ⟨rfl, fun _ _ => rfl⟩
  · rw [h]
    refine ⟨s.onTile_mem .., fun n d => ?_⟩
    rw [State.chanAt, State.onTile_field Core.chans (fun _ _ => rfl), State.chanAt]

theorem State.recordFault_outcome (s : State) (m : Nat) (x : Xfer) (code : Nat) :
    (s.recordFault m x code).mem = s.mem
      ∧ ((s.chanAt m x.chan).fault = true → (s.recordFault m x code).chanAt m x.chan = s.chanAt m x.chan)
      ∧ ((s.chanAt m x.chan).fault = false →
          (s.recordFault m x code).chanAt m x.chan = { s.chanAt m x.chan with fault := true, code := code, fid := x.id }) := by
  unfold State.recordFault
  split
  · next h => exact ⟨rfl, fun _ => State.chanAt_onXfer .., fun h' => absurd h (by rw [h']; exact Bool.false_ne_true)⟩
  · next h =>
    refine ⟨rfl, fun h' => absurd h' h, fun _ => ?_⟩
    rw [State.chanAt_onChan, if_pos ⟨rfl, rfl⟩, State.chanAt_onXfer]

theorem State.faultXfer_outcome {s : State} {m : Nat} {x : Xfer} (hf : x.state = .inFlight) (hc : x.code ≠ 0) :
    (s.faultXfer m x).mem = s.mem ∧ ((s.faultXfer m x).chanAt m x.chan).fault = true
      ∧ ((s.chanAt m x.chan).fault = false →
          ((s.faultXfer m x).chanAt m x.chan).code = x.code ∧ ((s.faultXfer m x).chanAt m x.chan).fid = x.id)
      ∧ ((s.chanAt m x.chan).fault = true → (s.faultXfer m x).chanAt m x.chan = s.chanAt m x.chan) := by
  have eq : s.faultXfer m x = (s.recordFault m x x.code).xferAbandonTile m x := if_neg (by rw [hf]; exact fun h => h.elim (fun h => h rfl) hc)
  obtain ⟨mem, chan⟩ := (s.recordFault m x x.code).xferAbandonTile_keeps m x
  obtain ⟨mem1, old, new⟩ := s.recordFault_outcome m x x.code
  rw [eq, chan]
  refine ⟨mem.trans mem1, ?_, fun h => ?_, old⟩
  · cases h : (s.chanAt m x.chan).fault
    · rw [new h]
    · rw [old h, h]
  · rw [new h]
    exact ⟨rfl, rfl⟩

/-! ### The haul's clause (O60) -/

theorem exec_transferStart (s : State) : exec .transferStart s = s.onNamedXfer s.startXfer := rfl
theorem exec_transferComplete (s : State) : exec .transferComplete s =
    s.onNamedXfer fun m x => if s.xferStruck x then s.strikeXfer m x else s.completeXfer m x := rfl
theorem exec_haulFault (s : State) : exec .haulFault s = s.onNamedXfer s.faultXfer := rfl

theorem haulSteps (s : State) : let m := s.input.core.toNat
    let named := (s.coreAt m).xfers.find? fun x => x.chan == s.input.index.toNat && x.id == s.input.num.toNat
    (named = none → exec .transferStart s = .next s ∧ exec .transferComplete s = .next s ∧ exec .haulFault s = .next s)
      ∧ ∀ x, named = some x →
          (s.xferStarts m x = false → exec .transferStart s = .next s)
            ∧ (s.xferStarts m x = true → x.len ≠ 0 → Does .transferStart s fun t => XferNow t m x (fun z => z.state = .inFlight)
                ∧ ∀ tl, s.xferTile m x = some tl →
                    (tileStart (some tl) x = .fill →
                        Sparse.get none (t.coreAt m).tiles x.tile = some { tl with state := .filling, owner := 1, arr := 0, by_ := x.pc })
                      ∧ (tileStart (some tl) x = .drain →
                        Sparse.get none (t.coreAt m).tiles x.tile = some { tl with state := .draining, owner := 1, by_ := x.pc }))
            ∧ ((x.state ≠ .inFlight ∨ x.code ≠ 0) → exec .transferComplete s = .next s)
            ∧ (x.state = .inFlight → x.code = 0 →
                (s.xferStruck x = false → Does .transferComplete s fun t => XferNow t m x (fun _ => False)
                    ∧ ∀ tl, Sparse.get none (s.coreAt m).tiles x.tile = some tl → TransferDone s t m x tl)
                  ∧ (s.xferStruck x = true → Does .transferComplete s fun t => XferNow t m x (fun z => z.code = 7)
                      ∧ ∃ n, (s.xferLost x = none → n = s.input.value.toNat)
                        ∧ (Unsampled s → t.mem = (s.performChunks ((s.xferWrites m x).take n)).mem)))
            ∧ ((x.state ≠ .inFlight ∨ x.code = 0) → exec .haulFault s = .next s)
            ∧ (x.state = .inFlight → x.code ≠ 0 → Does .haulFault s fun t => t.mem = s.mem ∧ (t.chanAt m x.chan).fault = true
                ∧ ((s.chanAt m x.chan).fault = false → (t.chanAt m x.chan).code = x.code ∧ (t.chanAt m x.chan).fid = x.id)
                ∧ ((s.chanAt m x.chan).fault = true → t.chanAt m x.chan = s.chanAt m x.chan)) := by
  intro m named
  rw [exec_transferStart, exec_transferComplete, exec_haulFault]
  refine ⟨fun h => ⟨State.onNamedXfer_none h, State.onNamedXfer_none h, State.onNamedXfer_none h⟩, fun x h => ?_⟩
  have start := (exec_transferStart s).trans (State.onNamedXfer_some (f := s.startXfer) h)
  have complete := (exec_transferComplete s).trans
    (State.onNamedXfer_some (f := fun m x => if s.xferStruck x then s.strikeXfer m x else s.completeXfer m x) h)
  have fault := (exec_haulFault s).trans (State.onNamedXfer_some (f := s.faultXfer) h)
  rw [State.onNamedXfer_some h, State.onNamedXfer_some h, State.onNamedXfer_some h]
  refine ⟨fun hs => by rw [State.startXfer_idle hs], fun hs hl => ⟨_, start, State.startXfer_inFlight hs hl, fun tl ht => ⟨fun hk => ?_, fun hk => ?_⟩⟩,
    fun hx => ?_, fun hf hc => ⟨fun hq => ⟨_, complete.trans (by rw [if_neg (by rw [hq]; exact Bool.false_ne_true)]), State.completeXfer_outcome hf hc⟩,
      fun hq => ⟨_, complete.trans (by rw [if_pos hq]), State.strikeXfer_outcome hf hc⟩⟩,
    fun hx => congrArg Host.Outcome.next (if_pos hx), fun hf hc => ⟨_, fault, State.faultXfer_outcome hf hc⟩⟩
  · rw [State.startXfer_tile hs hl ht (.inl hk), hk]
    rfl
  · rw [State.startXfer_tile hs hl ht (.inr hk), hk]
    rfl
  · have strike : s.strikeXfer m x = s := if_pos hx
    have complete : s.completeXfer m x = s := if_pos hx
    rw [strike, complete, ite_self]

end Sys2Proof.Machine
end

section
namespace Sys2Proof.Machine
open Sys2Proof.Claims

/-! ### Leases (R311, R312, O60) -/

theorem exec_leaseWin (s : State) : exec .leaseWin s = .next (s.winLease (s.input.index.toNat % 32)) := rfl
theorem exec_leaseIdlePass (s : State) : exec .leaseIdlePass s = .next (s.passIdle (s.input.index.toNat % 32)) := rfl

/-- A fold that keeps one of two at each step ends with one of those it saw. -/
theorem foldl_choose_mem {α : Type} (better : α → α → Prop) [DecidableRel better] (xs : List α) (x : α) :
    xs.foldl (fun b e => if better e b then e else b) x ∈ x :: xs := by
  induction xs generalizing x with
  | nil => exact List.mem_singleton_self x
  | cons y xs ih =>
    rw [List.foldl_cons]
    have last := ih (if better y x then y else x)
    by_cases hb : better y x
    · rw [if_pos hb] at last ⊢
      exact List.mem_cons_of_mem _ last
    · rw [if_neg hb] at last ⊢
      rcases List.mem_cons.mp last with h | h
      · rw [h]
        exact List.mem_cons_self
      · exact List.mem_cons_of_mem _ (List.mem_cons_of_mem _ h)

theorem State.leaseWinner_mem {s : State} {y k : Nat} (h : s.leaseWinner y = some k) : k ∈ (s.clusterAt y).requests := by
  unfold State.leaseWinner at h
  dsimp only at h
  split at h
  · cases h
  · next hr =>
    rw [hr]
    cases h
    exact foldl_choose_mem _ _ _

theorem State.winLease_idle {s : State} {y : Nat} (h : (s.clusterAt y).holder ≠ none ∨ (s.clusterAt y).requests = []) : s.winLease y = s := by
  have free : s.leaseFree y = false := by
    unfold State.leaseFree
    rcases h with h | h
    · rw [beq_eq_false_iff_ne.mpr h, Bool.false_and]
    · rw [h]
      exact Bool.and_false _
  unfold State.winLease
  rw [free]

theorem State.winLease_wins {s : State} {y k : Nat} (hf : (s.clusterAt y).holder = none) (hw : s.leaseWinner y = some k) :
    ((s.winLease y).clusterAt y).holder = some k ∧ ((s.winLease y).clusterAt y).used = 0 ∧ k ∉ ((s.winLease y).clusterAt y).requests
      ∧ k ∈ (s.clusterAt y).requests := by
  have mem := State.leaseWinner_mem hw
  have free : s.leaseFree y = true := by
    unfold State.leaseFree
    rw [hf, Bool.and_eq_true, Bool.not_eq_true', List.isEmpty_eq_false_iff]
    exact ⟨rfl, List.ne_nil_of_mem mem⟩
  unfold State.winLease
  rw [free, hw]
  dsimp only
  rw [State.clusterAt_onCluster_same]
  refine ⟨rfl, rfl, fun h => ?_, mem⟩
  have ne := (List.mem_filter.mp h).2
  rw [bne_self_eq_false] at ne
  cases ne

theorem State.passIdle_kept {s : State} {y : Nat} (h : s.leaseIdle y = false) : s.passIdle y = s := by
  unfold State.passIdle
  split
  · rfl
  · rw [h]
    rfl

theorem State.passIdle_passes {s : State} {y k : Nat} (hi : s.leaseIdle y = true) (hk : (s.clusterAt y).holder = some k) :
    k ∈ ((s.passIdle y).clusterAt y).requests
      ∧ ((∀ c ∈ (s.coreAt (s.coreOf k)).anvil, c.started = true) → ((s.passIdle y).clusterAt y).holder = none)
      ∧ ((∃ c ∈ (s.coreAt (s.coreOf k)).anvil, c.started = false) →
          ((s.passIdle y).clusterAt y).holder = some k ∧ ((s.passIdle y).clusterAt y).passing = true) := by
  have asks : k ∈ ((s.clusterAt y).askAgain k).requests := by
    unfold Cluster.askAgain
    dsimp only
    split
    · next h => exact List.contains_iff_mem.mp h
    · exact List.mem_append_right _ (List.mem_singleton_self k)
  have all : s.allStarted (s.coreOf k) = true ↔ ∀ c ∈ (s.coreAt (s.coreOf k)).anvil, c.started = true := List.all_eq_true
  have eq : s.passIdle y = (s.onCluster y fun c => c.askAgain k).tryPass y := by
    rw [State.passIdle, hk]
    dsimp only
    rw [hi, if_pos rfl]
  have holder : ((s.onCluster y fun c => c.askAgain k).clusterAt y).holder = some k := by
    rw [State.clusterAt_onCluster_same]
    exact hk
  have passing : ((s.onCluster y fun c => c.askAgain k).clusterAt y).passing = true := by
    rw [State.clusterAt_onCluster_same]
    rfl
  have started : (s.onCluster y fun c => c.askAgain k).allStarted ((s.onCluster y fun c => c.askAgain k).coreOf k) = s.allStarted (s.coreOf k) := rfl
  rw [eq, State.tryPass, holder]
  dsimp only
  rw [passing, started, Bool.true_and]
  by_cases h : s.allStarted (s.coreOf k) = true
  · rw [if_pos h, State.clusterAt_onCluster_same, State.clusterAt_onCluster_same]
    refine ⟨asks, fun _ => rfl, fun ⟨c, hc, no⟩ => ?_⟩
    rw [all.mp h c hc] at no
    cases no
  · rw [if_neg h, State.clusterAt_onCluster_same]
    exact ⟨asks, fun hall => absurd (all.mpr hall) h, fun _ => ⟨hk, rfl⟩⟩

theorem leaseSteps (s : State) : let y := s.input.index.toNat % 32
    let cl := s.clusterAt y
    ((cl.holder ≠ none ∨ cl.requests = []) → exec .leaseWin s = .next s)
      ∧ (∀ k, cl.holder = none → s.leaseWinner y = some k → Does .leaseWin s fun t => (t.clusterAt y).holder = some k
          ∧ (t.clusterAt y).used = 0 ∧ k ∉ (t.clusterAt y).requests ∧ k ∈ cl.requests)
      ∧ (s.leaseIdle y = false → exec .leaseIdlePass s = .next s)
      ∧ (∀ k, s.leaseIdle y = true → cl.holder = some k → Does .leaseIdlePass s fun t => k ∈ (t.clusterAt y).requests
          ∧ ((∀ c ∈ (s.coreAt (s.coreOf k)).anvil, c.started = true) → (t.clusterAt y).holder = none)
          ∧ ((∃ c ∈ (s.coreAt (s.coreOf k)).anvil, c.started = false) → (t.clusterAt y).holder = some k ∧ (t.clusterAt y).passing = true)) := by
  intro y cl
  refine ⟨fun h => ?_, fun k hf hw => ⟨_, exec_leaseWin s, State.winLease_wins hf hw⟩, fun h => ?_,
    fun k hi hk => ⟨_, exec_leaseIdlePass s, State.passIdle_passes hi hk⟩⟩
  · rw [exec_leaseWin, State.winLease_idle h]
  · rw [exec_leaseIdlePass, State.passIdle_kept h]

/-! ### A command of the anvil starts (R50, R324, O60) -/

theorem exec_anvilCommandStart (s : State) : exec .anvilCommandStart s = .next (s.startAnvil s.input.core.toNat) := rfl

theorem anvilCommandStart_none {s : State} (h : s.startable s.input.core.toNat = none) : exec .anvilCommandStart s = .next s := by
  rw [exec_anvilCommandStart, State.startAnvil, h]

/-- The command that may start is the first that has not started. -/
theorem State.startable_first {s : State} {m : Nat} {c : AnvilCmd} (h : s.startable m = some c) :
    ∃ before after, (s.coreAt m).anvil = before ++ c :: after ∧ (∀ b ∈ before, b.started = true) ∧ c.started = false := by
  unfold State.startable at h
  dsimp only at h
  split at h
  · cases h
  · next x rest hd =>
    split at h
    · cases h
      refine ⟨(s.coreAt m).anvil.takeWhile (·.started), rest, ?_, fun b hb => List.mem_takeWhile_imp hb, ?_⟩
      · rw [← hd, List.takeWhile_append_dropWhile]
      · have head := List.head_dropWhile_not (l := (s.coreAt m).anvil) (fun c : AnvilCmd => c.started) (by rw [hd]; exact List.cons_ne_nil _ _)
        simp only [hd, List.head_cons] at head
        exact head
    · cases h

theorem startFirst_append (t : Nat) (before after : List AnvilCmd) (c : AnvilCmd) (hb : ∀ b ∈ before, b.started = true) (hc : c.started = false) :
    startFirst t (before ++ c :: after) = before ++ { c with started := true, endsAt := t } :: after := by
  induction before with
  | nil => exact if_neg (by rw [hc]; exact Bool.false_ne_true)
  | cons b before ih =>
    rw [List.cons_append, startFirst, if_pos (hb b List.mem_cons_self), ih fun x hx => hb x (List.mem_cons_of_mem _ hx)]
    rfl

/-- The passes of a multiply whose formats go together, by the formats of R315. -/
theorem rowPass_eq_kPass {fa fb r : Nat} (h : pairRow fa fb = some r) : rowPass r = kPass fa := by
  unfold pairRow at h
  dsimp only at h
  split at h
  · cases h
  · next hfa =>
    have hle : fa ≤ 12 := by omega
    split at h
    · split at h <;> cases h
      next h4 => rcases h4 with rfl | rfl | rfl | rfl <;> rfl
    · obtain ⟨-, hr⟩ := Option.ite_none_right_eq_some.mp h
      obtain rfl := Option.some.inj hr
      interval_cases fa <;> rfl

theorem AnvilCmd.cycles_eq (c : AnvilCmd) (h : c.multiplies = true → pairRow c.fa c.fb ≠ none) : c.cycles = anvilClass c := by
  have pass (hm : c.multiplies = true) : rowPass ((pairRow c.fa c.fb).getD 0) = kPass c.fa := by
    obtain ⟨r, hr⟩ := Option.ne_none_iff_exists'.mp (h hm)
    rw [hr]
    exact rowPass_eq_kPass hr
  unfold AnvilCmd.cycles anvilClass
  have mul (ho : c.op = .mma ∨ c.op = .mmz ∨ c.op = .smma) : rowPass ((pairRow c.fa c.fb).getD 0) = kPass c.fa :=
    pass (by rcases ho with ho | ho | ho <;> rw [AnvilCmd.multiplies, ho] <;> rfl)
  cases ho : c.op with
  | lda => rfl
  | ldb => rfl
  | stc => rfl
  | zero => rfl
  | smma => rw [AnvilCmd.passes, AnvilCmd.passK, if_pos ho, mul (.inr (.inr ho))]; rfl
  | mma => rw [AnvilCmd.passes, AnvilCmd.passK, if_neg (show ¬ c.op = .smma by rw [ho]; nofun), mul (.inl ho)]; rfl
  | mmz => rw [AnvilCmd.passes, AnvilCmd.passK, if_neg (show ¬ c.op = .smma by rw [ho]; nofun), mul (.inr (.inl ho))]; rfl

/-- The latest of a time and of some others is one of them. -/
theorem foldl_max_spec {α : Type} (f : α → Nat) (xs : List α) (n : Nat) :
    let r := xs.foldl (fun t x => max t (f x)) n
    n ≤ r ∧ (∀ x ∈ xs, f x ≤ r) ∧ (r = n ∨ ∃ x ∈ xs, r = f x) := by
  induction xs generalizing n with
  | nil => exact ⟨Nat.le_refl n, fun _ h => absurd h List.not_mem_nil, .inl rfl⟩
  | cons y xs ih =>
    obtain ⟨low, all, one⟩ := ih (max n (f y))
    refine ⟨Nat.le_trans (Nat.le_max_left ..) low, fun x hx => ?_, ?_⟩
    · rcases List.mem_cons.mp hx with rfl | hx
      · exact Nat.le_trans (Nat.le_max_right ..) low
      · exact all x hx
    · rcases one with one | ⟨x, hx, one⟩
      · rcases Nat.le_total (f y) n with h | h
        · exact .inl (one.trans (Nat.max_eq_left h))
        · exact .inr ⟨y, List.mem_cons_self, one.trans (Nat.max_eq_right h)⟩
      · exact .inr ⟨x, List.mem_cons_of_mem _ hx, one⟩

theorem State.anvilEnd_isEndCycle (s : State) (m : Nat) (c : AnvilCmd) (h : c.multiplies = true → pairRow c.fa c.fb ≠ none) :
    IsEndCycle s m c (s.anvilEnd m c) := by
  obtain ⟨low, all, one⟩ := foldl_max_spec (fun e : AnvilCmd => e.endsAt - 12)
    ((s.coreAt m).anvil.filter fun e => e.started && e.multiplies && c.multiplies) s.now
  have chained (x : AnvilCmd) : x ∈ ((s.coreAt m).anvil.filter fun e => e.started && e.multiplies && c.multiplies) ↔
      x ∈ (s.coreAt m).anvil ∧ x.started = true ∧ x.multiplies = true ∧ c.multiplies = true := by
    rw [List.mem_filter, Bool.and_eq_true, Bool.and_eq_true, and_assoc]
  unfold State.anvilEnd
  rw [AnvilCmd.cycles_eq c h]
  refine ⟨Nat.add_le_add_right low _, fun x hx => Nat.add_le_add_right (all x ((chained x).mpr hx)) _, ?_⟩
  rcases one with one | ⟨x, hx, one⟩
  · exact .inl (congrArg (· + _) one)
  · exact .inr ⟨x, (chained x).mp hx, congrArg (· + _) one⟩

/-- A lease that may pass changes its cluster alone. -/
theorem State.tryPass_eq (s : State) (y : Nat) : s.tryPass y = s ∨ ∃ f, s.tryPass y = s.onCluster y f := by
  unfold State.tryPass
  split
  · exact .inl rfl
  · split
    · exact .inr ⟨_, rfl⟩
    · exact .inl rfl

theorem anvilCommandStart_starts {s : State} {c : AnvilCmd} (hs : s.startable s.input.core.toNat = some c)
    (hp : c.multiplies = true → pairRow c.fa c.fb ≠ none) :
    let m := s.input.core.toNat
    Does .anvilCommandStart s fun t =>
      t.mem = s.mem ∧ t.ctx = s.ctx ∧ ∃ before after e, (s.coreAt m).anvil = before ++ c :: after ∧ (∀ b ∈ before, b.started = true)
        ∧ c.started = false ∧ (t.coreAt m).anvil = before ++ { c with started := true, endsAt := e } :: after ∧ IsEndCycle s m c e := by
  intro m
  obtain ⟨before, after, anvil, hb, hc⟩ := State.startable_first hs
  have eq : s.startAnvil m = (s.onCore m fun d => { d with anvil := startFirst (s.anvilEnd m c) d.anvil }).tryPass (clusterOf m) := by
    rw [State.startAnvil, hs]
  have kept : (s.startAnvil m).mem = s.mem ∧ (s.startAnvil m).ctx = s.ctx
      ∧ (s.startAnvil m).coreAt m = { s.coreAt m with anvil := startFirst (s.anvilEnd m c) (s.coreAt m).anvil } := by
    rcases State.tryPass_eq (s.onCore m fun d => { d with anvil := startFirst (s.anvilEnd m c) d.anvil }) (clusterOf m) with h | ⟨f, h⟩
    · rw [eq, h]
      exact ⟨rfl, rfl, State.coreAt_onCore_same ..⟩
    · rw [eq, h]
      exact ⟨rfl, rfl, (State.coreAt_onCluster ..).trans (State.coreAt_onCore_same ..)⟩
  obtain ⟨mem, ctx, core⟩ := kept
  refine ⟨_, exec_anvilCommandStart s, mem, ctx, before, after, s.anvilEnd m c, anvil, hb, hc, ?_, s.anvilEnd_isEndCycle m c hp⟩
  rw [core, anvil]
  exact startFirst_append _ before after c hb hc

end Sys2Proof.Machine
end

section
namespace Sys2Proof.Machine
open Sys2Proof.Claims

/-! ### Bytes of rows, slots and segments (O60) -/

theorem State.getD_readBytes (s : State) (a n i : Nat) (h : i < n) : (s.readBytes a n).getD i 0 = s.readByte (a + i) := by
  induction n generalizing a i with
  | zero => omega
  | succ n ih =>
    cases i with
    | zero => rfl
    | succ i =>
      rw [State.readBytes, List.getD_cons_succ, ih _ _ (by omega), Nat.add_assoc, Nat.add_comm 1]

theorem State.drop_readBytes (s : State) (a n k : Nat) : (s.readBytes a n).drop k = s.readBytes (a + k) (n - k) := by
  induction k generalizing a n with
  | zero => rfl
  | succ k ih =>
    cases n with
    | zero => rw [Nat.zero_sub]; rfl
    | succ n => rw [State.readBytes, List.drop_succ_cons, ih, Nat.succ_sub_succ, Nat.add_assoc, Nat.add_comm 1]

theorem State.take_readBytes (s : State) (a n k : Nat) (h : k ≤ n) : (s.readBytes a n).take k = s.readBytes a k := by
  induction k generalizing a n with
  | zero => rfl
  | succ k ih =>
    obtain ⟨n, rfl⟩ : ∃ l, n = l + 1 := ⟨n - 1, by omega⟩
    rw [State.readBytes, List.take_succ_cons, ih _ _ (by omega), State.readBytes]

/-- Piece n of pieces of one length, put one after another. -/
theorem getD_flatMap_range {α : Type} (g : Nat → List α) (d : α) {L N : Nat} (hg : ∀ n, (g n).length = L) {n k : Nat} (hn : n < N) (hk : k < L) :
    ((List.range N).flatMap g).getD (L * n + k) d = (g n).getD k d := by
  have len (N : Nat) : ((List.range N).flatMap g).length = L * N := by
    induction N with
    | zero => rfl
    | succ N ih => rw [List.range_succ, List.flatMap_append, List.length_append, ih, List.flatMap_singleton, hg, Nat.mul_succ]
  induction N with
  | zero => omega
  | succ N ih =>
    rw [List.range_succ, List.flatMap_append, List.flatMap_singleton]
    by_cases h : n = N
    · subst h
      rw [List.getD_append_right _ _ _ _ (by rw [len]; omega), len, Nat.add_sub_cancel_left]
    · have below : L * n + k < L * N := by
        have := Nat.mul_le_mul_left L (show n + 1 ≤ N by omega)
        rw [Nat.mul_succ] at this
        omega
      rw [List.getD_append _ _ _ _ (by rw [len]; exact below)]
      exact ih (by omega)

theorem State.performChunks_append (s : State) (cs ds : List (Nat × List Byte)) :
    s.performChunks (cs ++ ds) = (s.performChunks cs).performChunks ds := List.foldl_append ..

/-- Rows stored one after another, each where it belongs. -/
def pokeRows (m : Sparse Byte) (loc : Nat) (rows : List (Nat × List Byte)) : Sparse Byte :=
  rows.foldl (fun m r => pokeBytes m (loc + r.1) r.2) m

theorem State.performChunks_rowChunks (s : State) (loc : Nat) (rows : List (Nat × List Byte)) :
    (s.performChunks (rowChunks loc rows)).mem = pokeRows s.mem loc rows := by
  induction rows generalizing s with
  | nil => rfl
  | cons r rows ih =>
    have split : rowChunks loc (r :: rows) = chunksAt (loc + r.1) r.2 ++ rowChunks loc rows := rfl
    rw [split, State.performChunks_append, ih, State.performChunks_chunksAt]
    rfl

/-- Rows that do not overlap are all there once stored, and nothing else has changed. -/
theorem get_pokeRows (m : Sparse Byte) (loc : Nat) (o : Nat → Nat) (bs : Nat → List Byte) (apart : ∀ i j, i < j → o i + (bs i).length ≤ o j)
    (n : Nat) :
    (∀ i, i < n → ∀ x, x < (bs i).length → Sparse.get 0 (pokeRows m loc ((List.range n).map fun i => (o i, bs i))) (loc + o i + x) = (bs i).getD x 0)
      ∧ ∀ a, (∀ i, i < n → a < loc + o i ∨ loc + o i + (bs i).length ≤ a) →
          Sparse.get 0 (pokeRows m loc ((List.range n).map fun i => (o i, bs i))) a = Sparse.get 0 m a := by
  induction n with
  | zero => exact ⟨fun i h => absurd h (Nat.not_lt_zero i), fun _ _ => rfl⟩
  | succ n ih =>
    obtain ⟨here, outside⟩ := ih
    have last : pokeRows m loc ((List.range (n + 1)).map fun i => (o i, bs i)) =
        pokeBytes (pokeRows m loc ((List.range n).map fun i => (o i, bs i))) (loc + o n) (bs n) := by
      unfold pokeRows
      rw [List.range_succ, List.map_append, List.foldl_append]
      rfl
    refine ⟨fun i hi x hx => ?_, fun a ha => ?_⟩
    · rw [last, get_pokeBytes]
      by_cases h : i = n
      · subst h
        rw [if_pos (by omega), Nat.add_sub_cancel_left]
      · have := apart i n (by omega)
        rw [if_neg (by omega)]
        exact here i (by omega) x hx
    · have := ha n (by omega)
      rw [last, get_pokeBytes, if_neg (by omega)]
      exact outside a fun i hi => ha i (by omega)

end Sys2Proof.Machine
end

section
namespace Sys2Proof.Machine
open Sys2Proof.Claims

/-! ### A command of the anvil completes (R318 to R325, O60) -/

theorem State.blur_false (s : State) (off : Nat) (bs : List Byte) : s.blur false off bs = bs := if_neg Bool.false_ne_true

/-- What every command leaves as it was when it completes. -/
structure AnvilKept (s t : State) : Prop where
  anvil : ∀ n, (t.coreAt n).anvil = (s.coreAt n).anvil
  sched : t.sched = s.sched
  job : ∀ k, (t.ctxAt k).job = (s.ctxAt k).job

theorem AnvilKept.trans {s t u : State} (h : AnvilKept s t) (g : AnvilKept t u) : AnvilKept s u :=
  ⟨fun n => (g.anvil n).trans (h.anvil n), g.sched.trans h.sched, fun k => (g.job k).trans (h.job k)⟩

theorem AnvilKept.refl (s : State) : AnvilKept s s := ⟨fun _ => rfl, rfl, fun _ => rfl⟩

theorem AnvilKept.setAcc (s : State) (m : Nat) (a : Accs) : AnvilKept s (s.setAcc m a) := by
  refine ⟨fun n => ?_, rfl, fun _ => rfl⟩
  rw [State.setAcc, State.coreAt_onCore]
  split
  · subst n; rfl
  · rfl

theorem AnvilKept.onTile (s : State) (m id : Nat) (f : Tile → Tile) : AnvilKept s (s.onTile m id f) := by
  obtain ⟨core, h⟩ := (s.onTile_core m id f).1
  exact ⟨fun n => s.onTile_field Core.anvil (fun _ _ => rfl) .., by rw [h], fun k => by rw [h]; rfl⟩

theorem AnvilKept.anvilFlags (s : State) (k : Nat) (f : Flags) : AnvilKept s (s.anvilFlags k f) := by
  refine ⟨fun _ => rfl, rfl, fun j => ?_⟩
  rw [State.anvilFlags, State.ctxAt_onCtx]
  split
  · subst j; rfl
  · rfl

theorem AnvilKept.outward {s t : State} (h : Outward s t) : AnvilKept s t :=
  ⟨h.field Core.anvil fun _ _ _ _ _ _ => rfl, h.sched, fun k => by rw [State.ctxAt, h.ctx]; rfl⟩

theorem State.loadAnvil_kept (s : State) (m id : Nat) (f : Cluster → Cluster) (y : Nat) (g : Tile → Tile) :
    AnvilKept s ((s.onCluster y f).onTile m id g) :=
  AnvilKept.trans (t := s.onCluster y f) ⟨fun _ => rfl, rfl, fun _ => rfl⟩ (.onTile ..)

theorem State.runAnvil_kept (s : State) (m : Nat) (c : AnvilCmd) (b : Bool) : AnvilKept s (s.runAnvil m c b) := by
  unfold State.runAnvil
  dsimp only
  split
  · exact State.loadAnvil_kept ..
  · exact State.loadAnvil_kept ..
  · exact .setAcc ..
  · split
    · exact .refl s
    · exact ((((AnvilKept.setAcc ..).trans (.outward (.of_performChunks ..))).trans (.anvilFlags ..)).trans (.onTile ..))
  · exact ((AnvilKept.setAcc ..).trans (.anvilFlags ..)).trans (.outward (OnlyAsked.of_tally ..).toOutward)

/-- A fold that keeps the lesser of two keeps one that none goes below. -/
theorem foldl_least {α : Type} (f : α → Nat) (xs : List α) (x : α) :
    ∀ y ∈ x :: xs, f (xs.foldl (fun b v => if f v < f b then v else b) x) ≤ f y := by
  induction xs generalizing x with
  | nil => exact fun y hy => by rw [List.mem_singleton.mp hy]; exact Nat.le_refl _
  | cons z xs ih =>
    have both : f (if f z < f x then z else x) ≤ f x ∧ f (if f z < f x then z else x) ≤ f z := by split <;> omega
    have low := ih (if f z < f x then z else x)
    intro y hy
    rw [List.foldl_cons]
    have first := low _ List.mem_cons_self
    rcases List.mem_cons.mp hy with rfl | hy
    · exact Nat.le_trans first both.1
    · rcases List.mem_cons.mp hy with rfl | hy
      · exact Nat.le_trans first both.2
      · exact low y (List.mem_cons_of_mem _ hy)

theorem Core.finishing_spec {c : Core} {x : AnvilCmd} (h : c.finishing = some x) :
    x ∈ c.anvil ∧ x.started = true ∧ ∀ e ∈ c.anvil, e.started = true → x.endsAt ≤ e.endsAt := by
  unfold Core.finishing at h
  split at h
  · cases h
  · next y ys hy =>
    have among := foldl_choose_mem (fun e b : AnvilCmd => e.endsAt < b.endsAt) ys y
    have least := foldl_least AnvilCmd.endsAt ys y
    rw [Option.some.inj h] at among least
    rw [← hy] at among least
    obtain ⟨mem, started⟩ := List.mem_filter.mp among
    exact ⟨mem, started, fun e he hs => least e (List.mem_filter.mpr ⟨he, hs⟩)⟩

theorem State.job?_onJob (s : State) (j : Nat) {f : Job → Job} (hf : ∀ x, (f x).id = x.id) (i : Nat) :
    (s.onJob j f).job? i = (s.job? i).map fun x => if x.id == j then f x else x := by
  unfold State.job? State.onJob
  dsimp only
  rw [List.find?_map]
  congr 2
  funext x
  show ((if x.id == j then f x else x).id == i) = (x.id == i)
  split
  · rw [hf]
  · rfl

/-- A strike is marked in the strand and in its job. -/
theorem State.strikeAnvil_marks (s : State) (k : Nat) : ((s.strikeAnvil k).ctxAt k).anvilErr = true
    ∧ (s.job? (s.ctxAt k).job ≠ none → JobNow (s.strikeAnvil k) (s.ctxAt k).job fun x => x.struck = true) := by
  refine ⟨?_, fun hj => ?_⟩
  · show ((s.onCtx k fun c => { c with anvilErr := true }).ctxAt k).anvilErr = true
    rw [State.ctxAt_onCtx, if_pos rfl]
  · obtain ⟨x, hx⟩ := Option.ne_none_iff_exists'.mp hj
    have id : x.id = (s.ctxAt k).job := by
      have := List.find?_some hx
      rwa [beq_iff_eq] at this
    have job : (s.strikeAnvil k).job? (s.ctxAt k).job = (s.onJob (s.ctxAt k).job fun j => { j with struck := true }).job? (s.ctxAt k).job := rfl
    refine ⟨{ x with struck := true }, ?_, rfl⟩
    rw [job, State.job?_onJob s _ (f := fun j => { j with struck := true }) (fun _ => rfl), hx, Option.map_some, if_pos (by rw [beq_iff_eq]; exact id)]

theorem exec_anvilCommandComplete (s : State) : exec .anvilCommandComplete s = .next (s.completeAnvil s.input.core.toNat) := rfl

theorem anvilCommandComplete_none {s : State} (h : ∀ c ∈ (s.coreAt s.input.core.toNat).anvil, c.started = false) :
    exec .anvilCommandComplete s = .next s := by
  have none : (s.coreAt s.input.core.toNat).finishing = none := by
    cases hf : (s.coreAt s.input.core.toNat).finishing with
    | none => rfl
    | some x =>
      obtain ⟨mem, started, -⟩ := Core.finishing_spec hf
      rw [h x mem] at started
      cases started
  rw [exec_anvilCommandComplete, State.completeAnvil, none]

/-- The state in which a command has done its work and left its core's list. -/
def State.ranAnvil (s : State) (m : Nat) (c : AnvilCmd) (b : Bool) : State :=
  (s.runAnvil m c b).onCore m fun d => { d with anvil := d.anvil.erase c }

theorem State.ranAnvil_keeps (s : State) (m : Nat) (c : AnvilCmd) (b : Bool) :
    ((s.ranAnvil m c b).coreAt m).anvil = (s.coreAt m).anvil.erase c ∧ (s.ranAnvil m c b).sched = s.sched
      ∧ ∀ k, ((s.ranAnvil m c b).ctxAt k).job = (s.ctxAt k).job := by
  obtain ⟨anvil, sched, job⟩ := s.runAnvil_kept m c b
  refine ⟨?_, sched, job⟩
  rw [State.ranAnvil, State.coreAt_onCore_same, anvil]

end Sys2Proof.Machine
end

section
namespace Sys2Proof.Machine
open Sys2Proof.Claims

/-! ### What a completed command has done (R318 to R323, O60) -/

theorem State.clusterAt_onTile (s : State) (m id : Nat) (f : Tile → Tile) (y : Nat) : (s.onTile m id f).clusterAt y = s.clusterAt y := by
  obtain ⟨core, h⟩ := (s.onTile_core m id f).1
  rw [h]
  rfl

theorem State.tileGivenBack_onTile (s t : State) (m id : Nat) (h : (t.coreAt m).tiles = (s.coreAt m).tiles) :
    TileGivenBack s (t.onTile m id Tile.release) m id := by
  intro tl ht
  rw [State.tiles_onTile, if_pos ⟨rfl, rfl⟩, h, ht]
  rfl

/-! #### Multiplies and AZERO -/

theorem State.acc_setAcc (s : State) (m : Nat) (a : Accs) : ((s.setAcc m a).coreAt m).acc = a := by
  rw [State.setAcc, State.coreAt_onCore_same]

theorem State.unsampled_setAcc {s : State} (q : Unsampled s) (m : Nat) (a : Accs) : Unsampled (s.setAcc m a) :=
  unsampled_congr q fun n => by
    rw [State.setAcc, State.coreAt_onCore]
    split
    · subst n; rfl
    · rfl

theorem State.runAnvil_multiplies (s : State) (m : Nat) {c : AnvilCmd} (h : c.multiplies = true) :
    s.runAnvil m c false = ((s.setAcc m (multiply (s.clusterAt (clusterOf m)) c (s.coreAt m).acc).1).anvilFlags c.key
      (multiply (s.clusterAt (clusterOf m)) c (s.coreAt m).acc).2).tally m c.key 6 c.ta.length := by
  have flags (f : Flags) : s.blurFlags false f = f := if_neg Bool.false_ne_true
  have op : c.op = .mma ∨ c.op = .mmz ∨ c.op = .smma := by
    rw [AnvilCmd.multiplies, Bool.or_eq_true, Bool.or_eq_true, beq_iff_eq, beq_iff_eq, beq_iff_eq, or_assoc] at h
    exact h
  unfold State.runAnvil
  rcases op with ho | ho | ho <;> rw [ho] <;> dsimp only <;> rw [if_neg Bool.false_ne_true, flags]

theorem State.runAnvil_multiply_done (s : State) (m : Nat) {c : AnvilCmd} (h : c.multiplies = true) :
    ((s.runAnvil m c false).coreAt m).acc = (multiply (s.clusterAt (clusterOf m)) c (s.coreAt m).acc).1
      ∧ (Unsampled s → (s.runAnvil m c false).mem = s.mem) := by
  rw [State.runAnvil_multiplies s m h]
  have tally := OnlyAsked.of_tally ((s.setAcc m (multiply (s.clusterAt (clusterOf m)) c (s.coreAt m).acc).1).anvilFlags c.key
      (multiply (s.clusterAt (clusterOf m)) c (s.coreAt m).acc).2) m c.key 6 c.ta.length
  exact ⟨(tally.field Core.acc (fun _ _ _ _ _ _ => rfl) m).trans (State.acc_setAcc ..), fun q => tally.mem (State.unsampled_setAcc q m _)⟩

theorem Accs.clearAcc_spec (x : Accs) (a : Nat) : Sparse.get 0 (x.clearAcc a).count a = 0 ∧ ∀ n,
    let own := a * 1024 ≤ n ∧ n < a * 1024 + 1024
    (own → Sparse.get 0 (x.clearAcc a).run n = 0 ∧ Sparse.get 0 (x.clearAcc a).wide n = 0)
      ∧ (¬ own → Sparse.get 0 (x.clearAcc a).run n = Sparse.get 0 x.run n ∧ Sparse.get 0 (x.clearAcc a).wide n = Sparse.get 0 x.wide n) := by
  refine ⟨(Sparse.get_set 0 x.count a 0 a).trans (if_pos rfl), fun n => ⟨fun h => ?_, fun h => ?_⟩⟩
  · exact ⟨(Sparse.get_without ..).trans (if_pos h), (Sparse.get_without ..).trans (if_pos h)⟩
  · exact ⟨(Sparse.get_without ..).trans (if_neg h), (Sparse.get_without ..).trans (if_neg h)⟩

/-! #### ASTC -/

theorem storeCols_le (t : Nat) {n : Nat} (h : n ≤ 32) : storeCols t n ≤ 32 := by
  unfold storeCols
  split
  · exact Nat.min_le_right ..
  · exact h

/-- Row i of what ASTC stores, and where it begins. -/
theorem storeRows_rows (c : AnvilCmd) (path : Nat) (x : Accs) : ∃ bs : Nat → List Byte,
    (storeRows c path x).2.1 = (List.range c.m).map (fun i => (c.off + 32 * storeBytes c.ty * i, bs i))
      ∧ ∀ i, (bs i).length = storeCols c.ty c.n * storeBytes c.ty := by
  refine ⟨fun i => ((List.range (storeCols c.ty c.n)).map fun n => storePart path c.ty (Sparse.get 0
    (if path = pathFloat ∨ path = pathCFloat then x.promoteAll c.acc c.m (storeCols c.ty c.n) else (x, 0)).1.wide (accKey c.acc i n))).flatMap
      fun p => leBytes (storeBytes c.ty) p.1, rfl, fun i => ?_⟩
  rw [List.length_flatMap]
  have each : (fun p : Nat × Flags => (leBytes (storeBytes c.ty) p.1).length) = fun _ => storeBytes c.ty := funext fun p => leBytes_length ..
  rw [each, List.map_const', List.sum_replicate, List.length_map, List.length_range, smul_eq_mul]

theorem storedRows_apart (c : AnvilCmd) {L : Nat} (h : L ≤ 32 * storeBytes c.ty) (i j : Nat) (hij : i < j) :
    c.off + 32 * storeBytes c.ty * i + L ≤ c.off + 32 * storeBytes c.ty * j := by
  have := Nat.mul_le_mul_left (32 * storeBytes c.ty) (show i + 1 ≤ j by omega)
  rw [Nat.mul_succ] at this
  omega

/-- Every row ASTC stores reads back, and no other byte has changed. -/
theorem rows_stored {s t : State} {loc : Nat} {c : AnvilCmd} {path : Nat} {x : Accs} (hn : c.n ≤ 32)
    (ht : t.mem = pokeRows s.mem loc (storeRows c path x).2.1) :
    (∀ r ∈ (storeRows c path x).2.1, t.readBytes (loc + r.1) r.2.length = r.2)
      ∧ ∀ a, (∀ r ∈ (storeRows c path x).2.1, a < loc + r.1 ∨ loc + r.1 + r.2.length ≤ a) → t.readByte a = s.readByte a := by
  obtain ⟨bs, rows, len⟩ := storeRows_rows c path x
  have le : storeCols c.ty c.n * storeBytes c.ty ≤ 32 * storeBytes c.ty := Nat.mul_le_mul_right _ (storeCols_le c.ty hn)
  obtain ⟨here, outside⟩ := get_pokeRows s.mem loc (fun i => c.off + 32 * storeBytes c.ty * i) bs
    (fun i j hij => by rw [len]; exact storedRows_apart c le i j hij) c.m
  rw [rows] at ht ⊢
  refine ⟨fun r hr => ?_, fun a ha => ?_⟩
  · obtain ⟨i, hi, rfl⟩ := List.mem_map.mp hr
    refine State.readBytes_of_bytes t _ _ fun x hx => ?_
    rw [State.readByte, ht]
    exact here i (List.mem_range.mp hi) x hx
  · rw [State.readByte, ht]
    exact outside a fun i hi => ha _ (List.mem_map.mpr ⟨i, List.mem_range.mpr hi, rfl⟩)

/-- The state in which ASTC has stored its rows. -/
def State.rowsStored (s : State) (m : Nat) (c : AnvilCmd) (tl : Tile) : State :=
  (s.setAcc m (storeRows c c.fa (s.coreAt m).acc).1).performChunks (rowChunks (tileLoc m tl) (storeRows c c.fa (s.coreAt m).acc).2.1)

theorem State.runAnvil_store (s : State) (m : Nat) {c : AnvilCmd} {tl : Tile} (ho : c.op = .stc)
    (ht : Sparse.get none (s.coreAt m).tiles c.tile = some tl) :
    s.runAnvil m c false =
      ((s.rowsStored m c tl).anvilFlags c.key (storeRows c c.fa (s.coreAt m).acc).2.2).onTile m c.tile Tile.release := by
  have rows : ((storeRows c c.fa (s.coreAt m).acc).2.1.map fun r => (r.1, s.blur false r.1 r.2)) = (storeRows c c.fa (s.coreAt m).acc).2.1 := by
    have same : (fun r : Nat × List Byte => (r.1, s.blur false r.1 r.2)) = id := funext fun r => by rw [State.blur_false]; rfl
    rw [same, List.map_id]
  unfold State.rowsStored
  rw [← rows]
  unfold State.runAnvil
  rw [ho]
  dsimp only
  rw [ht, rows]
  rfl

theorem State.coreAt_rowsStored (s : State) (m : Nat) (c : AnvilCmd) (tl : Tile) :
    (s.rowsStored m c tl).coreAt m = { s.coreAt m with acc := (storeRows c c.fa (s.coreAt m).acc).1 } :=
  (congrArg (fun q => Sparse.get coreDefault q m) (State.performChunks_core ..)).trans (State.coreAt_onCore_same ..)

theorem State.runAnvil_store_done (s : State) (m : Nat) {c : AnvilCmd} {tl : Tile} (ho : c.op = .stc)
    (ht : Sparse.get none (s.coreAt m).tiles c.tile = some tl) :
    ((s.runAnvil m c false).coreAt m).acc = (storeRows c c.fa (s.coreAt m).acc).1
      ∧ TileGivenBack s (s.runAnvil m c false) m c.tile
      ∧ (s.runAnvil m c false).mem = pokeRows s.mem (tileLoc m tl) (storeRows c c.fa (s.coreAt m).acc).2.1 := by
  have core := s.coreAt_rowsStored m c tl
  rw [State.runAnvil_store s m ho ht]
  refine ⟨?_, State.tileGivenBack_onTile s _ m c.tile (congrArg Core.tiles core :), ?_⟩
  · rw [State.onTile_field Core.acc (fun _ _ => rfl)]
    exact congrArg Core.acc core
  · rw [State.onTile_mem]
    exact State.performChunks_rowChunks ..

/-! #### ALDA and ALDB -/

/-- What a load puts into its slot. -/
def State.loadImage (s : State) (m : Nat) (c : AnvilCmd) : List Byte × List Byte :=
  slotImage c.fmt c.tadv c.tlen (s.loadBytes m c).1 (s.loadBytes m c).2

theorem State.runAnvil_load (s : State) (m : Nat) {c : AnvilCmd} (ho : c.op = .lda ∨ c.op = .ldb) :
    s.runAnvil m c false = (s.onCluster (clusterOf m) fun y =>
      y.loadSlot (if c.op = .ldb then c.sb else c.sa) (s.loadImage m c).1 (s.loadImage m c).2).onTile m c.tile Tile.release := by
  have blur : (s.blur false 0 (s.loadImage m c).1, s.blur false 3072 (s.loadImage m c).2) = s.loadImage m c := by
    rw [State.blur_false, State.blur_false]
  conv => rhs; rw [← blur]
  unfold State.runAnvil
  rcases ho with ho | ho <;> rw [ho] <;> rfl

theorem Cluster.loadSlot_data (y : Cluster) (slot : Nat) (data side : List Byte) (h : data.length = 3072) :
    (∀ i, i < 3072 → Sparse.get 0 (y.loadSlot slot data side).data (4096 * slot + i) = data.getD i 0)
      ∧ ∀ i, i < side.length → Sparse.get 0 (y.loadSlot slot data side).data (4096 * slot + 3072 + i) = side.getD i 0 := by
  unfold Cluster.loadSlot
  refine ⟨fun i hi => ?_, fun i hi => ?_⟩
  · rw [get_pokeBytes, if_neg (by omega), get_pokeBytes, if_pos (by omega), Nat.add_sub_cancel_left]
  · rw [get_pokeBytes, if_pos (by omega), Nat.add_sub_cancel_left]

theorem State.loadBytes_eq {s : State} {m : Nat} {c : AnvilCmd} {tl : Tile} (ht : Sparse.get none (s.coreAt m).tiles c.tile = some tl) :
    s.loadBytes m c = (s.readBytes (tileLoc m tl + c.off) (dataBytes c.fmt c.tadv),
      if c.mx then s.readBytes (tileLoc m tl + c.side) (sideBytes c.fmt c.sparse) else []) := by
  rw [State.loadBytes, ht]

/-- The bytes a plain operand brings. -/
theorem State.loadImage_plain {s : State} {m : Nat} {c : AnvilCmd} {tl : Tile} (ht : Sparse.get none (s.coreAt m).tiles c.tile = some tl)
    (hf : c.fmt ≠ 13) : s.loadImage m c = (s.readBytes (tileLoc m tl + c.off) 3072,
      if c.mx then s.readBytes (tileLoc m tl + c.side) (sideBytes c.fmt c.sparse) else []) := by
  unfold State.loadImage slotImage
  rw [if_neg hf, State.loadBytes_eq ht, dataBytes, if_neg hf]

/-- Segment n of a tcw operand. -/
def State.tcwSegment (s : State) (m : Nat) (c : AnvilCmd) (tl : Tile) (n : Nat) : List Byte :=
  s.readBytes (tileLoc m tl + c.off + n * segmentBytes c.tadv) (segmentBytes c.tadv)

theorem State.loadImage_tcw {s : State} {m : Nat} {c : AnvilCmd} {tl : Tile} (ht : Sparse.get none (s.coreAt m).tiles c.tile = some tl)
    (hf : c.fmt = 13) : s.loadImage m c =
      ((List.range 32).flatMap fun n => (List.range 96).map fun k =>
          BitVec.ofInt 8 (weightValue c.tadv c.tlen (segStream c.tadv (s.tcwSegment m c tl n)) k),
        (List.range 32).flatMap fun n => leBytes 2 (segScale c.tadv (s.tcwSegment m c tl n))) := by
  have seg (n : Nat) (hn : n ∈ List.range 32) :
      ((s.loadBytes m c).1.drop (n * segmentBytes c.tadv)).take (segmentBytes c.tadv) = s.tcwSegment m c tl n := by
    have room := Nat.mul_le_mul_right (segmentBytes c.tadv) (show n + 1 ≤ 32 from List.mem_range.mp hn)
    rw [Nat.add_mul, Nat.one_mul] at room
    rw [State.loadBytes_eq ht, dataBytes, if_pos hf, State.drop_readBytes, State.take_readBytes _ _ _ _ (by omega), State.tcwSegment]
  unfold State.loadImage slotImage
  rw [if_pos hf]
  dsimp only
  refine congrArg₂ Prod.mk (List.flatMap_congr fun n hn => ?_) (List.flatMap_congr fun n hn => ?_)
  · rw [seg n hn]
  · rw [seg n hn]

theorem segScale_lt (mode : Nat) (bs : List Byte) : segScale mode bs < 65536 := by
  have lt := leNat_lt ((bs.drop (streamBits mode / 8)).take 2)
  have len : ((bs.drop (streamBits mode / 8)).take 2).length ≤ 2 := List.length_take_le ..
  exact Nat.lt_of_lt_of_le lt (Nat.pow_le_pow_right (by omega) (show 8 * _ ≤ 16 by omega))

theorem leBytes_two (v : Nat) (h : v < 65536) : ((leBytes 2 v).getD 0 0).toNat + 256 * ((leBytes 2 v).getD 1 0).toNat = v := by
  have both := (leNat_leBytes 2 v).trans (Nat.mod_eq_of_lt h)
  exact both

theorem State.loadImage_length {s : State} {m : Nat} {c : AnvilCmd} {tl : Tile} (ht : Sparse.get none (s.coreAt m).tiles c.tile = some tl) :
    (s.loadImage m c).1.length = 3072 := by
  by_cases hf : c.fmt = 13
  · rw [State.loadImage_tcw ht hf, List.length_flatMap]
    simp only [List.length_map, List.length_range, List.map_const', List.sum_replicate, smul_eq_mul]
  · rw [State.loadImage_plain ht hf, State.readBytes_length]

theorem slotLoaded {s t : State} {m : Nat} {c : AnvilCmd} {tl : Tile} {y : Cluster} (ht : Sparse.get none (s.coreAt m).tiles c.tile = some tl)
    (hy : t.clusterAt (clusterOf m) = y.loadSlot (if c.op = .ldb then c.sb else c.sa) (s.loadImage m c).1 (s.loadImage m c).2) :
    SlotLoaded s t m c tl := by
  obtain ⟨data, side⟩ := y.loadSlot_data (if c.op = .ldb then c.sb else c.sa) (s.loadImage m c).1 (s.loadImage m c).2 (State.loadImage_length ht)
  unfold SlotLoaded
  extract_lets slot byte loc
  have data (i : Nat) (hi : i < 3072) : byte (slot + i) = (s.loadImage m c).1.getD i 0 := by
    show Sparse.get 0 (t.clusterAt (clusterOf m)).data _ = _
    rw [hy]
    exact data i hi
  have side (i : Nat) (hi : i < (s.loadImage m c).2.length) : byte (slot + 3072 + i) = (s.loadImage m c).2.getD i 0 := by
    show Sparse.get 0 (t.clusterAt (clusterOf m)).data _ = _
    rw [hy]
    exact side i hi
  clear_value byte
  refine ⟨fun hf => ⟨fun i hi => ?_, fun hx i hi => ?_⟩, fun hf n hn => ?_⟩
  · rw [data i hi, State.loadImage_plain ht hf, State.getD_readBytes _ _ _ _ hi]
  · rw [State.loadImage_plain ht hf, if_pos hx, State.readBytes_length] at side
    rw [side i hi, State.getD_readBytes _ _ _ _ hi]
  · rw [State.loadImage_tcw ht hf] at data side
    have len : ((List.range 32).flatMap fun n => leBytes 2 (segScale c.tadv (s.tcwSegment m c tl n))).length = 64 := by
      simp only [List.length_flatMap, leBytes_length, List.map_const', List.length_range, List.sum_replicate, smul_eq_mul]
    rw [len] at side
    refine ⟨fun k hk => ?_, ?_⟩
    · rw [Nat.add_assoc, data _ (by omega), getD_flatMap_range _ _ (fun n => by rw [List.length_map, List.length_range]) hn hk,
        List.getD_eq_getElem _ _ (by rw [List.length_map, List.length_range]; exact hk), List.getElem_map, List.getElem_range]
      rfl
    · have scale (k : Nat) (hk : k < 2) : byte (slot + 3072 + 2 * n + k) = (leBytes 2 (segScale c.tadv (s.tcwSegment m c tl n))).getD k 0 := by
        rw [Nat.add_assoc, side _ (by omega), getD_flatMap_range _ _ (fun n => leBytes_length ..) hn hk]
      rw [← Nat.add_zero (slot + 3072 + 2 * n), scale 0 (by omega), Nat.add_zero, scale 1 (by omega)]
      exact leBytes_two _ (segScale_lt ..)

/-! #### The clause -/

theorem State.commandDone_runAnvil (s : State) (m : Nat) (c : AnvilCmd) : CommandDone s (s.runAnvil m c false) m c := by
  unfold CommandDone
  extract_lets x z tile
  refine ⟨fun h => s.runAnvil_multiply_done m h, fun ho => ?_, fun tl ho ht hn => ?_, fun tl ho ht => ?_⟩
  · have run : s.runAnvil m c false = s.setAcc m (x.clearAcc c.acc) := by
      unfold State.runAnvil
      rw [ho]
    have acc : z = x.clearAcc c.acc := (congrArg (fun t : State => (t.coreAt m).acc) run).trans (State.acc_setAcc ..)
    rw [acc]
    exact ⟨by rw [run]; rfl, x.clearAcc_spec c.acc⟩
  · obtain ⟨acc, tile, mem⟩ := s.runAnvil_store_done m ho ht
    obtain ⟨back, outside⟩ := rows_stored hn mem
    exact ⟨acc, tile, back, outside⟩
  · rw [State.runAnvil_load s m ho]
    refine ⟨State.onTile_mem .., State.tileGivenBack_onTile s _ m c.tile rfl, slotLoaded ht (y := s.clusterAt (clusterOf m)) ?_⟩
    rw [State.clusterAt_onTile, State.clusterAt_onCluster_same]

theorem commandDone_congr {s t u : State} {m : Nat} {c : AnvilCmd} (hm : u.mem = t.mem) (hc : ∃ xs, u.coreAt m = { t.coreAt m with anvil := xs })
    (hy : u.cluster = t.cluster) (h : CommandDone s t m c) : CommandDone s u m c := by
  obtain ⟨xs, core⟩ := hc
  have byte (a : Nat) : u.readByte a = t.readByte a := by rw [State.readByte, hm, State.readByte]
  have bytes (a n : Nat) : u.readBytes a n = t.readBytes a n := State.readBytes_congr t u a n fun x _ _ => byte x
  obtain ⟨mul, zero, stc, load⟩ := h
  refine ⟨?_, ?_, fun tl ho ht hn => ?_, fun tl ho ht => ?_⟩
  · rw [core, hm]; exact mul
  · rw [core, hm]; exact zero
  · obtain ⟨acc, tile, back, outside⟩ := stc tl ho ht hn
    refine ⟨by rw [core]; exact acc, fun tl h => by rw [core]; exact tile tl h, fun r hr => by rw [bytes]; exact back r hr,
      fun a ha => by rw [byte]; exact outside a ha⟩
  · obtain ⟨mem, tile, slot⟩ := load tl ho ht
    refine ⟨hm.trans mem, fun tl h => by rw [core]; exact tile tl h, ?_⟩
    unfold SlotLoaded State.clusterAt
    rw [hy]
    exact slot

theorem State.ranAnvil_done (s : State) (m : Nat) (c : AnvilCmd) : CommandDone s (s.ranAnvil m c false) m c :=
  commandDone_congr (t := s.runAnvil m c false) rfl ⟨_, State.coreAt_onCore_same (s.runAnvil m c false) m _⟩ rfl (s.commandDone_runAnvil m c)

theorem anvilCommandComplete_completes (s : State) (c : AnvilCmd) : let m := s.input.core.toNat
    (s.coreAt m).finishing = some c → Does .anvilCommandComplete s fun t => (t.coreAt m).anvil = (s.coreAt m).anvil.erase c
      ∧ c.started = true ∧ (∀ x ∈ (s.coreAt m).anvil, x.started = true → c.endsAt ≤ x.endsAt)
      ∧ (s.anvilStruck c = false → CommandDone s t m c)
      ∧ (s.anvilStruck c = true → (t.ctxAt c.key).anvilErr = true
          ∧ (s.job? (s.ctxAt c.key).job ≠ none → JobNow t (s.ctxAt c.key).job fun x => x.struck = true)) := by
  intro m hf
  obtain ⟨-, started, first⟩ := Core.finishing_spec hf
  have eq : s.completeAnvil m = if s.anvilStruck c then (s.ranAnvil m c (s.anvilStruck c)).strikeAnvil c.key else s.ranAnvil m c (s.anvilStruck c) := by
    rw [State.completeAnvil, hf]
    rfl
  obtain ⟨anvil, sched, job⟩ := s.ranAnvil_keeps m c (s.anvilStruck c)
  refine ⟨_, exec_anvilCommandComplete s, ?_⟩
  cases hs : s.anvilStruck c with
  | false =>
    rw [hs] at eq anvil
    rw [eq, if_neg Bool.false_ne_true]
    exact ⟨anvil, started, first, fun _ => s.ranAnvil_done m c, nofun⟩
  | true =>
    rw [hs] at eq anvil sched job
    rw [eq, if_pos rfl]
    obtain ⟨err, marked⟩ := (s.ranAnvil m c true).strikeAnvil_marks c.key
    rw [job, State.job?, sched] at marked
    exact ⟨anvil, started, first, nofun, fun _ => ⟨err, marked⟩⟩

end Sys2Proof.Machine
end

section
namespace Sys2Proof.Machine
open Sys2Proof.Claims

/-! ### The trellis encoder (R337, O60) -/

/-- Two tiles given back are at rest. -/
theorem State.tiles_released (s : State) (m a b : Nat) {n : Nat} {tl : Tile} (hn : n = a ∨ n = b)
    (h : Sparse.get none (((s.onTile m a Tile.release).onTile m b Tile.release).coreAt m).tiles n = some tl) : tl.state = .ready ∧ tl.owner = 0 := by
  have released {x : Option Tile} (hx : x.map Tile.release = some tl) : tl.state = .ready ∧ tl.owner = 0 := by
    obtain ⟨y, -, rfl⟩ := Option.map_eq_some_iff.mp hx
    exact ⟨rfl, rfl⟩
  rw [State.tiles_onTile] at h
  by_cases hb : n = b
  · rw [if_pos ⟨rfl, hb⟩] at h
    exact released h
  · rw [if_neg fun g => hb g.2, State.tiles_onTile, if_pos ⟨rfl, hn.resolve_right hb⟩] at h
    exact released h

theorem exec_tencStart (s : State) : exec .tencStart s = .next (s.startTenc (s.input.index.toNat % 32)) := rfl
theorem exec_tencComplete (s : State) : exec .tencComplete s = .next (s.completeTenc (s.input.index.toNat % 32)) := rfl

/-- The state in which the segments of a TENC are written and its strike marked. -/
def State.tencWritten (s : State) (c : TencCmd) : State :=
  if s.input.struck then
    ((s.tencRun c s.input.value.toNat c.nseg).onCore c.core fun d => { d with tflags := d.tflags ||| 2 }).freshen (2 ^ 21)
  else s.tencRun c 0 c.nseg

theorem State.tencWritten_marks (s : State) (c : TencCmd) (h : s.input.struck = true) :
    ((s.tencWritten c).coreAt c.core).tflags.getLsbD 1 = true := by
  have core : (s.tencWritten c).coreAt c.core =
      { (s.tencRun c s.input.value.toNat c.nseg).coreAt c.core with
        tflags := ((s.tencRun c s.input.value.toNat c.nseg).coreAt c.core).tflags ||| 2 } := by
    rw [State.tencWritten, if_pos h]
    exact State.coreAt_onCore_same (s.tencRun c s.input.value.toNat c.nseg) c.core fun d => { d with tflags := d.tflags ||| 2 }
  rw [core, BitVec.getLsbD_or]
  exact Bool.or_true _

/-- And in which its tiles are at rest and the milestone has passed its id. -/
def State.tencLeft (s : State) (c : TencCmd) : State :=
  (((s.tencWritten c).onTile c.core c.src Tile.release).onTile c.core c.dst Tile.release).tencPass c

theorem State.tencLeft_coreAt (s : State) (c : TencCmd) : (s.tencLeft c).coreAt c.core =
    { (((s.tencWritten c).onTile c.core c.src Tile.release).onTile c.core c.dst Tile.release).coreAt c.core with
      tencOpen := ((((s.tencWritten c).onTile c.core c.src Tile.release).onTile c.core c.dst Tile.release).coreAt c.core).tencOpen.filter
        (· != c.id) } := State.coreAt_onCore_same ..

theorem State.completeTenc_eq {s : State} {y : Nat} {c : TencCmd} {cs : List TencCmd} (h : (s.clusterAt y).tenc = c :: cs)
    (hs : c.started = true) : s.completeTenc y = (s.tencLeft c).onCluster y fun d => { d with tenc := cs } := by
  have written : s.tencWritten c = if s.input.struck then
      ((s.tencRun c (if s.input.struck then s.input.value.toNat else 0) c.nseg).onCore c.core fun d => { d with tflags := d.tflags ||| 2 }).freshen
        (2 ^ 21) else s.tencRun c (if s.input.struck then s.input.value.toNat else 0) c.nseg := by
    unfold State.tencWritten
    split <;> rfl
  rw [State.completeTenc, h]
  dsimp only
  rw [if_pos hs, State.tencLeft, written]

theorem tencSteps (s : State) : let y := s.input.index.toNat % 32
    (∀ c cs, (s.clusterAt y).tenc = c :: cs →
      (Does .tencStart s fun t => t.mem = s.mem ∧ (t.clusterAt y).tenc = { c with started := true } :: cs)
        ∧ (c.started = false → exec .tencComplete s = .next s)
        ∧ (c.started = true → Does .tencComplete s fun t => (t.clusterAt y).tenc = cs ∧ c.id ∉ (t.coreAt c.core).tencOpen
            ∧ (s.input.struck = true → (t.coreAt c.core).tflags.getLsbD 1 = true)
            ∧ ∀ n tl, (n = c.src ∨ n = c.dst) → Sparse.get none (t.coreAt c.core).tiles n = some tl → tl.state = .ready ∧ tl.owner = 0))
      ∧ ((s.clusterAt y).tenc = [] → exec .tencComplete s = .next s ∧ Does .tencStart s fun t => t.mem = s.mem ∧ (t.clusterAt y).tenc = []) := by
  intro y
  have start : (s.startTenc y).clusterAt y = match (s.clusterAt y).tenc with
      | [] => s.clusterAt y
      | t :: ts => { s.clusterAt y with tenc := { t with started := true } :: ts } := State.clusterAt_onCluster_same ..
  refine ⟨fun c cs h => ⟨⟨_, exec_tencStart s, rfl, ?_⟩, fun hs => ?_, fun hs => ?_⟩, fun h => ⟨?_, _, exec_tencStart s, rfl, ?_⟩⟩
  · rw [start, h]
  · rw [exec_tencComplete, State.completeTenc, h]
    dsimp only
    rw [if_neg (by rw [hs]; exact Bool.false_ne_true)]
  · have eq := State.completeTenc_eq h hs
    have core (t : State) : ((t.onCluster y fun d => { d with tenc := cs }).coreAt c.core) = t.coreAt c.core := rfl
    refine ⟨_, exec_tencComplete s, ?_⟩
    rw [show s.input.index.toNat % 32 = y from rfl, eq]
    dsimp only
    rw [State.clusterAt_onCluster_same, core, State.tencLeft_coreAt]
    refine ⟨rfl, fun hm => ?_, fun hstruck => ?_, fun n tl hn ht => State.tiles_released _ _ _ _ hn ht⟩
    · have ne := (List.mem_filter.mp hm).2
      rw [bne_self_eq_false] at ne
      cases ne
    · exact (congrArg (fun f => BitVec.getLsbD f 1) ((State.onTile_field Core.tflags (fun _ _ => rfl) ..).trans
        (State.onTile_field Core.tflags (fun _ _ => rfl) ..))).trans (s.tencWritten_marks c hstruck)
  · rw [exec_tencComplete, State.completeTenc, h]
  · rw [start, h]
    exact h

/-! ### What translates alike (R99 to R104) -/

/-- Two states translate alike: memory, the device and the translation caches are the same. -/
structure Alike (s t : State) : Prop where
  mem : t.mem = s.mem
  dev : t.dev = s.dev
  tlb : ∀ m, (t.coreAt m).tlb = (s.coreAt m).tlb

namespace Alike

theorem refl (s : State) : Alike s s := ⟨rfl, rfl, fun _ => rfl⟩

theorem trans {s t u : State} (h : Alike s t) (g : Alike t u) : Alike s u :=
  ⟨g.mem.trans h.mem, g.dev.trans h.dev, fun m => (g.tlb m).trans (h.tlb m)⟩

theorem symm {s t : State} (h : Alike s t) : Alike t s := ⟨h.mem.symm, h.dev.symm, fun m => (h.tlb m).symm⟩

theorem of_asked {s t : State} (h : OnlyAsked s t) (q : Unsampled s) : Alike s t := ⟨h.mem q, h.dev, h.tlb⟩

theorem of_sendFree (s : State) (q : Message) : Alike s (s.sendFree q) :=
  ⟨s.sendFree_mem q, (OnlyAsked.of_sendFree s q).dev, (OnlyAsked.of_sendFree s q).tlb⟩

theorem of_askSlice (s : State) (m loc : Nat) (wr : Bool) : Alike s (s.askSlice m loc wr) := of_sendFree ..

theorem of_askWalk (s : State) (m root va : Nat) : Alike s (s.askWalk m root va) := by
  unfold State.askWalk
  split
  · exact refl s
  · next hn =>
    clear hn
    generalize s.walkReads va 3 root = as
    induction as generalizing s with
    | nil => exact refl s
    | cons a as ih => exact (of_askSlice s m a false).trans (ih _)

theorem readNat {s t : State} (h : Alike s t) (a n : Nat) : t.readNat a n = s.readNat a n :=
  congrArg leNat (State.readBytes_congr s t a n fun x _ _ => by rw [State.readByte, h.mem, State.readByte])

theorem performNat {s t : State} (h : Alike s t) (a n v : Nat) : Alike (s.performNat a n v) (t.performNat a n v) :=
  ⟨congrArg (pokeBytes · a (leBytes n v)) h.mem, h.dev, h.tlb⟩

theorem updateEntry {s t : State} (h : Alike s t) (m a e : Nat) : Alike (s.updateEntry m a e) (t.updateEntry m a e) :=
  (((of_askSlice s m a true).symm.trans h).trans (of_askSlice t m a true)).performNat a 8 e

theorem cache {s t : State} (h : Alike s t) (m : Nat) (e : TlbEntry) : Alike (s.cache m e) (t.cache m e) := by
  refine ⟨h.mem, h.dev, fun n => ?_⟩
  unfold State.cache
  rw [State.coreAt_onCore, State.coreAt_onCore]
  split
  · exact congrArg (fun tlb => e :: tlb.filter fun u => !(u.root == e.root && u.level == e.level && u.tag == e.tag)) (h.tlb m)
  · exact h.tlb n

theorem ite {s t u v : State} (c : Prop) [Decidable c] (h : Alike s t) (g : Alike u v) : Alike (if c then s else u) (if c then t else v) := by
  split
  · exact h
  · exact g

theorem markDirty {s t : State} (h : Alike s t) (m : Nat) (e : TlbEntry) : Alike (s.markDirty m e) (t.markDirty m e) := by
  unfold State.markDirty
  rw [h.readNat]
  exact .ite _ h ((Alike.ite _ (h.updateEntry ..) h).cache ..)

theorem walk {s t : State} (h : Alike s t) (va l table : Nat) : t.walk va l table = s.walk va l table := by
  induction l generalizing table with
  | zero => rw [State.walk, h.readNat, ← State.walk]
  | succ l ih =>
    rw [State.walk, State.walk, h.readNat, ih]

theorem cached {s t : State} (h : Alike s t) (m root va : Nat) : t.cached m root va = s.cached m root va := by
  rw [State.cached, h.tlb, State.cached]

theorem leafCheck {s t : State} (h : Alike s t) (st : Bool) (acc : Acc) (e pa : Nat) : t.leafCheck st acc e pa = s.leafCheck st acc e pa := by
  unfold State.leafCheck State.carved
  rw [h.dev]

theorem localPlace {s t : State} (h : Alike s t) (me own : Nat) (st : Bool) (va : Nat) : t.localPlace me own st va = s.localPlace me own st va := by
  unfold State.localPlace State.twinOn
  rw [h.dev]

end Alike

/-- Two outcomes alike: the same fault, or the same result in states alike. -/
inductive AlikeOutcome {α : Type} : Except Cause (α × State) → Except Cause (α × State) → Prop
  | error (c : Cause) : AlikeOutcome (.error c) (.error c)
  | ok (x : α) {s t : State} (h : Alike s t) : AlikeOutcome (.ok (x, s)) (.ok (x, t))

namespace Alike

theorem translate {s t : State} (h : Alike s t) (m : Nat) (root : W64) (st : Bool) (va : Nat) (acc : Acc) :
    AlikeOutcome (s.translate m root st va acc) (t.translate m root st va acc) := by
  unfold State.translate
  extract_lets base
  rw [h.cached, h.walk]
  by_cases hb : base = 0
  · rw [if_pos hb, if_pos hb]
    exact .error _
  · rw [if_neg hb, if_neg hb]
    cases s.cached m base va with
    | some e =>
      dsimp only
      rw [h.leafCheck]
      cases s.leafCheck st acc e.pte (leafAddr e.level e.pte va) with
      | error c => exact .error c
      | ok p => exact .ok p (.ite _ (h.markDirty ..) h)
    | none =>
      cases s.walk va 3 base with
      | error c => exact .error c
      | ok x =>
        obtain ⟨l, a, e⟩ := x
        dsimp only
        rw [h.leafCheck]
        cases s.leafCheck st acc e (leafAddr l e va) with
        | error c => exact .error c
        | ok p =>
          have walks := ((of_askWalk s m base va).symm.trans h).trans (of_askWalk t m base va)
          exact .ok p ((Alike.ite _ walks (walks.updateEntry ..)).cache ..)

theorem engineResolve {s t : State} (h : Alike s t) (m : Nat) (root : W64) (va : Nat) (acc : Acc) :
    AlikeOutcome (s.engineResolve m root va acc) (t.engineResolve m root va acc) := by
  unfold State.engineResolve
  rw [h.localPlace]
  split
  · exact .error _
  · split
    · exact h.translate ..
    · cases s.localPlace m 0 false va with
      | error c => exact .error c
      | ok p => exact .ok p h

theorem engineSpan (m : Nat) (root : W64) (acc : Acc) (fuel : Nat) {s t : State} (h : Alike s t) (va n : Nat) :
    AlikeOutcome (s.engineSpan m root acc fuel va n) (t.engineSpan m root acc fuel va n) := by
  induction fuel generalizing s t va n with
  | zero => exact .ok [] h
  | succ fuel ih =>
    rw [State.engineSpan, State.engineSpan]
    split
    · exact .ok [] h
    · have first := h.engineResolve m root (va % 2 ^ 50) acc
      generalize s.engineResolve m root (va % 2 ^ 50) acc = x at first ⊢
      generalize t.engineResolve m root (va % 2 ^ 50) acc = y at first ⊢
      cases first with
      | error c => exact .error c
      | ok p h1 =>
        rename_i s1 t1
        have rest := ih h1 (va + pageRun va n) (n - pageRun va n)
        dsimp only
        generalize s1.engineSpan m root acc fuel (va + pageRun va n) (n - pageRun va n) = x at rest ⊢
        generalize t1.engineSpan m root acc fuel (va + pageRun va n) (n - pageRun va n) = y at rest ⊢
        cases rest with
        | error c => exact .error c
        | ok ps h2 => exact .ok _ h2

theorem codeBuffer {s t : State} (h : Alike s t) (r : CodeReq) : AlikeOutcome (s.codeBuffer r) (t.codeBuffer r) := by
  unfold State.codeBuffer
  split
  · exact .ok [] h
  · split
    · exact .error _
    · have span := h.engineSpan r.core r.root .write (spanFuel r.ncb) r.hbuf r.ncb
      generalize s.engineSpan r.core r.root .write (spanFuel r.ncb) r.hbuf r.ncb = x at span ⊢
      generalize t.engineSpan r.core r.root .write (spanFuel r.ncb) r.hbuf r.ncb = y at span ⊢
      cases span with
      | error c => exact .error c
      | ok rs h1 =>
        dsimp only
        split
        · exact .ok rs h1
        · exact .error _

/-- A fault of the soft buffer is the same fault in a state alike. -/
theorem codeBuffer_error {s t : State} (h : Alike s t) {r : CodeReq} {e : Cause} (he : s.codeBuffer r = .error e) : t.codeBuffer r = .error e := by
  have both := h.codeBuffer r
  rw [he] at both
  generalize t.codeBuffer r = y at both ⊢
  cases both
  rfl

end Alike
end Sys2Proof.Machine
end

section
namespace Sys2Proof.Machine
open Sys2Proof.Claims

/-! ### The coding engines (R358 to R363, O60) -/

theorem exec_codingRequestStart (s : State) : exec .codingRequestStart s = .next (s.startCode (s.input.index.toNat % 16)) := rfl
theorem exec_codingRequestComplete (s : State) : exec .codingRequestComplete s = .next (s.completeCode (s.input.index.toNat % 16)) := rfl
theorem exec_codingFault (s : State) : exec .codingFault s = .next (s.failCode (s.input.index.toNat % 16)) := rfl

theorem State.codeBuffer_outward {s s1 : State} {r : CodeReq} {rs : List (Nat × Nat)} (h : s.codeBuffer r = .ok (rs, s1)) : Outward s s1 := by
  unfold State.codeBuffer at h
  split at h
  · cases h
    exact .refl s
  · split at h
    · cases h
    · split at h
      · cases h
      · next hr =>
        split at h
        · cases h
          exact .of_translated (State.engineSpan_frame _ hr)
        · cases h

theorem Outward.of_performMix (s : State) (cs : List (Nat × List Byte)) : Outward s (s.performMix cs) :=
  (Outward.of_performChunks ..).trans (.of_freshen ..)

theorem OnlyAsked.of_codeRequests (s : State) (y : Nat) (r : CodeReq) : OnlyAsked s (s.codeRequests y r) := by
  unfold State.codeRequests
  extract_lets buf s1 s2
  have h1 : OnlyAsked s s1 := of_requestLines ..
  have h2 : OnlyAsked s s2 := h1.trans (.ite _ (of_engineRequests ..) (.refl s1))
  exact (h2.trans (of_engineRequests ..)).trans (of_requestLines ..)

theorem OnlyAsked.of_codeWalks (s : State) (r : CodeReq) : OnlyAsked s (s.codeWalks r) := (of_walkFaulting ..).trans (of_walkFaulting ..)

theorem State.codeChunks_outward (s : State) (y : Nat) (r : CodeReq) : Outward s (s.codeChunks y r) := by
  have asked := (OnlyAsked.of_codeRequests s y r).toOutward
  unfold State.codeChunks
  dsimp only
  split
  · exact asked
  · next hb =>
    have read := asked.trans (State.codeBuffer_outward hb)
    split
    · exact read.trans (.ite _ (.refl _) (.of_performMix ..))
    · exact (read.trans (.ite _ (.refl _) (.of_performMix ..))).trans (.of_performMix ..)

/-- A request whose soft buffer faults has written nothing. -/
theorem State.codeChunks_mem {s : State} (q : Unsampled s) {r : CodeReq} {e : Cause} (he : s.codeBuffer r = .error e) (y : Nat) :
    (s.codeChunks y r).mem = s.mem := by
  have asked := OnlyAsked.of_codeRequests s y r
  have fault := (Alike.of_asked asked q).codeBuffer_error he
  unfold State.codeChunks
  dsimp only
  rw [fault]
  exact asked.mem q

/-- The request has left its engine's list. -/
theorem State.codeLeave_left (s : State) (y : Nat) (r q : CodeReq) (h : q ∈ Sparse.get [] (s.codeLeave y r).coding y) :
    ¬ (q.core = r.core ∧ q.id = r.id) := by
  have list : Sparse.get [] (s.codeLeave y r).coding y = (Sparse.get [] s.coding y).filter fun q => !(q.core == r.core && q.id == r.id) :=
    (Sparse.get_put ..).trans (if_pos rfl)
  rw [list] at h
  have other := (List.mem_filter.mp h).2
  rintro ⟨hc, hi⟩
  rw [hc, hi, beq_self_eq_true, beq_self_eq_true] at other
  cases other

/-! #### A request completes -/

theorem State.codeFault_none {s : State} {r : CodeReq} (h : s.codeFault r = none) :
    ∃ rs s1 p, s.codeBuffer r = .ok (rs, s1) ∧ s1.codeResultPlace r = .ok p := by
  unfold State.codeFault at h
  split at h
  · cases h
  · next rs s1 hb =>
    split at h
    · cases h
    · split at h
      · cases h
      · next hp => exact ⟨rs, s1, _, hb, hp⟩
      · next hp => exact ⟨rs, s1, _, hb, hp⟩

/-- The state in which a request has written its output and its soft buffer, and its tiles are at rest: what each step before changes does not
matter here. -/
theorem State.completeCode_eq {s : State} {y : Nat} {r : CodeReq} {rs : List CodeReq} (h : Sparse.get [] s.coding y = r :: rs)
    (hs : r.started = true) (hf : s.codeFault r = none) : ∃ u v : State,
      Outward ((u.onTile r.core r.tin Tile.release).onTile r.core r.tout Tile.release) v ∧ s.completeCode y = (v.codePass r).codeLeave y r := by
  obtain ⟨runs, s1, ⟨place, s2⟩, hb, hp⟩ := State.codeFault_none hf
  rw [State.completeCode, h]
  dsimp only
  rw [if_neg (by rw [hs, hf]; exact fun h => h.elim nofun nofun), hb]
  dsimp only
  rw [hp]
  dsimp only
  cases place with
  | none => exact ⟨_, _, .refl _, rfl⟩
  | some loc => exact ⟨_, _, (OnlyAsked.of_engineRequests ..).toOutward.trans (.of_perform ..), rfl⟩

theorem State.completeCode_done {s : State} {y : Nat} {r : CodeReq} {rs : List CodeReq} (h : Sparse.get [] s.coding y = r :: rs)
    (hs : r.started = true) (hf : s.codeFault r = none) :
    r.id ∉ ((s.completeCode y).coreAt r.core).codeOpen
      ∧ (∀ q ∈ Sparse.get [] (s.completeCode y).coding y, ¬ (q.core = r.core ∧ q.id = r.id))
      ∧ ∀ n tl, (n = r.tin ∨ n = r.tout) → Sparse.get none ((s.completeCode y).coreAt r.core).tiles n = some tl →
          tl.state = .ready ∧ tl.owner = 0 := by
  obtain ⟨u, v, out, eq⟩ := State.completeCode_eq h hs hf
  have core : ((v.codePass r).codeLeave y r).coreAt r.core = { v.coreAt r.core with codeOpen := (v.coreAt r.core).codeOpen.filter (· != r.id) } :=
    State.coreAt_onCore_same v r.core fun c => { c with codeOpen := c.codeOpen.filter (· != r.id) }
  rw [eq, core]
  refine ⟨fun hm => ?_, fun q hq => State.codeLeave_left _ y r q hq, fun n tl hn ht => ?_⟩
  · have ne := (List.mem_filter.mp hm).2
    rw [bne_self_eq_false] at ne
    cases ne
  · dsimp only at ht
    rw [out.tiles r.core] at ht
    exact State.tiles_released u r.core r.tin r.tout hn ht

/-! #### A request stops on a fault -/

/-- What the fault of a request leaves of its core. -/
def Core.codeFails (r : CodeReq) (code : Nat) (c : Core) : Core :=
  let stuck := c.codeStuck ++ [(r.key, r.job)]
  if c.codeFault then { c with codeDiscard := c.codeDiscard ++ [r.id], codeStuck := stuck }
  else { c with codeFault := true, codeCode := code, codeFid := r.id, codeJob := r.job, codeStuck := stuck }

theorem Core.codeFails_spec (r : CodeReq) (code : Nat) (c : Core) : (c.codeFails r code).codeFault = true
    ∧ (c.codeFault = false → (c.codeFails r code).codeFid = r.id ∧ (c.codeFails r code).codeCode = code) := by
  unfold Core.codeFails
  dsimp only
  split
  · next h => exact ⟨h, fun h' => absurd h (by rw [h']; exact Bool.false_ne_true)⟩
  · exact ⟨rfl, fun _ => ⟨rfl, rfl⟩⟩

/-- The state in which a request that stops has given its tiles back. -/
def State.codeStopped (s : State) (y : Nat) (r : CodeReq) : State :=
  (((s.codeWalks r).codeChunks y r).onTile r.core r.tin Tile.release).onTile r.core r.tout Tile.giveUp

theorem State.codeStopped_field {α : Type} (f : Core → α)
    (hf : ∀ c tlb cr n home unseen, f { c with tlb := tlb, cr := cr, nflit := n, home := home, unseen := unseen } = f c)
    (ht : ∀ c ts, f { c with tiles := ts } = f c) (s : State) (y : Nat) (r : CodeReq) (m : Nat) :
    f ((s.codeStopped y r).coreAt m) = f (s.coreAt m) := by
  have out : Outward s ((s.codeWalks r).codeChunks y r) := (OnlyAsked.of_codeWalks s r).toOutward.trans (State.codeChunks_outward ..)
  unfold State.codeStopped
  rw [State.onTile_field f ht, State.onTile_field f ht, out.field f hf]

theorem State.failCode_eq {s : State} {y : Nat} {r : CodeReq} {rs : List CodeReq} {code : Nat} (h : Sparse.get [] s.coding y = r :: rs)
    (hc : (if !r.started then none else if s.input.struck then some 7 else s.codeFault r) = some code) :
    s.failCode y = ((s.codeStopped y r).onCore r.core (Core.codeFails r code)).codeLeave y r := by
  rw [State.failCode, h]
  dsimp only
  rw [hc]
  rfl

theorem State.failCode_idle {s : State} {y : Nat} {r : CodeReq} {rs : List CodeReq} (h : Sparse.get [] s.coding y = r :: rs)
    (hc : (if !r.started then none else if s.input.struck then some 7 else s.codeFault r) = none) : s.failCode y = s := by
  rw [State.failCode, h]
  dsimp only
  rw [hc]

theorem State.failCode_recorded {s : State} {y : Nat} {r : CodeReq} {rs : List CodeReq} {code : Nat} (h : Sparse.get [] s.coding y = r :: rs)
    (hc : (if !r.started then none else if s.input.struck then some 7 else s.codeFault r) = some code) :
    ((s.failCode y).coreAt r.core).codeFault = true
      ∧ ((∃ e, s.codeBuffer r = .error e) → Unsampled s → (s.failCode y).mem = s.mem)
      ∧ ((s.coreAt r.core).codeFault = false → ((s.failCode y).coreAt r.core).codeFid = r.id ∧ ((s.failCode y).coreAt r.core).codeCode = code)
      ∧ ∀ q ∈ Sparse.get [] (s.failCode y).coding y, ¬ (q.core = r.core ∧ q.id = r.id) := by
  have core : (((s.codeStopped y r).onCore r.core (Core.codeFails r code)).codeLeave y r).coreAt r.core =
      ((s.codeStopped y r).coreAt r.core).codeFails r code := State.coreAt_onCore_same ..
  have old := s.codeStopped_field Core.codeFault (fun _ _ _ _ _ _ => rfl) (fun _ _ => rfl) y r r.core
  obtain ⟨fault, new⟩ := ((s.codeStopped y r).coreAt r.core).codeFails_spec r code
  rw [State.failCode_eq h hc, core]
  refine ⟨fault, fun ⟨e, he⟩ q => ?_, fun hf => new (old.trans hf), fun q hq => State.codeLeave_left _ y r q hq⟩
  have walks := OnlyAsked.of_codeWalks s r
  have mem : (s.codeStopped y r).mem = ((s.codeWalks r).codeChunks y r).mem := (State.onTile_mem ..).trans (State.onTile_mem ..)
  exact mem.trans ((State.codeChunks_mem (walks.unsampled q) ((Alike.of_asked walks q).codeBuffer_error he) y).trans (walks.mem q))

theorem codingSteps (s : State) : let e := s.input.index.toNat % 16
    (Sparse.get [] s.coding e = [] →
      exec .codingRequestStart s = .next s ∧ exec .codingRequestComplete s = .next s ∧ exec .codingFault s = .next s)
      ∧ (∀ r rs, Sparse.get [] s.coding e = r :: rs →
          (Does .codingRequestStart s fun t => t.mem = s.mem ∧ Sparse.get [] t.coding e = { r with started := true } :: rs)
            ∧ (r.started = false → exec .codingRequestComplete s = .next s ∧ exec .codingFault s = .next s)
            ∧ (r.started = true → s.codeFault r = none → Does .codingRequestComplete s fun t => r.id ∉ (t.coreAt r.core).codeOpen
                ∧ (∀ q ∈ Sparse.get [] t.coding e, ¬ (q.core = r.core ∧ q.id = r.id))
                ∧ ∀ n tl, (n = r.tin ∨ n = r.tout) → Sparse.get none (t.coreAt r.core).tiles n = some tl → tl.state = .ready ∧ tl.owner = 0)
            ∧ (r.started = true → s.codeFault r = none → s.input.struck = false → exec .codingFault s = .next s)
            ∧ (∀ code, r.started = true → (if s.input.struck = true then code = 7 else s.codeFault r = some code) →
                Does .codingFault s fun t => (t.coreAt r.core).codeFault = true
                ∧ ((∃ e, s.codeBuffer r = .error e) → Unsampled s → t.mem = s.mem)
                ∧ ((s.coreAt r.core).codeFault = false → (t.coreAt r.core).codeFid = r.id ∧ (t.coreAt r.core).codeCode = code)
                ∧ ∀ q ∈ Sparse.get [] t.coding e, ¬ (q.core = r.core ∧ q.id = r.id))) := by
  intro e
  refine ⟨fun h => ⟨?_, ?_, ?_⟩, fun r rs h => ⟨⟨_, exec_codingRequestStart s, ?_⟩, fun hs => ⟨?_, ?_⟩,
    fun hs hf => ⟨_, exec_codingRequestComplete s, State.completeCode_done h hs hf⟩, fun hs hf hq => ?_, fun code hs hq =>
    ⟨_, exec_codingFault s, State.failCode_recorded h ?_⟩⟩⟩
  · rw [exec_codingRequestStart, State.startCode, h]
  · rw [exec_codingRequestComplete, State.completeCode, h]
  · rw [exec_codingFault, State.failCode, h]
  · rw [State.startCode, h]
    exact ⟨rfl, (Sparse.get_put ..).trans (if_pos rfl)⟩
  · rw [exec_codingRequestComplete, State.completeCode, h]
    dsimp only
    rw [if_pos (.inl (by rw [hs]; rfl))]
  · rw [exec_codingFault, State.failCode_idle h (by rw [hs]; rfl)]
  · rw [exec_codingFault, State.failCode_idle h (by rw [hs, hf, hq]; rfl)]
  · rw [hs, Bool.not_true, if_neg Bool.false_ne_true]
    split at hq
    · next hst => rw [if_pos hst, hq]
    · next hst => rw [if_neg hst, hq]

end Sys2Proof.Machine
end

section
namespace Sys2Proof.Machine
open Sys2Proof.Claims

/-! ### Windows and sends (R345 to R351, O60) -/

theorem State.onNamedFh_none {s : State} {due : FhItem → Bool} {g : FhItem → State}
    (h : (s.coreAt s.input.core.toNat).fh.find? (fun x => x.handle == s.input.num.toNat) = none) : s.onNamedFh due g = .next s := by
  rw [State.onNamedFh, h]

theorem State.onNamedFh_some {s : State} {due : FhItem → Bool} {g : FhItem → State} {f : FhItem}
    (h : (s.coreAt s.input.core.toNat).fh.find? (fun x => x.handle == s.input.num.toNat) = some f) :
    (due f = true → s.onNamedFh due g = .next (g f)) ∧ (due f = false → s.onNamedFh due g = .next s) := by
  rw [State.onNamedFh, h]
  exact ⟨fun hd => if_pos hd, fun hd => if_neg (by rw [hd]; exact Bool.false_ne_true)⟩

/-- What each item of a handle becomes. -/
theorem itemNow_onFh (s : State) (m handle : Nat) {g : FhItem → FhItem} {P : FhItem → Prop} (h : ∀ f, f.handle = handle → P (g f)) :
    ItemNow (s.onFh m handle g) m handle P := by
  intro x hx hh
  unfold State.onFh at hx
  rw [State.coreAt_onCore_same] at hx
  obtain ⟨f, -, rfl⟩ := List.mem_map.mp hx
  by_cases hf : (f.handle == handle) = true
  · rw [if_pos hf]
    exact h f (beq_iff_eq.mp hf)
  · rw [if_neg hf] at hh
    exact absurd (beq_iff_eq.mpr hh) hf

theorem itemNow_congr {s t : State} {m handle : Nat} {P : FhItem → Prop} (h : (t.coreAt m).fh = (s.coreAt m).fh) (hs : ItemNow s m handle P) :
    ItemNow t m handle P := by
  unfold ItemNow
  rw [h]
  exact hs

theorem itemNow_trimFh {s : State} {m handle : Nat} {P : FhItem → Prop} (h : ItemNow s m handle P) :
    ItemNow (s.onCore m Core.trimFh) m handle P := by
  intro f hf
  rw [State.coreAt_onCore_same] at hf
  exact h f (List.mem_filter.mp hf).1

theorem State.onFh_core (s : State) (m handle : Nat) (g : FhItem → FhItem) (n : Nat) :
    ∃ fh, (s.onFh m handle g).coreAt n = { s.coreAt n with fh := fh } := by
  unfold State.onFh
  rw [State.coreAt_onCore]
  split
  · subst n
    exact ⟨_, rfl⟩
  · exact ⟨_, rfl⟩

theorem State.tiles_onFh (s : State) (m handle : Nat) (g : FhItem → FhItem) (n : Nat) :
    ((s.onFh m handle g).coreAt n).tiles = (s.coreAt n).tiles := by
  obtain ⟨fh, h⟩ := s.onFh_core m handle g n
  rw [h]

theorem State.crGet_onFh (s : State) (m handle : Nat) (g : FhItem → FhItem) (n r : Nat) :
    ((s.onFh m handle g).coreAt n).crGet r = (s.coreAt n).crGet r := by
  obtain ⟨fh, h⟩ := s.onFh_core m handle g n
  rw [h]
  rfl

theorem State.tiles_trimFh (s : State) (m : Nat) : ((s.onCore m Core.trimFh).coreAt m).tiles = (s.coreAt m).tiles := by
  rw [State.coreAt_onCore_same]
  rfl

/-- A counter of a core raised, and nothing else of the core. -/
theorem State.crGet_fhCount (s : State) (m n k r : Nat) :
    ((s.fhCount m n k).coreAt m).crGet r = if r = n then (s.coreAt m).crGet n + BitVec.ofNat 64 k else (s.coreAt m).crGet r := by
  rw [State.fhCount, State.coreAt_onCore_same]
  exact Core.crGet_crSet ..

theorem State.fh_fhCount (s : State) (m n k : Nat) : ((s.fhCount m n k).coreAt m).fh = (s.coreAt m).fh := by
  rw [State.fhCount, State.coreAt_onCore_same]
  rfl

theorem State.tiles_fhCount (s : State) (m n k : Nat) : ((s.fhCount m n k).coreAt m).tiles = (s.coreAt m).tiles := by
  rw [State.fhCount, State.coreAt_onCore_same]
  rfl

/-- A tile given back is at rest. -/
theorem State.tile_released (s : State) (m id : Nat) {tl : Tile} (h : Sparse.get none ((s.onTile m id Tile.release).coreAt m).tiles id = some tl) :
    tl.state = .ready ∧ tl.owner = 0 := by
  rw [State.tiles_onTile, if_pos ⟨rfl, rfl⟩] at h
  obtain ⟨y, -, rfl⟩ := Option.map_eq_some_iff.mp h
  exact ⟨rfl, rfl⟩

/-! #### An item reaches its port -/

theorem lineBusy_false {s : State} {f : FhItem} (h : LineFree s f) : s.lineBusy f = false := by
  refine List.any_eq_false.mpr fun p hp => ?_
  rw [Bool.not_eq_true]
  refine List.any_eq_false.mpr fun g hg => ?_
  unfold FhItem.sameLine
  simp only [Bool.and_eq_true, beq_iff_eq]
  rintro ⟨hs, ⟨⟨hsend, -⟩, hp'⟩, hh⟩
  exact h p hp g hg hs hsend ⟨hp', hh⟩

/-- Whether an item reaches its port when its LAUNCH has passed. -/
def State.launchPassed (s : State) (f : FhItem) : Bool := f.isSend && f.start != 0 && decide (f.start < s.dev.time.toNat)

theorem State.launchPassed_iff (s : State) (f : FhItem) :
    s.launchPassed f = true ↔ f.isSend = true ∧ f.start ≠ 0 ∧ f.start < s.dev.time.toNat := by
  rw [State.launchPassed, Bool.and_eq_true, Bool.and_eq_true, bne_iff_ne, decide_eq_true_iff, and_assoc]

/-- An item at its port. -/
def State.atPort (s : State) (f : FhItem) : FhItem → FhItem := fun g =>
  if f.isSend then
    { g with arrived := true, late := s.launchPassed f, order := s.dev.fhOrder, launchedAt := s.dev.time.toNat
             state := if s.launchPassed f ∧ !(s.lineBusy f) then .sending else g.state }
  else { g with arrived := true }

/-- The state in which an item has reached its port, but for the count of one that is late. -/
def State.itemArrived (s : State) (f : FhItem) : State :=
  ({ s with dev := { s.dev with fhOrder := s.dev.fhOrder + 1 } } : State).onFh f.core f.handle (s.atPort f)

theorem State.portArrival_eq (s : State) (f : FhItem) :
    s.portArrival f = if s.launchPassed f then (s.itemArrived f).fhCount f.core 0x34E 1 else s.itemArrived f := rfl

theorem State.itemArrived_now (s : State) (f : FhItem) : ItemNow (s.itemArrived f) f.core f.handle fun g => g.arrived = true
    ∧ (f.isSend = true → g.late = s.launchPassed f) ∧ (f.isSend = true → s.launchPassed f = true → LineFree s f → g.state = .sending) := by
  refine itemNow_onFh _ _ _ fun g _ => ?_
  unfold State.atPort
  cases hs : f.isSend with
  | false => exact ⟨rfl, nofun, nofun⟩
  | true =>
    rw [if_pos rfl]
    exact ⟨rfl, fun _ => rfl, fun _ hp hf => if_pos ⟨hp, by rw [lineBusy_false hf]; rfl⟩⟩

theorem exec_portArrival (s : State) : exec .portArrival s = s.onNamedFh FhItem.travels s.portArrival := rfl

/-- A send whose LAUNCH has passed is late. -/
theorem State.portArrival_late {s : State} {f : FhItem} (hs : f.isSend = true) (h0 : f.start ≠ 0) (ht : f.start < s.dev.time.toNat) :
    (s.portArrival f).mem = s.mem ∧ ((s.portArrival f).coreAt f.core).crGet 0x34E = (s.coreAt f.core).crGet 0x34E + 1
      ∧ ItemNow (s.portArrival f) f.core f.handle fun g => g.arrived = true ∧ g.late = true ∧ (LineFree s f → g.state = .sending) := by
  have passed := (s.launchPassed_iff f).mpr ⟨hs, h0, ht⟩
  rw [State.portArrival_eq, if_pos passed]
  refine ⟨rfl, ?_, itemNow_congr (State.fh_fhCount ..) fun g hg hh => ?_⟩
  · rw [State.crGet_fhCount, if_pos rfl]
    exact congrArg (· + 1) (State.crGet_onFh ..)
  · obtain ⟨arrived, late, sending⟩ := s.itemArrived_now f g hg hh
    exact ⟨arrived, (late hs).trans passed, sending hs passed⟩

theorem State.portArrival_timely {s : State} {f : FhItem} (h : f.isSend = false ∨ f.start = 0 ∨ s.dev.time.toNat ≤ f.start) :
    (s.portArrival f).mem = s.mem ∧ ItemNow (s.portArrival f) f.core f.handle fun g => g.arrived = true ∧ (f.isSend = true → g.late = false) := by
  have passed : s.launchPassed f = false := by
    rw [← Bool.not_eq_true, State.launchPassed_iff]
    rintro ⟨hs, h0, ht⟩
    rcases h with h | h | h
    · rw [hs] at h
      cases h
    · exact h0 h
    · omega
  rw [State.portArrival_eq, if_neg (by rw [passed]; exact Bool.false_ne_true)]
  refine ⟨rfl, fun g hg hh => ?_⟩
  obtain ⟨arrived, late, -⟩ := s.itemArrived_now f g hg hh
  exact ⟨arrived, fun hs => (late hs).trans passed⟩

/-! #### A window closes -/

theorem State.closeWindow_closes (s : State) (f : FhItem) (t : Nat) : (s.closeWindow f t).mem = s.mem
    ∧ (ItemNow (s.closeWindow f t) f.core f.handle fun g => g.state = .closed ∧ g.closedAt = t
        ∧ g.late = decide (g.slots.length * g.fields.z < g.fields.bytes false))
    ∧ ∀ tl, Sparse.get none ((s.closeWindow f t).coreAt f.core).tiles f.tile = some tl → tl.state = .ready ∧ tl.owner = 0 := by
  unfold State.closeWindow
  refine ⟨State.onTile_mem .., itemNow_congr (State.onTile_field Core.fh (fun _ _ => rfl) ..) (itemNow_onFh _ _ _ fun g _ => ⟨rfl, rfl, rfl⟩),
    fun tl h => State.tile_released _ _ _ h⟩

/-! #### A send finishes -/

theorem State.stamped_spec (s : State) (hi i lo : Nat) (xs : List TxFrame) :
    (s.stamped hi i lo xs).map (fun x => { x with stamp := 0 }) = xs.map (fun x => { x with stamp := 0 })
      ∧ (s.stamped hi i lo xs).Pairwise (fun x y => x.stamp ≤ y.stamp)
      ∧ ∀ x ∈ s.stamped hi i lo xs, lo ≤ x.stamp ∧ (lo ≤ hi → x.stamp ≤ hi) := by
  induction xs generalizing i lo with
  | nil => exact ⟨rfl, List.Pairwise.nil, fun _ h => absurd h List.not_mem_nil⟩
  | cons x xs ih =>
    have below : s.freeNumber (8 * i) 8 % (hi - lo + 1) < hi - lo + 1 := Nat.mod_lt _ (Nat.succ_pos _)
    obtain ⟨same, rising, within⟩ := ih (i + 1) (lo + s.freeNumber (8 * i) 8 % (hi - lo + 1))
    rw [State.stamped]
    refine ⟨by rw [List.map_cons, List.map_cons, same], List.Pairwise.cons (fun y hy => (within y hy).1) rising, fun y hy => ?_⟩
    rcases List.mem_cons.mp hy with rfl | hy
    · exact ⟨Nat.le_add_right .., fun _ => show lo + s.freeNumber (8 * i) 8 % (hi - lo + 1) ≤ hi by omega⟩
    · obtain ⟨low, high⟩ := within y hy
      exact ⟨Nat.le_trans (Nat.le_add_right ..) low, fun _ => high (by omega)⟩

theorem State.finishSend_finishes (s : State) (f : FhItem) : (s.finishSend f).mem = s.mem
    ∧ (ItemNow (s.finishSend f) f.core f.handle fun g => g.state = .sent)
    ∧ (∀ tl, Sparse.get none ((s.finishSend f).coreAt f.core).tiles f.tile = some tl → tl.state = .ready ∧ tl.owner = 0)
    ∧ ∃ fs, (s.finishSend f).dev.sent = s.dev.sent ++ fs
      ∧ fs.map (fun x => { x with stamp := 0 }) = (s.sendData f).map (fun x => { x with stamp := 0 })
      ∧ fs.Pairwise (fun x y => x.stamp ≤ y.stamp)
      ∧ ∀ x ∈ fs, f.launchedAt ≤ x.stamp ∧ (f.launchedAt ≤ s.dev.time.toNat → x.stamp ≤ s.dev.time.toNat) := by
  have sent (u : State) : (u.onTile f.core f.tile Tile.release).dev = u.dev := by
    obtain ⟨core, h⟩ := (u.onTile_core f.core f.tile Tile.release).1
    rw [h]
  unfold State.finishSend
  dsimp only
  refine ⟨State.onTile_mem .., itemNow_trimFh (itemNow_congr (State.onTile_field Core.fh (fun _ _ => rfl) ..) (itemNow_onFh _ _ _ fun g _ => rfl)),
    fun tl h => ?_, s.stamped s.dev.time.toNat 0 f.launchedAt (s.sendData f), ?_, s.stamped_spec ..⟩
  · rw [State.tiles_trimFh] at h
    exact State.tile_released _ _ _ h
  · exact congrArg Device.sent (sent _)

/-! #### The clause -/

theorem exec_windowOpen (s : State) : exec .windowOpen s =
    s.onNamedFh s.opensNow fun f => s.onFh f.core f.handle fun g => { g with state := .opened } := rfl
theorem exec_windowClose (s : State) : exec .windowClose s = s.onNamedFh s.closesNow fun f => s.closeWindow f s.dev.time.toNat := rfl
theorem exec_windowExpiry (s : State) : exec .windowExpiry s =
    s.onNamedFh s.expiresNow fun f => (s.onFh f.core f.handle fun g => { g with gone := true }).onCore f.core Core.trimFh := rfl
theorem exec_sendLaunch (s : State) : exec .sendLaunch s =
    s.onNamedFh s.launchesNow fun f => s.onFh f.core f.handle fun g => { g with state := .sending, launchedAt := max f.start g.launchedAt } := rfl
theorem exec_sendFinish (s : State) : exec .sendFinish s = s.onNamedFh FhItem.leaving s.finishSend := rfl

theorem fronthaulSteps (s : State) : let m := s.input.core.toNat
    let named := (s.coreAt m).fh.find? fun f => f.handle == s.input.num.toNat
    (∀ i, (i = .portArrival ∨ i = .windowOpen ∨ i = .windowClose ∨ i = .windowExpiry ∨ i = .sendLaunch ∨ i = .sendFinish) →
      named = none → exec i s = .next s)
      ∧ ∀ f, named = some f → f.core = m →
          (f.travels = false → exec .portArrival s = .next s)
            ∧ (f.travels = true → f.isSend = true → f.start ≠ 0 → f.start < s.dev.time.toNat → Does .portArrival s fun t =>
                t.mem = s.mem ∧ (t.coreAt m).crGet 0x34E = (s.coreAt m).crGet 0x34E + 1
                  ∧ ItemNow t m f.handle fun g => g.arrived = true ∧ g.late = true ∧ (LineFree s f → g.state = .sending))
            ∧ (f.travels = true → (f.isSend = false ∨ f.start = 0 ∨ s.dev.time.toNat ≤ f.start) → Does .portArrival s fun t =>
                t.mem = s.mem ∧ ItemNow t m f.handle fun g => g.arrived = true ∧ (f.isSend = true → g.late = false))
            ∧ (s.opensNow f = true → Does .windowOpen s fun t => t.mem = s.mem ∧ ItemNow t m f.handle fun g => g.state = .opened)
            ∧ (s.opensNow f = false → exec .windowOpen s = .next s)
            ∧ (s.closesNow f = true → Does .windowClose s fun t => t.mem = s.mem
                ∧ (ItemNow t m f.handle fun g => g.state = .closed ∧ g.closedAt = s.dev.time.toNat
                    ∧ g.late = decide (g.slots.length * g.fields.z < g.fields.bytes false))
                ∧ ∀ tl, Sparse.get none (t.coreAt m).tiles f.tile = some tl → tl.state = .ready ∧ tl.owner = 0)
            ∧ (s.closesNow f = false → exec .windowClose s = .next s)
            ∧ (s.expiresNow f = true → Does .windowExpiry s fun t => t.mem = s.mem ∧ ItemNow t m f.handle fun g => g.gone = true)
            ∧ (s.expiresNow f = false → exec .windowExpiry s = .next s)
            ∧ (s.launchesNow f = true → Does .sendLaunch s fun t => t.mem = s.mem ∧ ItemNow t m f.handle fun g => g.state = .sending)
            ∧ (s.launchesNow f = false → exec .sendLaunch s = .next s)
            ∧ (f.leaving = true → Does .sendFinish s fun t => t.mem = s.mem ∧ (ItemNow t m f.handle fun g => g.state = .sent)
                ∧ (∀ tl, Sparse.get none (t.coreAt m).tiles f.tile = some tl → tl.state = .ready ∧ tl.owner = 0)
                ∧ ∃ fs, t.dev.sent = s.dev.sent ++ fs
                  ∧ fs.map (fun x => { x with stamp := 0 }) = (s.sendData f).map (fun x => { x with stamp := 0 })
                  ∧ fs.Pairwise (fun x y => x.stamp ≤ y.stamp)
                  ∧ ∀ x ∈ fs, f.launchedAt ≤ x.stamp ∧ (f.launchedAt ≤ s.dev.time.toNat → x.stamp ≤ s.dev.time.toNat))
            ∧ (f.leaving = false → exec .sendFinish s = .next s) := by
  intro m named
  refine ⟨fun i hi h => ?_, fun f h hm => ?_⟩
  · rcases hi with rfl | rfl | rfl | rfl | rfl | rfl
    · rw [exec_portArrival, State.onNamedFh_none h]
    · rw [exec_windowOpen, State.onNamedFh_none h]
    · rw [exec_windowClose, State.onNamedFh_none h]
    · rw [exec_windowExpiry, State.onNamedFh_none h]
    · rw [exec_sendLaunch, State.onNamedFh_none h]
    · rw [exec_sendFinish, State.onNamedFh_none h]
  · obtain ⟨arrives, stays⟩ := State.onNamedFh_some (due := FhItem.travels) (g := s.portArrival) h
    obtain ⟨opens, shut⟩ := State.onNamedFh_some (due := s.opensNow) (g := fun f => s.onFh f.core f.handle fun g => { g with state := .opened }) h
    obtain ⟨closes, kept⟩ := State.onNamedFh_some (due := s.closesNow) (g := fun f => s.closeWindow f s.dev.time.toNat) h
    obtain ⟨expires, lasts⟩ := State.onNamedFh_some (due := s.expiresNow)
      (g := fun f => (s.onFh f.core f.handle fun g => { g with gone := true }).onCore f.core Core.trimFh) h
    obtain ⟨launches, waits⟩ := State.onNamedFh_some (due := s.launchesNow)
      (g := fun f => s.onFh f.core f.handle fun g => { g with state := .sending, launchedAt := max f.start g.launchedAt }) h
    obtain ⟨finishes, goes⟩ := State.onNamedFh_some (due := FhItem.leaving) (g := s.finishSend) h
    rw [← hm]
    refine ⟨stays, fun ht hs h0 hp => ⟨_, arrives ht, State.portArrival_late hs h0 hp⟩, fun ht hp => ⟨_, arrives ht, State.portArrival_timely hp⟩,
      fun hd => ⟨_, opens hd, rfl, itemNow_onFh _ _ _ fun _ _ => rfl⟩, shut, fun hd => ⟨_, closes hd, State.closeWindow_closes ..⟩, kept,
      fun hd => ⟨_, expires hd, rfl, itemNow_trimFh (itemNow_onFh _ _ _ fun _ _ => rfl)⟩, lasts,
      fun hd => ⟨_, launches hd, rfl, itemNow_onFh _ _ _ fun _ _ => rfl⟩, waits, fun hd => ⟨_, finishes hd, State.finishSend_finishes ..⟩, goes⟩

end Sys2Proof.Machine
end

section
namespace Sys2Proof.Machine
open Sys2Proof.Claims

/-! ### Received sections (R346 to R348, O60) -/

/-! #### The window that takes a PRB -/

theorem FhItem.matches_iff (w : FhItem) (f : FhFields) (prb t : Nat) : w.matches f prb t = true ↔ Covers w f prb t := by
  have state : (w.state != .closed || decide (t < w.closedAt + 1000000)) = true ↔ (w.state = .closed → t < w.closedAt + 1000000) := by
    rw [Bool.or_eq_true, bne_iff_ne, decide_eq_true_iff, imp_iff_not_or]
  have mode : ((w.fields.mode == 2) == (f.mode == 2)) = true ↔ (w.fields.mode = 2 ↔ f.mode = 2) := by
    rw [beq_iff_eq, Bool.eq_iff_iff, beq_iff_eq, beq_iff_eq]
  unfold FhItem.matches FhItem.matchable Covers
  simp only [Bool.and_eq_true, Bool.not_eq_true', beq_iff_eq, decide_eq_true_iff, state, mode, and_assoc]

/-- The windows that cover a PRB now. -/
def State.covering (s : State) (f : FhFields) (prb : Nat) : List FhItem := (s.core.flatMap fun p => p.2.fh).filter fun w => w.matches f prb s.stamp

theorem State.mem_covering (s : State) (f : FhFields) (prb : Nat) (w : FhItem) :
    w ∈ s.covering f prb ↔ (∃ p ∈ s.core, w ∈ p.2.fh) ∧ Covers w f prb s.stamp := by
  rw [State.covering, List.mem_filter, List.mem_flatMap, FhItem.matches_iff]

theorem State.windowFor_none {s : State} {f : FhFields} {prb : Nat} (h : ∀ p ∈ s.core, ∀ w ∈ p.2.fh, ¬ Covers w f prb s.stamp) :
    s.windowFor f prb = none := by
  have empty : s.covering f prb = [] := List.eq_nil_iff_forall_not_mem.mpr fun w hw => by
    obtain ⟨⟨p, hp, hw⟩, cover⟩ := (s.mem_covering f prb w).mp hw
    exact h p hp w hw cover
  unfold State.windowFor
  rw [← State.covering, empty]

theorem State.windowFor_some {s : State} {f : FhFields} {prb : Nat} {w : FhItem} (h : TakenBy s f prb s.stamp w) : s.windowFor f prb = some w := by
  obtain ⟨here, cover, first⟩ := h
  have mem := (s.mem_covering f prb w).mpr ⟨here, cover⟩
  unfold State.windowFor
  rw [← State.covering]
  dsimp only
  split
  · next hn =>
    rw [hn] at mem
    exact absurd mem List.not_mem_nil
  · next v vs hv =>
    rw [hv] at mem
    have among := foldl_choose_mem (fun e b : FhItem => e.order < b.order) vs v
    have least := foldl_least FhItem.order vs v w mem
    rw [← hv, State.mem_covering] at among
    obtain ⟨⟨p, hp, hin⟩, cov⟩ := among
    refine congrArg some (by_contra fun ne => ?_)
    exact absurd (first p hp _ hin cov ne) (Nat.not_lt.mpr least)

/-! #### What a slot receives -/

theorem saturateTo_eq (x : Int) : (truncInt (clampInt true 16 x).1 16, (clampInt true 16 x).2) = saturateTo true 16 x := by
  have low : intMin true 16 = -32768 := rfl
  have high : intMax true 16 = 32767 := rfl
  have sat : saturateTo true 16 x = (truncInt (max (-32768) (min 32767 x)) 16, decide (x < -32768 ∨ 32767 < x)) := rfl
  rw [sat, clampInt, low, high]
  by_cases lo : x < -32768
  · rw [if_pos lo, max_eq_left (by omega), decide_eq_true (.inl lo)]
  · by_cases hi : 32767 < x
    · rw [if_neg lo, if_pos hi, min_eq_left (by omega), max_eq_right (by omega), decide_eq_true (.inr hi)]
    · rw [if_neg lo, if_neg hi, min_eq_right (by omega), max_eq_right (by omega), decide_eq_false (by omega)]

theorem readInt_eq {w n : Nat} (hw : w ≠ 0) (hn : n < 2 ^ w) : readInt true w n = signedOf w n := by
  obtain ⟨k, rfl⟩ : ∃ k, w = k + 1 := ⟨w - 1, by omega⟩
  unfold readInt signedOf
  rw [Nat.mod_eq_of_lt hn, Nat.add_sub_cancel]
  dsimp only
  rw [Bool.true_and]
  have two : 2 ^ (k + 1) = 2 * 2 ^ k := by rw [Nat.pow_succ, Nat.mul_comm]
  by_cases h : n < 2 ^ k
  · rw [if_pos h, if_neg (by rw [decide_eq_true_iff]; omega)]
  · rw [if_neg h, if_pos (by rw [decide_eq_true_iff]; omega), Nat.cast_pow]
    rfl

theorem bigEndian_lt (bs : List Byte) (n : Nat) : bs.foldl (fun n b => 256 * n + b.toNat) n < (n + 1) * 256 ^ bs.length := by
  induction bs generalizing n with
  | nil => rw [List.foldl_nil, List.length_nil, Nat.pow_zero, Nat.mul_one]; exact Nat.lt_succ_self n
  | cons b bs ih =>
    have hb := b.isLt
    rw [List.foldl_cons, List.length_cons, Nat.pow_succ, Nat.mul_comm (256 ^ bs.length), ← Nat.mul_assoc]
    exact Nat.lt_of_lt_of_le (ih _) (Nat.mul_le_mul_right _ (by omega))

theorem truncInt_readInt {n : Nat} (hn : n < 65536) : truncInt (readInt true 16 n) 16 = n := by
  rw [readInt_eq (by decide) hn]
  unfold truncInt signedOf
  split <;> omega

/-- Part i of a PRB, as the claims compute it. -/
theorem prbPart_eq (width : Nat) (bs : List Byte) (i : Nat) : (truncInt (prbPart width bs i).1 16, (prbPart width bs i).2) = prbValue width bs i := by
  unfold prbPart prbValue
  by_cases h0 : width = 0
  · rw [if_pos h0, if_pos h0]
    have lt := bigEndian_lt ((bs.drop (2 * i)).take 2) 0
    have len : ((bs.drop (2 * i)).take 2).length ≤ 2 := List.length_take_le ..
    have small := Nat.lt_of_lt_of_le lt (Nat.mul_le_mul_left 1 (Nat.pow_le_pow_right (show 0 < 256 by omega) len))
    exact Prod.ext (truncInt_readInt small) rfl
  · rw [if_neg h0, if_neg h0]
    dsimp only
    rw [readInt_eq h0 (Nat.mod_lt _ (Nat.two_pow_pos _))]
    exact saturateTo_eq _

theorem slotData_plain {g : FhFields} (h : g.mode ≠ 1) (bs : List Byte) : slotData g bs =
    ((List.range 24).flatMap fun i => leBytes 2 (prbValue g.width bs i).1, ((List.range 24).filter fun i => (prbValue g.width bs i).2).length) := by
  have part (i : Nat) := Prod.ext_iff.mp (prbPart_eq g.width bs i)
  unfold slotData
  rw [if_neg h]
  dsimp only
  rw [List.flatMap_map, List.filter_map, List.length_map]
  refine congrArg₂ Prod.mk (List.flatMap_congr fun i _ => by rw [← (part i).1]) (congrArg List.length (List.filter_congr fun i _ => ?_))
  exact (part i).2

/-! #### A PRB that enters its slot -/

/-- The number of a section's PRB in a window. -/
def FhItem.slotOf (w : FhItem) (f : FhFields) (prb : Nat) : Nat := (f.sym0 - w.fields.sym0) * w.fields.nprb + (prb - w.fields.prb0)

/-- The state in which a PRB's bytes are in its slot, with the window's ARR. -/
def State.prbStored (s : State) (w : FhItem) (slot : Nat) (tl : Tile) (bs : List Byte) : State :=
  (s.perform (tileLoc w.core tl + w.fields.off + slot * w.fields.z) (slotData w.fields bs).1).onTile w.core w.tile
    fun t => { t with arr := arrAdd t.arr w.fields.z }

/-- And in which the window has it, and it is counted. -/
def State.prbEntered (s : State) (w : FhItem) (slot : Nat) (tl : Tile) (bs : List Byte) : State :=
  (((s.prbStored w slot tl bs).onFh w.core w.handle fun w => { w with slots := w.slots ++ [slot] }).fhCount w.core 0x348 1).fhCount w.core 0x34D
    (slotData w.fields bs).2

theorem State.prbEntered_mem (s : State) (w : FhItem) (slot : Nat) (tl : Tile) (bs : List Byte) : (s.prbEntered w slot tl bs).mem =
    pokeBytes s.mem (tileLoc w.core tl + w.fields.off + slot * w.fields.z) (slotData w.fields bs).1 :=
  (State.onTile_mem ..).trans (State.perform_mem ..)

theorem State.prbEntered_counts (s : State) (w : FhItem) (slot : Nat) (tl : Tile) (bs : List Byte) :
    ((s.prbEntered w slot tl bs).coreAt w.core).crGet 0x348 = (s.coreAt w.core).crGet 0x348 + 1
      ∧ ((s.prbEntered w slot tl bs).coreAt w.core).crGet 0x34D = (s.coreAt w.core).crGet 0x34D + BitVec.ofNat 64 (slotData w.fields bs).2 := by
  have stored (r : Nat) : ((s.prbStored w slot tl bs).coreAt w.core).crGet r = (s.coreAt w.core).crGet r :=
    State.onTile_field (fun c => c.crGet r) (fun _ _ => rfl) ..
  unfold State.prbEntered
  constructor
  · rw [State.crGet_fhCount, if_neg (by decide), State.crGet_fhCount, if_pos rfl, State.crGet_onFh, stored]
    rfl
  · rw [State.crGet_fhCount, if_pos rfl, State.crGet_fhCount, if_neg (by decide), State.crGet_onFh, stored]

theorem State.prbEntered_slots (s : State) (w : FhItem) (slot : Nat) (tl : Tile) (bs : List Byte) :
    ItemNow (s.prbEntered w slot tl bs) w.core w.handle fun f => slot ∈ f.slots :=
  itemNow_congr ((State.fh_fhCount ..).trans (State.fh_fhCount ..))
    (itemNow_onFh _ _ _ fun _ _ => List.mem_append_right _ (List.mem_singleton_self slot))

theorem State.prbEntered_tile (s : State) (w : FhItem) (slot : Nat) {tl : Tile} (bs : List Byte)
    (ht : Sparse.get none (s.coreAt w.core).tiles w.tile = some tl) :
    Sparse.get none ((s.prbEntered w slot tl bs).coreAt w.core).tiles w.tile = some { tl with arr := arrAdd tl.arr w.fields.z } := by
  unfold State.prbEntered
  rw [State.tiles_fhCount, State.tiles_fhCount, State.tiles_onFh, State.prbStored, State.tiles_onTile, if_pos ⟨rfl, rfl⟩]
  exact congrArg (Option.map _) ht

theorem State.closeWindow_keeps (s : State) (f : FhItem) (t r : Nat) :
    ((s.closeWindow f t).coreAt f.core).crGet r = (s.coreAt f.core).crGet r ∧ (s.closeWindow f t).mem = s.mem := by
  unfold State.closeWindow
  exact ⟨(State.onTile_field (fun c => c.crGet r) (fun _ _ => rfl) ..).trans (State.crGet_onFh ..), State.onTile_mem ..⟩

theorem State.closeWindow_slots {s : State} {f : FhItem} {t slot : Nat} (h : ItemNow s f.core f.handle fun g => slot ∈ g.slots) :
    ItemNow (s.closeWindow f t) f.core f.handle fun g => slot ∈ g.slots := by
  unfold State.closeWindow
  refine itemNow_congr (State.onTile_field Core.fh (fun _ _ => rfl) ..) fun x hx hh => ?_
  unfold State.onFh at hx
  rw [State.coreAt_onCore_same] at hx
  obtain ⟨g, hg, rfl⟩ := List.mem_map.mp hx
  by_cases hf : (g.handle == f.handle) = true
  · rw [if_pos hf]
    exact h g hg (beq_iff_eq.mp hf)
  · rw [if_neg hf] at hh
    exact absurd (beq_iff_eq.mpr hh) hf

theorem State.closeWindow_tile {s : State} {f : FhItem} {t : Nat} {tl : Tile} (h : Sparse.get none (s.coreAt f.core).tiles f.tile = some tl) :
    Sparse.get none ((s.closeWindow f t).coreAt f.core).tiles f.tile = some { tl with state := .ready, owner := 0 } := by
  unfold State.closeWindow
  rw [State.tiles_onTile, if_pos ⟨rfl, rfl⟩, State.tiles_onFh, h]
  rfl

/-- A PRB that enters its slot, and the window that it fills. -/
def State.prbTakes (s : State) (w : FhItem) (slot : Nat) (tl : Tile) (bs : List Byte) : State :=
  if (w.slots.length + 1) * w.fields.z < w.fields.bytes false then s.prbEntered w slot tl bs
  else (s.prbEntered w slot tl bs).closeWindow { w with slots := w.slots ++ [slot] } s.stamp

theorem State.prbTaken (s : State) (w : FhItem) (slot : Nat) {tl : Tile} (bs : List Byte)
    (ht : Sparse.get none (s.coreAt w.core).tiles w.tile = some tl) : PrbTaken s (s.prbTakes w slot tl bs) w slot tl bs := by
  have entered : (s.prbTakes w slot tl bs).mem = (s.prbEntered w slot tl bs).mem
      ∧ (∀ r, ((s.prbTakes w slot tl bs).coreAt w.core).crGet r = ((s.prbEntered w slot tl bs).coreAt w.core).crGet r)
      ∧ ItemNow (s.prbTakes w slot tl bs) w.core w.handle fun f => slot ∈ f.slots := by
    have slots := s.prbEntered_slots w slot tl bs
    unfold State.prbTakes
    split
    · exact ⟨rfl, fun _ => rfl, slots⟩
    · exact ⟨(State.closeWindow_keeps _ _ _ 0).2, fun r => (State.closeWindow_keeps _ { w with slots := w.slots ++ [slot] } _ r).1,
        State.closeWindow_slots (f := { w with slots := w.slots ++ [slot] }) slots⟩
  obtain ⟨mem, cr, slots⟩ := entered
  obtain ⟨count, clamped⟩ := s.prbEntered_counts w slot tl bs
  have tile := s.prbEntered_tile w slot bs ht
  rw [State.prbEntered_mem] at mem
  rw [← cr] at count clamped
  have done : w.fields.nsym * w.fields.nprb * w.fields.z ≤ (w.slots.length + 1) * w.fields.z ↔
      ¬ (w.slots.length + 1) * w.fields.z < w.fields.bytes false := Nat.not_lt.symm
  refine ⟨fun hm => ?_, fun hm => ?_, count, slots, fun hf => ?_, fun hf => ?_⟩
  · have data : slotData w.fields bs = (bs.take 64, 0) := if_pos hm
    rw [data] at mem clamped
    exact ⟨mem, clamped.trans (BitVec.add_zero _)⟩
  · rw [slotData_plain hm] at mem clamped
    exact ⟨mem, clamped⟩
  · have eq : s.prbTakes w slot tl bs = s.prbEntered w slot tl bs := if_pos (not_not.mp fun h => hf (done.mpr h))
    rw [eq]
    exact tile
  · have eq : s.prbTakes w slot tl bs = (s.prbEntered w slot tl bs).closeWindow { w with slots := w.slots ++ [slot] } s.stamp :=
      if_neg (done.mp hf)
    obtain ⟨-, closed, -⟩ := (s.prbEntered w slot tl bs).closeWindow_closes { w with slots := w.slots ++ [slot] } s.stamp
    rw [eq]
    exact ⟨fun f hfh hh => ⟨(closed f hfh hh).1, (closed f hfh hh).2.1⟩, State.closeWindow_tile (f := { w with slots := w.slots ++ [slot] }) tile⟩

end Sys2Proof.Machine
end

section
namespace Sys2Proof.Machine
open Sys2Proof.Claims

/-! ### Sections and frames (R342, R347, O60) -/

/-- The PRBs of a section with their numbers. -/
def numberedPrbs (f : FhFields) (prbs : List (List Byte)) : List (Nat × List Byte) := prbs.zipIdx.map fun p => (f.prb0 + p.2, p.1)

theorem State.section_eq {s : State} {u : UPlane} (h : s.linkUp (fhFields u.w0 u.w1).port (fhFields u.w0 u.w1).half = true) :
    s.section_ u = match s.badHeader (fhFields u.w0 u.w1) ((numberedPrbs (fhFields u.w0 u.w1) u.prbs).map (·.1)) with
      | some w => (s.reportPrbs ((numberedPrbs (fhFields u.w0 u.w1) u.prbs).filter fun p => (s.windowFor (fhFields u.w0 u.w1) p.1).isNone).length).fhCount
          w.core 0x34C 1
      | none => (numberedPrbs (fhFields u.w0 u.w1) u.prbs).foldl (fun s p => s.takePrb (fhFields u.w0 u.w1) p.1 p.2) s := by
  unfold State.section_
  dsimp only
  rw [h, Bool.not_true, if_neg Bool.false_ne_true]
  rfl

theorem State.windowFor_reportPrbs (s : State) (n : Nat) (f : FhFields) (prb : Nat) : (s.reportPrbs n).windowFor f prb = s.windowFor f prb := rfl

/-- PRBs that match no window are reported, all of them. -/
theorem State.foldl_takePrb_none {f : FhFields} (ps : List (Nat × List Byte)) (s : State) (h : ∀ p ∈ ps, s.windowFor f p.1 = none) :
    ps.foldl (fun s p => s.takePrb f p.1 p.2) s = s.reportPrbs ps.length := by
  induction ps generalizing s with
  | nil => rfl
  | cons p ps ih =>
    have first : s.takePrb f p.1 p.2 = s.reportPrbs 1 := by rw [State.takePrb, h p List.mem_cons_self]
    rw [List.foldl_cons, first, ih _ fun q hq => (State.windowFor_reportPrbs ..).trans (h q (List.mem_cons_of_mem _ hq)), List.length_cons]
    unfold State.reportPrbs
    dsimp only
    rw [Nat.add_assoc, Nat.add_comm 1]

theorem State.section_unmatched {s : State} {u : UPlane} (hl : s.linkUp (fhFields u.w0 u.w1).port (fhFields u.w0 u.w1).half = true)
    (h : ∀ i, i < u.prbs.length → ∀ p ∈ s.core, ∀ w ∈ p.2.fh, ¬ Covers w (fhFields u.w0 u.w1) ((fhFields u.w0 u.w1).prb0 + i) s.stamp) :
    s.section_ u = s.reportPrbs u.prbs.length := by
  have none (p : Nat × List Byte) (hp : p ∈ numberedPrbs (fhFields u.w0 u.w1) u.prbs) : s.windowFor (fhFields u.w0 u.w1) p.1 = none := by
    obtain ⟨⟨bs, i⟩, hb, rfl⟩ := List.mem_map.mp hp
    have hi := List.snd_lt_of_mem_zipIdx hb
    exact State.windowFor_none (h i hi)
  have good : s.badHeader (fhFields u.w0 u.w1) ((numberedPrbs (fhFields u.w0 u.w1) u.prbs).map (·.1)) = Option.none := by
    unfold State.badHeader
    rw [List.head?_eq_none_iff, List.filterMap_eq_nil_iff]
    intro a ha
    obtain ⟨p, hp, rfl⟩ := List.mem_map.mp ha
    rw [none p hp]
  rw [State.section_eq hl, good]
  dsimp only
  rw [State.foldl_takePrb_none _ s none, numberedPrbs, List.length_map, List.length_zipIdx]

/-- A section of one PRB that a window takes. -/
theorem State.section_single {s : State} {u : UPlane} {bs : List Byte} {w : FhItem}
    (hl : s.linkUp (fhFields u.w0 u.w1).port (fhFields u.w0 u.w1).half = true) (hp : u.prbs = [bs])
    (hw : TakenBy s (fhFields u.w0 u.w1) (fhFields u.w0 u.w1).prb0 s.stamp w) :
    s.section_ u = if w.fields.width = (fhFields u.w0 u.w1).width then s.takePrb (fhFields u.w0 u.w1) (fhFields u.w0 u.w1).prb0 bs
      else (s.reportPrbs 0).fhCount w.core 0x34C 1 := by
  have window := State.windowFor_some hw
  have one : numberedPrbs (fhFields u.w0 u.w1) u.prbs = [((fhFields u.w0 u.w1).prb0, bs)] := by rw [hp]; rfl
  have bad : s.badHeader (fhFields u.w0 u.w1) [(fhFields u.w0 u.w1).prb0] = if w.fields.width = (fhFields u.w0 u.w1).width then none else some w := by
    unfold State.badHeader
    rw [List.filterMap_cons, window]
    dsimp only
    split
    · next h =>
      rw [if_pos (by by_contra hn; rw [if_neg hn] at h; cases h)]
      rfl
    · next v h =>
      exact h.symm
  rw [State.section_eq hl, one, List.map_cons, List.map_nil, bad]
  by_cases h : w.fields.width = (fhFields u.w0 u.w1).width
  · rw [if_pos h, if_pos h]
    rfl
  · rw [if_neg h, if_neg h]
    dsimp only
    rw [List.filter_cons, window]
    rfl

/-- What becomes of a PRB that a window takes. -/
theorem State.takePrb_window {s : State} {f : FhFields} {prb : Nat} {bs : List Byte} {w : FhItem} (h : s.windowFor f prb = some w) :
    s.takePrb f prb bs =
      if s.stamp < w.start then s.fhCount w.core 0x34A 1
      else if w.stop ≤ s.stamp then s.fhCount w.core 0x349 1
      else if w.slots.contains (w.slotOf f prb) then s.fhCount w.core 0x34B 1
      else if w.state = .closed then s.fhCount w.core 0x349 1
      else match Sparse.get none (s.coreAt w.core).tiles w.tile with
        | none => s
        | some tl => s.prbTakes w (w.slotOf f prb) tl bs := by
  rw [State.takePrb, h]
  rfl

theorem exec_uPlaneMessage (s : State) : exec .uPlaneMessage s = .next (s.section_ s.input.section_) := rfl

theorem State.fhCount_onlyCounts (s : State) (m n : Nat) : OnlyCounts s (s.fhCount m n 1) m n := rfl

theorem State.reportPrbs_zero (s : State) : s.reportPrbs 0 = s := rfl

/-- What a window does with the PRB it takes (R347, steps 3 to 6). -/
theorem State.takePrb_outcome {s : State} {f : FhFields} {prb : Nat} {w : FhItem} (bs : List Byte) (h : s.windowFor f prb = some w) :
    let t := s.takePrb f prb bs
    let slot := w.slotOf f prb
    (s.stamp < w.start → OnlyCounts s t w.core 0x34A)
      ∧ (w.start ≤ s.stamp → w.stop ≤ s.stamp → OnlyCounts s t w.core 0x349)
      ∧ (w.start ≤ s.stamp → s.stamp < w.stop → slot ∈ w.slots → OnlyCounts s t w.core 0x34B)
      ∧ (w.start ≤ s.stamp → s.stamp < w.stop → slot ∉ w.slots → w.state = .closed → OnlyCounts s t w.core 0x349)
      ∧ (w.start ≤ s.stamp → s.stamp < w.stop → slot ∉ w.slots → w.state ≠ .closed →
          ∀ tl, Sparse.get none (s.coreAt w.core).tiles w.tile = some tl → PrbTaken s t w slot tl bs) := by
  have member : w.slots.contains (w.slotOf f prb) = true ↔ w.slotOf f prb ∈ w.slots := List.contains_iff_mem
  dsimp only
  rw [State.takePrb_window h]
  refine ⟨fun h1 => ?_, fun h1 h2 => ?_, fun h1 h2 h3 => ?_, fun h1 h2 h3 h4 => ?_, fun h1 h2 h3 h4 tl ht => ?_⟩
  · rw [if_pos h1]
    exact s.fhCount_onlyCounts ..
  · rw [if_neg (Nat.not_lt.mpr h1), if_pos h2]
    exact s.fhCount_onlyCounts ..
  · rw [if_neg (Nat.not_lt.mpr h1), if_neg (Nat.not_le.mpr h2), if_pos (member.mpr h3)]
    exact s.fhCount_onlyCounts ..
  · rw [if_neg (Nat.not_lt.mpr h1), if_neg (Nat.not_le.mpr h2), if_neg fun h => h3 (member.mp h), if_pos h4]
    exact s.fhCount_onlyCounts ..
  · rw [if_neg (Nat.not_lt.mpr h1), if_neg (Nat.not_le.mpr h2), if_neg fun h => h3 (member.mp h), if_neg h4, ht]
    exact s.prbTaken w _ bs ht

theorem sectionSteps (s : State) : let u := s.input.section_
    let f := fhFields u.w0 u.w1
    let at_ := s.stamp
    let n := u.prbs.length
    (s.linkUp f.port f.half = false → exec .uPlaneMessage s = .next s)
      ∧ (s.linkUp f.port f.half = true → (∀ i, i < n → ∀ p ∈ s.core, ∀ w ∈ p.2.fh, ¬ Covers w f (f.prb0 + i) at_) →
          exec .uPlaneMessage s = .next { s with dev := { s.dev with prbReports := s.dev.prbReports + n } })
      ∧ ∀ bs w, s.linkUp f.port f.half = true → u.prbs = [bs] → TakenBy s f f.prb0 at_ w →
          let g := w.fields
          let slot := (f.sym0 - g.sym0) * g.nprb + (f.prb0 - g.prb0)
          let counts (c : Nat) : Prop := Does .uPlaneMessage s fun t => OnlyCounts s t w.core c
          (g.width ≠ f.width → Does .uPlaneMessage s fun t => t.mem = s.mem ∧ t.ctx = s.ctx ∧ t.dev = s.dev
              ∧ (t.coreAt w.core).fh = (s.coreAt w.core).fh ∧ (t.coreAt w.core).crGet 0x34C = (s.coreAt w.core).crGet 0x34C + 1)
            ∧ (g.width = f.width →
                (at_ < w.start → counts 0x34A)
                  ∧ (w.start ≤ at_ → w.stop ≤ at_ → counts 0x349)
                  ∧ (w.start ≤ at_ → at_ < w.stop → slot ∈ w.slots → counts 0x34B)
                  ∧ (w.start ≤ at_ → at_ < w.stop → slot ∉ w.slots → w.state = .closed → counts 0x349)
                  ∧ (w.start ≤ at_ → at_ < w.stop → slot ∉ w.slots → w.state ≠ .closed →
                      ∀ tl, Sparse.get none (s.coreAt w.core).tiles w.tile = some tl →
                        Does .uPlaneMessage s fun t => PrbTaken s t w slot tl bs)) := by
  intro u f at_ n
  refine ⟨fun hl => ?_, fun hl h => ?_, fun bs w hl hp hw => ⟨fun hne => ?_, fun heq => ?_⟩⟩
  · have eq : s.section_ u = s := if_pos (by rw [hl]; rfl)
    rw [exec_uPlaneMessage, eq]
  · rw [exec_uPlaneMessage, State.section_unmatched hl h]
    rfl
  · refine ⟨_, exec_uPlaneMessage s, ?_⟩
    rw [State.section_single hl hp hw, if_neg hne, State.reportPrbs_zero]
    exact ⟨rfl, rfl, rfl, State.fh_fhCount .., (State.crGet_fhCount ..).trans (if_pos rfl)⟩
  · have eq : s.section_ u = s.takePrb f f.prb0 bs := (State.section_single hl hp hw).trans (if_pos heq)
    obtain ⟨early, late, twice, closed, taken⟩ := State.takePrb_outcome bs (State.windowFor_some hw)
    have run : exec .uPlaneMessage s = .next (s.takePrb f f.prb0 bs) := by rw [exec_uPlaneMessage, eq]
    exact ⟨fun h1 => ⟨_, run, early h1⟩, fun h1 h2 => ⟨_, run, late h1 h2⟩, fun h1 h2 h3 => ⟨_, run, twice h1 h2 h3⟩,
      fun h1 h2 h3 h4 => ⟨_, run, closed h1 h2 h3 h4⟩, fun h1 h2 h3 h4 tl ht => ⟨_, run, taken h1 h2 h3 h4 tl ht⟩⟩

theorem exec_receivedFrame (s : State) : exec .receivedFrame s =
    if s.linkUp (s.input.index.toNat % 8) (s.input.index.toNat / 8 % 2) ∧ s.input.bytes.length ≤ 9216 then
      .next { s with dev := { s.dev with
        frames := s.dev.frames ++ [{ port := s.input.index.toNat % 8, half := s.input.index.toNat / 8 % 2, stamp := s.stamp, bytes := s.input.bytes }] } }
    else .next s := rfl

theorem frameSteps (s : State) : let port := s.input.index.toNat % 8
    let half := s.input.index.toNat / 8 % 2
    ((s.linkUp port half = false ∨ 9216 < s.input.bytes.length) → exec .receivedFrame s = .next s)
      ∧ (s.linkUp port half = true → s.input.bytes.length ≤ 9216 → Does .receivedFrame s fun t => OnlyDevice s t
          ∧ t.dev.frames = s.dev.frames ++ [{ port := port, half := half, stamp := s.stamp, bytes := s.input.bytes }]) := by
  intro port half
  refine ⟨fun h => (exec_receivedFrame s).trans (if_neg fun ⟨hl, hb⟩ => ?_), fun hl hb => ⟨_, (exec_receivedFrame s).trans (if_pos ⟨hl, hb⟩), rfl, rfl⟩⟩
  rcases h with h | h
  · rw [h] at hl
    cases hl
  · omega

end Sys2Proof.Machine
end

section
namespace Sys2Proof.Machine
open Sys2Proof.Claims

/-! ### Requests at their places (R97, R118, R124, O60) -/

/-- What a message sent makes of the mesh. -/
theorem State.sendFree_mesh (s : State) (q : Message) : (s.sendFree q).mesh =
    { s.mesh with flight := s.mesh.flight ++ [{ q with len := s.freeLen }], tag := (s.mesh.tag + 1) % 2 ^ 30 } := by
  obtain ⟨core, h⟩ := s.countSent_parts q.cls q.src s.freeLen
  rw [State.sendFree, h]
  rfl

theorem exec_req (s : State) : exec .req s = match s.oldestOf .req with
    | none => .next s
    | some m => .next (s.takeRequest m) := rfl

/-- Whether a request waits at its slice for its line. -/
def Mesh.Waits (h : Mesh) (x : Message) : Prop := isSlice x.dst = true ∧ inLpddr x.loc = true ∧ x.wr = false ∧ x.loc / 256 ∉ h.present

theorem Mesh.waits_iff (h : Mesh) (x : Message) :
    (isSlice x.dst && inLpddr x.loc && !x.wr && !(h.present.contains (x.loc / 256))) = true ↔ h.Waits x := by
  rw [Bool.and_eq_true, Bool.and_eq_true, Bool.and_eq_true, Bool.not_eq_true', Bool.not_eq_true', ← Bool.not_eq_true (h.present.contains _),
    List.contains_iff_mem, and_assoc, and_assoc, Mesh.Waits]

theorem State.takeRequest_command (s : State) {x : Message} (h : x.kind ≠ .plain) : s.takeRequest x = s.dropMsg x := if_pos h

/-- A registered request is in the window of its line. -/
theorem Mesh.register_registers (h : Mesh) (line : Nat) (x : Message) :
    ∃ w ∈ (h.register line x).windows, w.line = line ∧ (x ∈ w.readers ∨ x ∈ w.held) := by
  unfold Mesh.register
  split
  · next ha =>
    obtain ⟨w, hw, hl⟩ := List.any_eq_true.mp ha
    rw [beq_iff_eq] at hl
    refine ⟨_, List.mem_map.mpr ⟨w, hw, rfl⟩, ?_⟩
    rw [if_neg (by rw [hl, bne_self_eq_false]; exact Bool.false_ne_true)]
    split
    · exact ⟨hl, .inl (List.mem_append_right _ (List.mem_singleton_self x))⟩
    · exact ⟨hl, .inr (List.mem_append_right _ (List.mem_singleton_self x))⟩
  · exact ⟨_, List.mem_append_right _ (List.mem_singleton_self _), rfl, .inl (List.mem_singleton_self x)⟩

theorem Mesh.register_flight (h : Mesh) (line : Nat) (x : Message) : (h.register line x).flight = h.flight := by
  unfold Mesh.register
  split <;> rfl

/-- The state in which a request is registered with the window of its line. -/
def State.registered (s : State) (x : Message) : State := { s.dropMsg x with mesh := (s.dropMsg x).mesh.register (x.loc / 256) x }

theorem State.takeRequest_waits (s : State) {x : Message} (hk : x.kind = .plain) (hw : s.mesh.Waits x) :
    s.takeRequest x = if s.mesh.awaits (x.loc / 256) then s.registered x else (s.registered x).readLine (x.loc / 256) := by
  unfold State.takeRequest
  dsimp only
  rw [if_neg (by rw [hk]; exact fun h => h rfl), if_pos ((s.mesh.waits_iff x).mpr hw)]
  rfl

theorem State.takeRequest_registers (s : State) {x : Message} (hk : x.kind = .plain) (hw : s.mesh.Waits x) :
    (∃ w ∈ (s.takeRequest x).mesh.windows, w.line = x.loc / 256 ∧ (x ∈ w.readers ∨ x ∈ w.held))
      ∧ (s.mesh.awaits (x.loc / 256) = true → (s.takeRequest x).mesh.flight = s.mesh.flight.erase x)
      ∧ (s.mesh.awaits (x.loc / 256) = false → ∃ a, (s.takeRequest x).mesh.flight = s.mesh.flight.erase x ++ [a] ∧ a.kind = .line
          ∧ a.loc = x.loc / 256 * 256 ∧ a.dst = channelStop (lpddrChannel (x.loc / 256 * 256))) := by
  have windows := (s.dropMsg x).mesh.register_registers (x.loc / 256) x
  have flight : (s.registered x).mesh.flight = s.mesh.flight.erase x := Mesh.register_flight ..
  rw [State.takeRequest_waits s hk hw]
  cases ha : s.mesh.awaits (x.loc / 256) with
  | true => exact ⟨windows, fun _ => flight, nofun⟩
  | false =>
    rw [if_neg Bool.false_ne_true]
    unfold State.readLine
    rw [State.sendFree_mesh, ← flight]
    exact ⟨windows, nofun, fun _ => ⟨_, rfl, rfl, rfl, rfl⟩⟩

/-- A store or a write-back that its slice merges. -/
def Message.Merges (x : Message) : Prop := x.wr = true ∧ isSlice x.dst = true ∧ inLpddr x.loc = true

theorem Message.merges_iff (x : Message) : (x.wr && isSlice x.dst && inLpddr x.loc) = true ↔ x.Merges := by
  rw [Bool.and_eq_true, Bool.and_eq_true, and_assoc, Message.Merges]

/-- Whether the L2 holds a line or reads it. -/
def Mesh.Has (h : Mesh) (line : Nat) : Prop := line ∈ h.present ∨ h.awaits line = true

theorem Mesh.has_iff (h : Mesh) (line : Nat) : (h.present.contains line || h.awaits line) = true ↔ h.Has line := by
  rw [Bool.or_eq_true, List.contains_iff_mem, Mesh.Has]

theorem Mesh.closeWindow_closes (h : Mesh) (line : Nat) : ∀ w ∈ (h.closeWindow line).windows, w.line = line → w.joins = false := by
  intro w hw hl
  obtain ⟨v, -, rfl⟩ := List.mem_map.mp hw
  by_cases hv : (v.line == line) = true
  · rw [if_pos hv]
  · rw [if_neg hv] at hl
    exact absurd (beq_iff_eq.mpr hl) hv

/-- What a store leaves at its slice: its bytes marked, or a write that goes on to LPDDR-6. -/
theorem State.mergeLine_merges (s : State) (x : Message) :
    (∀ w ∈ (s.mergeLine x).mesh.windows, w.line = x.loc / 256 → w.joins = false)
      ∧ (s.mesh.Has (x.loc / 256) → (s.mergeLine x).mesh.flight = s.mesh.flight
          ∧ Sparse.get 0 (s.mergeLine x).mesh.dirty (x.loc / 256) = Sparse.get 0 s.mesh.dirty (x.loc / 256) ||| x.mask * 2 ^ (x.loc % 256))
      ∧ (¬ s.mesh.Has (x.loc / 256) → ∃ y, (s.mergeLine x).mesh.flight = s.mesh.flight ++ [y] ∧ y.kind = .command ∧ y.wr = true
          ∧ y.loc = x.loc / 256 * 256 ∧ y.mask = x.mask * 2 ^ (x.loc % 256) ∧ y.dst = channelStop (lpddrChannel (x.loc / 256 * 256))) := by
  unfold State.mergeLine
  dsimp only
  split
  · next h =>
    refine ⟨s.mesh.closeWindow_closes _, fun _ => ⟨rfl, ?_⟩, fun hn => absurd ((s.mesh.has_iff _).mp h) hn⟩
    exact (Sparse.get_set ..).trans (if_pos rfl)
  · next h =>
    have away : s.mesh.awaits (x.loc / 256) = false := by
      rw [← Bool.not_eq_true]
      exact fun ha => h ((s.mesh.has_iff _).mpr (.inr ha))
    unfold State.writeLine
    rw [State.sendFree_mesh]
    refine ⟨fun w hw hl => ?_, fun hh => absurd ((s.mesh.has_iff _).mpr hh) h, fun _ => ⟨_, rfl, rfl, rfl, rfl, rfl, rfl⟩⟩
    exact absurd (beq_iff_eq.mpr hl) (List.any_eq_false.mp away w hw)

/-- The state in which a request that is answered has been taken, with what it stores. -/
def State.requestTaken (s : State) (x : Message) : State :=
  if x.wr && isSlice x.dst && inLpddr x.loc then (s.dropMsg x).mergeLine x else s.dropMsg x

theorem State.takeRequest_answers (s : State) {x : Message} (hk : x.kind = .plain) (hw : ¬ s.mesh.Waits x) :
    s.takeRequest x = (s.requestTaken x).reply x := by
  unfold State.takeRequest
  dsimp only
  rw [if_neg (by rw [hk]; exact fun h => h rfl), if_neg fun h => hw ((s.mesh.waits_iff x).mp h)]
  rfl

theorem State.requestTaken_spec (s : State) (x : Message) : ∃ ys : List Message, (s.requestTaken x).mesh.flight = s.mesh.flight.erase x ++ ys
    ∧ ((x.Merges ∧ ¬ s.mesh.Has (x.loc / 256)) → ∃ y, ys = [y] ∧ y.kind = .command ∧ y.wr = true ∧ y.loc = x.loc / 256 * 256
        ∧ y.mask = x.mask * 2 ^ (x.loc % 256) ∧ y.dst = channelStop (lpddrChannel (x.loc / 256 * 256)))
    ∧ ((x.Merges → s.mesh.Has (x.loc / 256)) → ys = [])
    ∧ (x.Merges → ∀ w ∈ (s.requestTaken x).mesh.windows, w.line = x.loc / 256 → w.joins = false)
    ∧ ((x.Merges ∧ s.mesh.Has (x.loc / 256)) →
        Sparse.get 0 (s.requestTaken x).mesh.dirty (x.loc / 256) = Sparse.get 0 s.mesh.dirty (x.loc / 256) ||| x.mask * 2 ^ (x.loc % 256))
    ∧ (¬ x.Merges → (s.requestTaken x).mesh.windows = s.mesh.windows ∧ (s.requestTaken x).mesh.dirty = s.mesh.dirty) := by
  obtain ⟨closed, here, away⟩ := (s.dropMsg x).mergeLine_merges x
  have has : (s.dropMsg x).mesh.Has (x.loc / 256) ↔ s.mesh.Has (x.loc / 256) := Iff.rfl
  rw [has] at here away
  by_cases hm : x.Merges
  · have eq : s.requestTaken x = (s.dropMsg x).mergeLine x := if_pos (x.merges_iff.mpr hm)
    rw [eq]
    by_cases hh : s.mesh.Has (x.loc / 256)
    · obtain ⟨flight, dirty⟩ := here hh
      exact ⟨[], flight.trans (List.append_nil _).symm, fun h => absurd hh h.2, fun _ => rfl, fun _ => closed, fun _ => dirty, fun h => absurd hm h⟩
    · obtain ⟨y, flight, write⟩ := away hh
      exact ⟨[y], flight, fun _ => ⟨y, rfl, write⟩, fun h => absurd (h hm) hh, fun _ => closed, fun h => absurd h.2 hh, fun h => absurd hm h⟩
  · have eq : s.requestTaken x = s.dropMsg x := if_neg fun h => hm (x.merges_iff.mp h)
    rw [eq]
    exact ⟨[], (List.append_nil _).symm, fun h => absurd h.1 hm, fun _ => rfl, fun h => absurd h hm, fun h => absurd h.1 hm, fun _ => ⟨rfl, rfl⟩⟩

theorem State.mergeLine_keeps (s : State) (x : Message) : (s.mergeLine x).mem = s.mem ∧ (s.mergeLine x).ctx = s.ctx := by
  unfold State.mergeLine
  dsimp only
  split
  · exact ⟨rfl, rfl⟩
  · exact ⟨s.sendFree_mem _, (s.sendFree_work _).ctx⟩

theorem State.requestTaken_keeps (s : State) (x : Message) : (s.requestTaken x).mem = s.mem ∧ (s.requestTaken x).ctx = s.ctx := by
  unfold State.requestTaken
  split
  · exact State.mergeLine_keeps ..
  · exact ⟨rfl, rfl⟩

theorem State.takeRequest_keeps (s : State) (x : Message) : (s.takeRequest x).mem = s.mem ∧ (s.takeRequest x).ctx = s.ctx := by
  by_cases hk : x.kind = .plain
  · by_cases hw : s.mesh.Waits x
    · rw [State.takeRequest_waits s hk hw]
      split
      · exact ⟨rfl, rfl⟩
      · exact ⟨State.sendFree_mem .., (State.sendFree_work ..).ctx⟩
    · obtain ⟨mem, ctx⟩ := s.requestTaken_keeps x
      rw [State.takeRequest_answers s hk hw]
      exact ⟨(State.sendFree_mem ..).trans mem, (State.reply_work ..).ctx.trans ctx⟩
  · rw [State.takeRequest_command s hk]
    exact ⟨rfl, rfl⟩

theorem State.takeRequest_reply (s : State) {x : Message} (hk : x.kind = .plain) (hw : ¬ s.mesh.Waits x) :
    ∃ (ys : List Message) (a : Message), (s.takeRequest x).mesh.flight = s.mesh.flight.erase x ++ ys ++ [a]
      ∧ a.cls = .rsp ∧ a.src = x.dst ∧ a.dst = x.src ∧ a.tag = x.tag
      ∧ ((x.Merges ∧ ¬ s.mesh.Has (x.loc / 256)) → ∃ y, ys = [y] ∧ y.kind = .command ∧ y.wr = true ∧ y.loc = x.loc / 256 * 256
          ∧ y.mask = x.mask * 2 ^ (x.loc % 256) ∧ y.dst = channelStop (lpddrChannel (x.loc / 256 * 256)))
      ∧ ((x.Merges → s.mesh.Has (x.loc / 256)) → ys = [])
      ∧ (x.Merges → ∀ w ∈ (s.takeRequest x).mesh.windows, w.line = x.loc / 256 → w.joins = false)
      ∧ ((x.Merges ∧ s.mesh.Has (x.loc / 256)) →
          Sparse.get 0 (s.takeRequest x).mesh.dirty (x.loc / 256) = Sparse.get 0 s.mesh.dirty (x.loc / 256) ||| x.mask * 2 ^ (x.loc % 256))
      ∧ (¬ x.Merges → (s.takeRequest x).mesh.windows = s.mesh.windows ∧ (s.takeRequest x).mesh.dirty = s.mesh.dirty) := by
  obtain ⟨ys, flight, rest⟩ := s.requestTaken_spec x
  rw [State.takeRequest_answers s hk hw, State.reply, State.sendFree_mesh, flight]
  exact ⟨ys, _, rfl, rfl, rfl, rfl, rfl, rest⟩

theorem requestSteps (s : State) :
    (s.oldestOf .req = none → exec .req s = .next s)
      ∧ (∀ x, s.oldestOf .req = some x →
          let line := x.loc / 256
          let waits := isSlice x.dst = true ∧ inLpddr x.loc = true ∧ x.wr = false ∧ line ∉ s.mesh.present
          Does .req s fun t => t.mem = s.mem ∧ t.ctx = s.ctx
            ∧ (x.kind ≠ .plain → t = s.dropMsg x)
            ∧ (x.kind = .plain → waits → (∃ w ∈ t.mesh.windows, w.line = line ∧ (x ∈ w.readers ∨ x ∈ w.held))
                ∧ (s.mesh.awaits line = true → t.mesh.flight = s.mesh.flight.erase x)
                ∧ (s.mesh.awaits line = false → ∃ a, t.mesh.flight = s.mesh.flight.erase x ++ [a] ∧ a.kind = .line ∧ a.loc = line * 256
                    ∧ a.dst = channelStop (lpddrChannel (line * 256))))
            ∧ (x.kind = .plain → ¬ waits →
                let merges := x.wr = true ∧ isSlice x.dst = true ∧ inLpddr x.loc = true
                let here := line ∈ s.mesh.present ∨ s.mesh.awaits line = true
                let mask := x.mask * 2 ^ (x.loc % 256)
                ∃ (ys : List Message) (a : Message), t.mesh.flight = s.mesh.flight.erase x ++ ys ++ [a]
                  ∧ a.cls = .rsp ∧ a.src = x.dst ∧ a.dst = x.src ∧ a.tag = x.tag
                  ∧ ((merges ∧ ¬ here) → ∃ y, ys = [y] ∧ y.kind = .command ∧ y.wr = true ∧ y.loc = line * 256 ∧ y.mask = mask
                      ∧ y.dst = channelStop (lpddrChannel (line * 256)))
                  ∧ ((merges → here) → ys = [])
                  ∧ (merges → ∀ w ∈ t.mesh.windows, w.line = line → w.joins = false)
                  ∧ ((merges ∧ here) → Sparse.get 0 t.mesh.dirty line = Sparse.get 0 s.mesh.dirty line ||| mask)
                  ∧ (¬ merges → t.mesh.windows = s.mesh.windows ∧ t.mesh.dirty = s.mesh.dirty))) := by
  refine ⟨fun h => by rw [exec_req, h], fun x h => ?_⟩
  have run : exec .req s = .next (s.takeRequest x) := by rw [exec_req, h]
  obtain ⟨mem, ctx⟩ := s.takeRequest_keeps x
  exact ⟨_, run, mem, ctx, fun hk => s.takeRequest_command hk, fun hk hw => s.takeRequest_registers hk hw, fun hk hw => s.takeRequest_reply hk hw⟩

end Sys2Proof.Machine
end

section
namespace Sys2Proof.Machine
open Sys2Proof.Claims

/-! ### Responses (R118, R123, R125, O60) -/

theorem exec_rsp (s : State) : exec .rsp s = match s.oldestOf .rsp with
    | none => .next s
    | some m =>
      .next (if m.kind = .retry then (s.dropMsg m).resend m.dst m.src
        else if m.isMulticast ∧ m.dst < 256 then (s.dropMsg m).onCore m.dst fun c => c.crAdd 0x309 1
        else s.dropMsg m) := rfl

theorem Message.isMulticast_iff (x : Message) : x.isMulticast = true ↔ ∃ r ∈ x.readers, r.core ≠ x.dst := by
  rw [Message.isMulticast, List.any_eq_true]
  exact exists_congr fun r => and_congr_right fun _ => bne_iff_ne

/-! #### Messages sent again -/

/-- What a MSG message is about, and what it carries. -/
def Message.content (a : Message) : MsgKind × Option Nat × Nat × List W64 := (a.kind, a.key, a.raw, a.words)

/-- The MSG messages of a pair. -/
def Message.ofPair (src dst : Nat) (a : Message) : Bool := a.cls == .msg && a.src == src && a.dst == dst

theorem State.sendBytesMsg_mem (s : State) (kind : MsgKind) (k : Option Nat) (src dst raw : Nat) (ws : List W64) :
    (s.sendBytesMsg kind k src dst raw ws).mem = s.mem := by
  have counted (t : State) (len : Nat) : (t.countSent .msg src len).mem = t.mem := by
    obtain ⟨core, h⟩ := t.countSent_parts .msg src len
    rw [h]
  exact counted ..

/-- A payload sent joins the messages in flight, with RST where its pair asked for it, and its pair asks no more. -/
theorem State.sendBytesMsg_sends (s : State) (kind : MsgKind) (k : Option Nat) (src dst raw : Nat) (ws : List W64) :
    ∃ a : Message, (s.sendBytesMsg kind k src dst raw ws).mesh.flight = s.mesh.flight ++ [a] ∧ a.ofPair src dst = true
      ∧ a.content = (kind, k, raw, ws) ∧ a.rst = (s.dict src dst).rst ∧ ((s.sendBytesMsg kind k src dst raw ws).dict src dst).rst = false := by
  have own (a : Message) (hc : a.cls = .msg) (hs : a.src = src) (hd : a.dst = dst) : a.ofPair src dst = true := by
    rw [Message.ofPair, hc, hs, hd, beq_self_eq_true, beq_self_eq_true, beq_self_eq_true]
    rfl
  unfold State.sendBytesMsg
  extract_lets d
  split
  extract_lets packed c len s1 s2
  obtain ⟨core, counted⟩ := s1.countSent_parts .msg src len
  have mesh : s2.mesh = s1.mesh := by
    show ((s1.countSent .msg src len).onCore src _).mesh = s1.mesh
    rw [counted]
    rfl
  have flight : s2.mesh.flight = s.mesh.flight := by rw [mesh]; rfl
  have asked : (Sparse.get {} s1.mesh.dicts (pairKey src dst)).rst = false := congrArg PairDict.rst ((Sparse.get_put ..).trans (if_pos rfl))
  refine ⟨_, congrArg (· ++ [_]) flight, own _ rfl rfl rfl, rfl, rfl, ?_⟩
  show (Sparse.get {} s2.mesh.dicts (pairKey src dst)).rst = false
  rw [mesh]
  exact asked

/-- What a list of messages sent again leaves in flight. -/
structure Resent (s t : State) (src dst : Nat) (again sent : List Message) : Prop where
  flight : t.mesh.flight = s.mesh.flight ++ sent
  own : ∀ a ∈ sent, a.ofPair src dst = true
  content : sent.map Message.content = again.map Message.content
  rst : sent.map (·.rst) = (List.range again.length).map fun i => i == 0 && (s.dict src dst).rst

theorem State.foldl_sendBytesMsg (src dst : Nat) (again : List Message) (s : State) : ∃ sent,
    Resent s (again.foldl (fun s m => s.sendBytesMsg m.kind m.key src dst m.raw m.words) s) src dst again sent := by
  induction again generalizing s with
  | nil => exact ⟨[], (List.append_nil _).symm, fun _ h => absurd h List.not_mem_nil, rfl, rfl⟩
  | cons m again ih =>
    obtain ⟨a, flight, own, content, rst, dict⟩ := s.sendBytesMsg_sends m.kind m.key src dst m.raw m.words
    obtain ⟨sent, rest⟩ := ih (s.sendBytesMsg m.kind m.key src dst m.raw m.words)
    refine ⟨a :: sent, ?_, fun b hb => ?_, ?_, ?_⟩
    · rw [List.foldl_cons, rest.flight, flight, List.append_assoc]
      rfl
    · rcases List.mem_cons.mp hb with rfl | hb
      · exact own
      · exact rest.own b hb
    · rw [List.map_cons, List.map_cons, rest.content, content]
      rfl
    · rw [List.map_cons, rest.rst, rst, dict, List.length_cons, List.range_succ_eq_map, List.map_cons, List.map_map]
      refine congrArg₂ List.cons (by rw [beq_self_eq_true, Bool.true_and]) (List.map_congr_left fun i _ => ?_)
      rw [Bool.and_false]
      rfl

/-- What is not asked for can leave a list without changing what is. -/
theorem filter_erase_of_not {α : Type} [BEq α] [LawfulBEq α] (p : α → Bool) {x : α} (hx : p x = false) (l : List α) :
    (l.erase x).filter p = l.filter p := by
  induction l with
  | nil => rfl
  | cons y l ih =>
    rw [List.erase_cons]
    split
    · next h =>
      rw [beq_iff_eq] at h
      subst h
      rw [List.filter_cons, hx, if_neg Bool.false_ne_true]
    · rw [List.filter_cons, List.filter_cons, ih]

/-- The state in which the messages of a pair that are to be sent again have left, and its sender's copy is clear. -/
def State.resendReady (s : State) (src dst : Nat) : State :=
  ({ s with mesh := { s.mesh with flight := s.mesh.flight.filter fun m => !(m.ofPair src dst) } } : State).onDict src dst
    fun p => { p with sender := List.replicate 8 0, sendP := 0, rst := true }

theorem State.resend_eq (s : State) (src dst : Nat) : s.resend src dst =
    (s.mesh.flight.filter (Message.ofPair src dst)).foldl (fun s m => s.sendBytesMsg m.kind m.key src dst m.raw m.words) (s.resendReady src dst) := rfl

theorem State.resend_keeps (s : State) (src dst : Nat) : (s.resend src dst).mem = s.mem ∧ (s.resend src dst).ctx = s.ctx := by
  have send (again : List Message) (t : State) :
      (again.foldl (fun s m => s.sendBytesMsg m.kind m.key src dst m.raw m.words) t).mem = t.mem
        ∧ (again.foldl (fun s m => s.sendBytesMsg m.kind m.key src dst m.raw m.words) t).ctx = t.ctx := by
    induction again generalizing t with
    | nil => exact ⟨rfl, rfl⟩
    | cons m again ih =>
      obtain ⟨mem, ctx⟩ := ih (t.sendBytesMsg m.kind m.key src dst m.raw m.words)
      exact ⟨mem.trans (t.sendBytesMsg_mem ..), ctx.trans (t.sendBytesMsg_work ..).ctx⟩
  rw [State.resend_eq]
  exact send ..

/-- The messages of the pair go again in order, the first with RST, and the others stay. -/
theorem State.resend_resends (s : State) (src dst : Nat) :
    ((s.resend src dst).mesh.flight.filter (Message.ofPair src dst)).map Message.content =
        (s.mesh.flight.filter (Message.ofPair src dst)).map Message.content
      ∧ ((s.resend src dst).mesh.flight.filter (Message.ofPair src dst)).map (·.rst) =
        (List.range (s.mesh.flight.filter (Message.ofPair src dst)).length).map (· == 0)
      ∧ (s.resend src dst).mesh.flight.filter (fun a => !a.ofPair src dst) = s.mesh.flight.filter fun a => !a.ofPair src dst := by
  obtain ⟨sent, again⟩ := State.foldl_sendBytesMsg src dst (s.mesh.flight.filter (Message.ofPair src dst)) (s.resendReady src dst)
  have ask : ((s.resendReady src dst).dict src dst).rst = true := congrArg PairDict.rst ((Sparse.get_put ..).trans (if_pos rfl))
  have flight : (s.resend src dst).mesh.flight = (s.mesh.flight.filter fun m => !(m.ofPair src dst)) ++ sent := again.flight
  have left : (s.mesh.flight.filter fun m => !(m.ofPair src dst)).filter (Message.ofPair src dst) = [] := by
    rw [List.filter_filter, List.filter_eq_nil_iff]
    intro a _ h
    rw [Bool.and_not_self] at h
    cases h
  have gone : sent.filter (fun a => !a.ofPair src dst) = [] := by
    rw [List.filter_eq_nil_iff]
    intro a ha h
    rw [again.own a ha] at h
    cases h
  have mine : (s.resend src dst).mesh.flight.filter (Message.ofPair src dst) = sent := by
    rw [flight, List.filter_append, left, List.nil_append, List.filter_eq_self.mpr again.own]
  rw [mine, again.content, again.rst, ask]
  refine ⟨rfl, List.map_congr_left fun i _ => Bool.and_true _, ?_⟩
  rw [flight, List.filter_append, gone, List.append_nil, List.filter_filter]
  exact List.filter_congr fun a _ => Bool.and_self _

theorem responseSteps (s : State) :
    (s.oldestOf .rsp = none → exec .rsp s = .next s)
      ∧ (∀ x, s.oldestOf .rsp = some x → Does .rsp s fun t => t.mem = s.mem ∧ t.ctx = s.ctx
          ∧ (x.kind ≠ .retry →
              let copies := x.dst < 256 ∧ ∃ r ∈ x.readers, r.core ≠ x.dst
              t.mesh = { s.mesh with flight := s.mesh.flight.erase x } ∧ (¬ copies → t.core = s.core)
                ∧ (copies → (t.coreAt x.dst).crGet 0x309 = (s.coreAt x.dst).crGet 0x309 + 1 ∧ ∀ n, n ≠ x.dst → t.coreAt n = s.coreAt n))
          ∧ (x.kind = .retry →
              let own (a : Message) : Bool := a.cls == .msg && a.src == x.dst && a.dst == x.src
              let what (a : Message) := (a.kind, a.key, a.raw, a.words)
              let again := s.mesh.flight.filter own
              (t.mesh.flight.filter own).map what = again.map what
                ∧ (t.mesh.flight.filter own).map (·.rst) = (List.range again.length).map (· == 0)
                ∧ t.mesh.flight.filter (fun a => !own a) = (s.mesh.flight.erase x).filter (fun a => !own a))) := by
  refine ⟨fun h => by rw [exec_rsp, h], fun x h => ?_⟩
  have rsp : x.cls = .rsp := beq_iff_eq.mp (List.find?_some (p := fun m : Message => m.cls == .rsp) h)
  have run : exec .rsp s = .next (if x.kind = .retry then (s.dropMsg x).resend x.dst x.src
        else if x.isMulticast ∧ x.dst < 256 then (s.dropMsg x).onCore x.dst fun c => c.crAdd 0x309 1 else s.dropMsg x) := by
    rw [exec_rsp, h]
  by_cases hk : x.kind = .retry
  · rw [if_pos hk] at run
    obtain ⟨mem, ctx⟩ := (s.dropMsg x).resend_keeps x.dst x.src
    obtain ⟨content, rst, others⟩ := (s.dropMsg x).resend_resends x.dst x.src
    have not : x.ofPair x.dst x.src = false := by
      rw [Message.ofPair, rsp]
      rfl
    have again : (s.dropMsg x).mesh.flight.filter (Message.ofPair x.dst x.src) = s.mesh.flight.filter (Message.ofPair x.dst x.src) :=
      filter_erase_of_not _ not _
    rw [again] at content rst
    exact ⟨_, run, mem, ctx, fun h => absurd hk h, fun _ => ⟨content, rst, others⟩⟩
  · rw [if_neg hk] at run
    by_cases hc : x.isMulticast = true ∧ x.dst < 256
    · rw [if_pos hc] at run
      refine ⟨_, run, rfl, rfl, fun _ => ⟨rfl, fun h => absurd ⟨hc.2, x.isMulticast_iff.mp hc.1⟩ h, fun _ => ⟨?_, fun n hn => ?_⟩⟩, fun h => absurd h hk⟩
      · rw [State.coreAt_onCore_same]
        exact (Core.crGet_crSet ..).trans (if_pos rfl)
      · rw [State.coreAt_onCore, if_neg hn]
        rfl
    · rw [if_neg hc] at run
      exact ⟨_, run, rfl, rfl, fun _ => ⟨rfl, fun _ => rfl, fun h => absurd ⟨x.isMulticast_iff.mpr h.2, h.1⟩ hc⟩, fun h => absurd h hk⟩

end Sys2Proof.Machine
end

section
namespace Sys2Proof.Machine
open Sys2Proof.Claims

/-! ### A line returns (R97, R124, O60) -/

theorem exec_lpddr6ReadReturn (s : State) : exec .lpddr6ReadReturn s =
    match s.mesh.windows.find? fun w => w.line == s.input.addr.toNat / 256 with
    | some w => if s.lineAsked (s.input.addr.toNat / 256) then .next (s.returnLine w) else .next s
    | none => .next s := rfl

/-- What answers sent leave of the mesh: messages are added, and nothing else but the next tag differs. -/
theorem OnlyAsked.windows {s t : State} (h : OnlyAsked s t) : t.mesh.windows = s.mesh.windows := by
  obtain ⟨ys, tag, h⟩ := h.mesh
  rw [h]

theorem OnlyAsked.flight_mem {s t : State} (h : OnlyAsked s t) {a : Message} (ha : a ∈ s.mesh.flight) : a ∈ t.mesh.flight := by
  obtain ⟨ys, tag, h⟩ := h.mesh
  rw [h]
  exact List.mem_append_left _ ha

/-- The message that answers some registered requests at one core. -/
def readerReply (rs : List Message) (r : Message) (c : Nat) : Message :=
  { cls := .rsp, src := r.dst, dst := c, tag := r.tag, key := r.key, readers := rs.map Message.reader }

/-- The answer to the registered requests of one core. -/
def State.answerCore (rs : List Message) (s : State) (c : Nat) : State :=
  match rs.find? fun r => r.src == c with
  | some r => s.sendFree (readerReply rs r c)
  | none => s

theorem State.multicast_eq (s : State) (rs : List Message) : s.multicast rs = (rs.map (·.src)).eraseDups.foldl (State.answerCore rs) s := rfl

theorem OnlyAsked.of_answerCore (rs : List Message) (s : State) (c : Nat) : OnlyAsked s (s.answerCore rs c) := by
  unfold State.answerCore
  split
  · exact of_sendFree ..
  · exact .refl s

theorem OnlyAsked.of_multicast (s : State) (rs : List Message) : OnlyAsked s (s.multicast rs) := by
  rw [State.multicast_eq]
  exact .fold (of_answerCore rs) _ s

theorem State.answerCore_answers (rs : List Message) (s : State) {r : Message} (hr : r ∈ rs) :
    ∃ r' ∈ rs, r'.src = r.src ∧ ∃ a ∈ (s.answerCore rs r.src).mesh.flight, a.cls = .rsp ∧ a.src = r'.dst ∧ a.dst = r.src ∧ a.tag = r'.tag
      ∧ a.readers = rs.map Message.reader := by
  unfold State.answerCore
  cases hf : rs.find? fun q => q.src == r.src with
  | none => exact absurd (beq_self_eq_true r.src) (List.find?_eq_none.mp hf r hr)
  | some r' =>
    dsimp only
    rw [State.sendFree_flight]
    exact ⟨r', List.mem_of_find?_eq_some hf, beq_iff_eq.mp (List.find?_some (p := fun q : Message => q.src == r.src) hf), _,
      List.mem_append_right _ (List.mem_singleton_self _), rfl, rfl, rfl, rfl, rfl⟩

/-- What a step of a fold sends is still there after it. -/
theorem OnlyAsked.fold_flight {β : Type} {f : State → β → State} (hf : ∀ s b, OnlyAsked s (f s b)) {P : Message → Prop} {b : β}
    (hb : ∀ s, ∃ a ∈ (f s b).mesh.flight, P a) (bs : List β) (s : State) (mem : b ∈ bs) : ∃ a ∈ (bs.foldl f s).mesh.flight, P a := by
  induction bs generalizing s with
  | nil => exact absurd mem List.not_mem_nil
  | cons c bs ih =>
    rcases List.mem_cons.mp mem with rfl | mem
    · obtain ⟨a, ha, hp⟩ := hb s
      exact ⟨a, (OnlyAsked.fold hf bs (f s b)).flight_mem ha, hp⟩
    · exact ih (f s c) mem

/-- Every registered reader's core gets its copy. -/
theorem State.multicast_answers (s : State) (rs : List Message) {r : Message} (hr : r ∈ rs) :
    ∃ r' ∈ rs, r'.src = r.src ∧ ∃ a ∈ (s.multicast rs).mesh.flight, a.cls = .rsp ∧ a.src = r'.dst ∧ a.dst = r.src ∧ a.tag = r'.tag
      ∧ a.readers = rs.map Message.reader := by
  have mem : r.src ∈ (rs.map (·.src)).eraseDups := List.mem_eraseDups.mpr (List.mem_map.mpr ⟨r, hr, rfl⟩)
  obtain ⟨a, ha, r', hr', src, answer⟩ := OnlyAsked.fold_flight (OnlyAsked.of_answerCore rs)
    (P := fun a => ∃ r' ∈ rs, r'.src = r.src ∧ a.cls = .rsp ∧ a.src = r'.dst ∧ a.dst = r.src ∧ a.tag = r'.tag ∧ a.readers = rs.map Message.reader)
    (fun t => by
      obtain ⟨r', hr', src, a, ha, answer⟩ := t.answerCore_answers rs hr
      exact ⟨a, ha, r', hr', src, answer⟩) _ s mem
  exact ⟨r', hr', src, a, State.multicast_eq s rs ▸ ha, answer⟩

theorem State.reply_answers (s : State) (r : Message) :
    ∃ a ∈ (s.reply r).mesh.flight, a.cls = .rsp ∧ a.src = r.dst ∧ a.dst = r.src ∧ a.tag = r.tag := by
  unfold State.reply
  rw [State.sendFree_flight]
  exact ⟨_, List.mem_append_right _ (List.mem_singleton_self _), rfl, rfl, rfl, rfl⟩

/-- What a line's entry leaves: the L2 holds it, windows stay, and messages stay in flight. -/
theorem State.enterLine_enters (s : State) (line : Nat) : (s.enterLine line).mem = s.mem ∧ (s.enterLine line).ctx = s.ctx
    ∧ line ∈ (s.enterLine line).mesh.present ∧ (s.enterLine line).mesh.windows = s.mesh.windows
    ∧ ∀ a ∈ s.mesh.flight, a ∈ (s.enterLine line).mesh.flight := by
  unfold State.enterLine
  extract_lets own mesh old mask s1
  split
  · exact ⟨rfl, rfl, List.mem_append_right _ (List.mem_singleton_self line), rfl, fun _ h => h⟩
  · have present : line ∈ s1.mesh.present := List.mem_append_right _ (List.mem_singleton_self line)
    split
    · exact ⟨rfl, rfl, present, rfl, fun _ h => h⟩
    · have same : ((s1.writeLine old mask).freshen 1).mesh = (s1.writeLine old mask).mesh := rfl
      rw [same, State.writeLine, State.sendFree_mesh]
      exact ⟨State.sendFree_mem .., (State.sendFree_work ..).ctx, present, rfl, fun _ h => List.mem_append_left _ h⟩

/-- The state in which a returned line's window is gone, its accesses are counted and its requests answered. -/
def State.lineAnswered (s : State) (w : MergeWindow) : State :=
  w.held.foldl State.reply ((w.readers.foldl State.servedByLpddr
    { s with mesh := { s.mesh with windows := s.mesh.windows.filter fun v => v.line != w.line } }).multicast w.readers)

theorem State.returnLine_eq (s : State) (w : MergeWindow) : s.returnLine w = (s.lineAnswered w).enterLine w.line := rfl

theorem State.lineAnswered_asks (s : State) (w : MergeWindow) :
    OnlyAsked { s with mesh := { s.mesh with windows := s.mesh.windows.filter fun v => v.line != w.line } } (s.lineAnswered w) := by
  have served (t : State) (r : Message) : OnlyAsked t (t.servedByLpddr r) := .ite _ (.of_tally ..) (.refl t)
  exact ((OnlyAsked.fold served w.readers _).trans (.of_multicast ..)).trans (.fold (fun t r => .of_sendFree t ..) w.held _)

theorem State.returnLine_returns (s : State) (w : MergeWindow) :
    (Unsampled s → (s.returnLine w).mem = s.mem) ∧ (s.returnLine w).ctx = s.ctx
      ∧ w.line ∈ (s.returnLine w).mesh.present ∧ (∀ v ∈ (s.returnLine w).mesh.windows, v.line ≠ w.line)
      ∧ (∀ r ∈ w.readers, ∃ r' ∈ w.readers, r'.src = r.src ∧ ∃ a ∈ (s.returnLine w).mesh.flight, a.cls = .rsp ∧ a.src = r'.dst
          ∧ a.dst = r.src ∧ a.tag = r'.tag ∧ a.readers = w.readers.map fun q => { core := q.src, tag := q.tag, key := q.key })
      ∧ ∀ r ∈ w.held, ∃ a ∈ (s.returnLine w).mesh.flight, a.cls = .rsp ∧ a.src = r.dst ∧ a.dst = r.src ∧ a.tag = r.tag := by
  have asked := s.lineAnswered_asks w
  have replies (t : State) (r : Message) : OnlyAsked t (t.reply r) := .of_sendFree ..
  obtain ⟨mem, ctx, present, windows, flight⟩ := (s.lineAnswered w).enterLine_enters w.line
  rw [State.returnLine_eq]
  refine ⟨fun q => mem.trans (asked.mem q), ctx.trans asked.ctx, present, fun v hv => ?_, fun r hr => ?_, fun r hr => ?_⟩
  · rw [windows, asked.windows] at hv
    exact bne_iff_ne.mp (List.mem_filter.mp hv).2
  · obtain ⟨r', hr', src, a, ha, answer⟩ := State.multicast_answers (w.readers.foldl State.servedByLpddr
      { s with mesh := { s.mesh with windows := s.mesh.windows.filter fun v => v.line != w.line } }) w.readers hr
    exact ⟨r', hr', src, a, flight a ((OnlyAsked.fold replies w.held _).flight_mem ha), answer⟩
  · obtain ⟨a, ha, answer⟩ := OnlyAsked.fold_flight replies (fun t => t.reply_answers r) w.held _ hr
    exact ⟨a, flight a ha, answer⟩

theorem lineSteps (s : State) : let line := s.input.addr.toNat / 256
    ((s.mesh.awaits line = false ∨ s.lineAsked line = false) → exec .lpddr6ReadReturn s = .next s)
      ∧ (∀ w, s.mesh.windows.find? (fun w => w.line == line) = some w → s.lineAsked line = true →
          Does .lpddr6ReadReturn s fun t => (Unsampled s → t.mem = s.mem) ∧ t.ctx = s.ctx
            ∧ line ∈ t.mesh.present ∧ (∀ v ∈ t.mesh.windows, v.line ≠ line)
            ∧ (∀ r ∈ w.readers, ∃ r' ∈ w.readers, r'.src = r.src ∧ ∃ a ∈ t.mesh.flight, a.cls = .rsp ∧ a.src = r'.dst ∧ a.dst = r.src
                ∧ a.tag = r'.tag ∧ a.readers = w.readers.map fun q => { core := q.src, tag := q.tag, key := q.key })
            ∧ ∀ r ∈ w.held, ∃ a ∈ t.mesh.flight, a.cls = .rsp ∧ a.src = r.dst ∧ a.dst = r.src ∧ a.tag = r.tag) := by
  intro line
  refine ⟨fun h => ?_, fun w hw ha => ?_⟩
  · rw [exec_lpddr6ReadReturn]
    cases hf : s.mesh.windows.find? fun w => w.line == s.input.addr.toNat / 256 with
    | none => rfl
    | some w =>
      have awaited : s.mesh.awaits line = true := List.any_eq_true.mpr ⟨w, List.mem_of_find?_eq_some hf,
        List.find?_some (p := fun w : MergeWindow => w.line == line) hf⟩
      rcases h with h | h
      · rw [awaited] at h
        cases h
      · exact if_neg (by rw [show s.lineAsked (s.input.addr.toNat / 256) = false from h]; exact Bool.false_ne_true)
  · have eq : w.line = line := beq_iff_eq.mp (List.find?_some (p := fun w : MergeWindow => w.line == line) hw)
    have run : exec .lpddr6ReadReturn s = .next (s.returnLine w) := by
      rw [exec_lpddr6ReadReturn, hw]
      exact if_pos ha
    have returns := s.returnLine_returns w
    rw [eq] at returns
    exact ⟨_, run, returns⟩

/-! ### A parity error (R123, O60) -/

theorem exec_retry (s : State) : exec .retry s = match s.firstMsg .msg (s.input.index.toNat % 256) s.input.core.toNat with
    | some m => if m.rst ∨ !(s.dict (s.input.index.toNat % 256) s.input.core.toNat).discarding then
        .next (s.retry (s.input.index.toNat % 256) s.input.core.toNat) else .next s
    | none => .next s := rfl

theorem State.dict_onDict (s : State) (src dst : Nat) (f : PairDict → PairDict) : (s.onDict src dst f).dict src dst = f (s.dict src dst) :=
  (Sparse.get_put ..).trans (if_pos rfl)

/-- The state in which a receiver has cleared its copy and counted the error. -/
def State.parityNoted (s : State) (src dst : Nat) : State :=
  (s.onDict src dst fun p => { p with receiver := List.replicate 8 0, recvP := 0, discarding := true }).onCore dst fun c => c.crAdd 0x308 1

theorem State.retry_eq (s : State) (src dst : Nat) : s.retry src dst =
    (s.parityNoted src dst).sendFree { cls := .rsp, kind := .retry, src := dst, dst := src, tag := s.mesh.tag } := rfl

theorem State.retry_answers (s : State) (src dst : Nat) : (s.retry src dst).mem = s.mem ∧ (s.retry src dst).ctx = s.ctx
    ∧ (∃ a, (s.retry src dst).mesh.flight = s.mesh.flight ++ [a] ∧ a.cls = .rsp ∧ a.kind = .retry ∧ a.src = dst ∧ a.dst = src)
    ∧ ((s.retry src dst).dict src dst).sender = (s.dict src dst).sender ∧ ((s.retry src dst).dict src dst).receiver = List.replicate 8 0
    ∧ ((s.retry src dst).dict src dst).recvP = 0 ∧ ((s.retry src dst).dict src dst).discarding = true
    ∧ ((s.retry src dst).coreAt dst).crGet 0x308 = (s.coreAt dst).crGet 0x308 + 1 := by
  have noted : (s.parityNoted src dst).dict src dst =
      { s.dict src dst with receiver := List.replicate 8 0, recvP := 0, discarding := true } :=
    s.dict_onDict src dst fun p => { p with receiver := List.replicate 8 0, recvP := 0, discarding := true }
  have dict : (s.retry src dst).dict src dst = (s.parityNoted src dst).dict src dst := by
    rw [State.retry_eq, State.dict, State.sendFree_mesh]
    rfl
  have count : ((s.parityNoted src dst).coreAt dst).crGet 0x308 = (s.coreAt dst).crGet 0x308 + 1 := by
    rw [State.parityNoted, State.coreAt_onCore_same]
    exact (Core.crGet_crSet ..).trans (if_pos rfl)
  have sent : ((s.retry src dst).coreAt dst).crGet 0x308 = ((s.parityNoted src dst).coreAt dst).crGet 0x308 := by
    have core : (s.retry src dst).coreAt dst =
      ((s.parityNoted src dst).countSent .rsp dst (s.parityNoted src dst).freeLen).coreAt dst := rfl
    rw [core, State.countSent]
    split
    · rfl
    · rw [State.coreAt_onCore_same]
      exact (Core.crGet_crSet ..).trans (if_neg (by decide))
  rw [dict, noted, sent, count]
  refine ⟨(State.sendFree_mem ..), (State.sendFree_work ..).ctx, ⟨_, State.sendFree_flight (s.parityNoted src dst) _, rfl, rfl, rfl, rfl⟩,
    rfl, rfl, rfl, rfl, rfl⟩

theorem retrySteps (s : State) : let m := s.input.core.toNat
    let src := s.input.index.toNat % 256
    (s.firstMsg .msg src m = none → exec .retry s = .next s)
      ∧ (∀ x, s.firstMsg .msg src m = some x → x.rst = false → (s.dict src m).discarding = true → exec .retry s = .next s)
      ∧ (∀ x, s.firstMsg .msg src m = some x → (x.rst = true ∨ (s.dict src m).discarding = false) → Does .retry s fun t =>
          t.mem = s.mem ∧ t.ctx = s.ctx
          ∧ (∃ a, t.mesh.flight = s.mesh.flight ++ [a] ∧ a.cls = .rsp ∧ a.kind = .retry ∧ a.src = m ∧ a.dst = src)
          ∧ (t.dict src m).sender = (s.dict src m).sender ∧ (t.dict src m).receiver = List.replicate 8 0 ∧ (t.dict src m).recvP = 0
          ∧ (t.dict src m).discarding = true ∧ (t.coreAt m).crGet 0x308 = (s.coreAt m).crGet 0x308 + 1) := by
  intro m src
  have first {x : Message} (h : s.firstMsg .msg src m = some x) :
      exec .retry s = if x.rst ∨ !(s.dict src m).discarding then .next (s.retry src m) else .next s := by rw [exec_retry, h]
  refine ⟨fun h => by rw [exec_retry, h], fun x h hr hd => (first h).trans (if_neg ?_),
    fun x h hd => ⟨_, (first h).trans (if_pos ?_), s.retry_answers src m⟩⟩
  · rw [hr, hd]
    exact fun h => h.elim nofun nofun
  · rw [Bool.not_eq_true']
    exact hd

/-! ### An image arrives (R293, O60) -/

theorem exec_imageArrival (s : State) : exec .imageArrival s = .next (s.landImage s.input.core.toNat) := rfl

/-- The state in which an image has come off the mesh. -/
def State.imageTaken (s : State) (m : Nat) (i : Image) : State :=
  (if i.src = m then s else s.receiveMsg i.src m).onCore m fun c => { c with arriving := c.arriving.erase i }

theorem State.receiveMsg_mesh (s : State) (src dst : Nat) : ∃ mesh, s.receiveMsg src dst = { s with mesh := mesh } := by
  unfold State.receiveMsg
  split <;> exact ⟨_, rfl⟩

theorem State.imageTaken_eq (s : State) (m : Nat) (i : Image) :
    ∃ mesh, s.imageTaken m i = ({ s with mesh := mesh } : State).onCore m fun c => { c with arriving := c.arriving.erase i } := by
  unfold State.imageTaken
  split
  · exact ⟨s.mesh, rfl⟩
  · obtain ⟨mesh, h⟩ := s.receiveMsg_mesh i.src m
    exact ⟨mesh, by rw [h]⟩

theorem State.putImage_cases (s : State) (m : Nat) (i : Image) : s.putImage m i = s
    ∨ (s.putImage m i = s.onCore m fun c => { c with inbox := c.inbox ++ [i] }) ∨ ∃ f, s.putImage m i = s.onJob i.job f := by
  unfold State.putImage
  cases s.job? i.job with
  | none => exact .inl rfl
  | some j => exact .inr ((ite_eq_or_eq _ _ _).imp id fun h => ⟨_, h⟩)

theorem State.putImage_keeps (s : State) (m : Nat) (i : Image) : (s.putImage m i).mem = s.mem ∧ (s.putImage m i).ctx = s.ctx
    ∧ ((s.putImage m i).coreAt m).arriving = (s.coreAt m).arriving := by
  rcases s.putImage_cases m i with h | h | ⟨f, h⟩
  · rw [h]
    exact ⟨rfl, rfl, rfl⟩
  · rw [h]
    exact ⟨rfl, rfl, by rw [State.coreAt_onCore_same]⟩
  · rw [h]
    exact ⟨rfl, rfl, rfl⟩

theorem State.putImage_none {s : State} {m : Nat} {i : Image} (h : s.job? i.job = none) : s.putImage m i = s := by
  rw [State.putImage, h]

/-- The image of the strand that has the core enters its inbox. -/
theorem State.putImage_here {s : State} {m k : Nat} {i : Image} (hj : s.job? i.job ≠ none) (hk : s.vectorStrand m = some k)
    (hi : (s.ctxAt k).job = i.job) : s.putImage m i = s.onCore m fun c => { c with inbox := c.inbox ++ [i] } := by
  obtain ⟨j, hj⟩ := Option.ne_none_iff_exists'.mp hj
  rw [State.putImage, hj]
  dsimp only
  rw [hk]
  exact if_pos (Bool.or_eq_true_iff.mpr (.inl (beq_iff_eq.mpr hi)))

theorem imageSteps (s : State) : let m := s.input.core.toNat
    (s.imageNext m = none → exec .imageArrival s = .next s)
      ∧ (∀ i, s.imageNext m = some i → Does .imageArrival s fun t => t.mem = s.mem ∧ t.ctx = s.ctx
          ∧ (t.coreAt m).arriving = (s.coreAt m).arriving.erase i
          ∧ (s.job? i.job = none → (t.coreAt m).inbox = (s.coreAt m).inbox)
          ∧ (∀ k, s.job? i.job ≠ none → s.vectorStrand m = some k → (s.ctxAt k).job = i.job →
              (t.coreAt m).inbox = (s.coreAt m).inbox ++ [i])) := by
  intro m
  refine ⟨fun h => by rw [exec_imageArrival, State.landImage, h], fun i h => ?_⟩
  have run : exec .imageArrival s = .next ((s.imageTaken m i).putImage m i) := by
    rw [exec_imageArrival, State.landImage, h]
    rfl
  obtain ⟨mesh, eq⟩ := s.imageTaken_eq m i
  have core : (s.imageTaken m i).coreAt m = { s.coreAt m with arriving := (s.coreAt m).arriving.erase i } := by
    rw [eq, State.coreAt_onCore_same]
    rfl
  obtain ⟨mem, ctx, arriving⟩ := (s.imageTaken m i).putImage_keeps m i
  have job : (s.imageTaken m i).job? i.job = s.job? i.job := by rw [eq]; rfl
  have strand : (s.imageTaken m i).vectorStrand m = s.vectorStrand m := by rw [eq]; rfl
  have own (k : Nat) : ((s.imageTaken m i).ctxAt k).job = (s.ctxAt k).job := by rw [eq]; rfl
  refine ⟨_, run, mem.trans (by rw [eq]; rfl), ctx.trans (by rw [eq]; rfl), arriving.trans (by rw [core]), fun hj => ?_, fun k hj hk hi => ?_⟩
  · rw [State.putImage_none (job.trans hj), core]
  · rw [State.putImage_here (by rw [job]; exact hj) (strand.trans hk) ((own k).trans hi), State.coreAt_onCore_same, core]

/-! ### The schedule, and the statement -/

theorem step_scheduled {s : State} {i : Instr} {x : Input} {rest : List (Instr × Input)} (h : s.schedule = (i, x) :: rest) :
    step s = exec i { s with schedule := rest, input := x } := by
  rw [step, h]

end Sys2Proof.Machine

open Sys2Proof Sys2Proof.Machine Sys2Proof.Claims

/-- Settles O60, clause by clause, each proved above for its engine: the haul, the anvil, the trellis encoder, the coding engines, the fronthaul ports and
the mesh. -/
theorem engineSteps : Obligations.EngineSteps := by
  unfold Obligations.EngineSteps
  intro s
  obtain ⟨tenc, noTenc⟩ := tencSteps s
  obtain ⟨noCoding, coding⟩ := codingSteps s
  obtain ⟨noRequest, request⟩ := requestSteps s
  obtain ⟨noResponse, response⟩ := responseSteps s
  obtain ⟨noImage, image⟩ := imageSteps s
  exact ⟨fun _ _ _ h => step_scheduled h, haulSteps s, leaseSteps s, fun h => anvilCommandStart_none h,
    fun c h hp => anvilCommandStart_starts h hp, fun h => anvilCommandComplete_none h, fun c h => anvilCommandComplete_completes s c h,
    tenc, noTenc, noCoding, coding, fronthaulSteps s, sectionSteps s, frameSteps s, noRequest, request, noResponse, response, lineSteps s,
    retrySteps s, noImage, image⟩

end

section
namespace Sys2Proof.Machine
open Sys2Proof.Claims

/-! ### A command whose formats no load allows (R315, R70, O52) -/

/-- Slot 0 holds the e2m1x code 8 at A[0][0], with the X of its side entry e4m3's 1; slot 1 holds e2m1x's 1 at B[0][0]. -/
def unscaledSlots : Cluster where
  data := [(0, 0x08), (3073, 0x38), (4096, 0x02)]

/-- A multiply of one K position over the two slots, both of e2m1x, with MX clear in both tags: ALDA and ALDB refuse such a load (R315), so no program
enters this command, but AccumulatorValues speaks of it. -/
def unscaledMultiply : AnvilCmd where
  op := .mma
  sa := 0
  sb := 1
  m := 1
  n := 1
  k := 1
  fa := 6
  fb := 6
  ta := [(6, false, false)]
  tb := [(6, false, false)]

/-- Without MX the model reads no side entry, and code 8 as 0: the pass adds 0. -/
theorem multiply_unscaled : floatAt (multiply unscaledSlots unscaledMultiply {}).1 0 0 0 = (0, 0, 1) := by decide +kernel

theorem realOf_of_decode {f : Fmt} {c m : Nat} {e : Int} (h : f.decode c = .fin false m e) : realOf f c = some ((m : ℝ) * (2 : ℝ) ^ e) := by
  rw [realOf, h]
  dsimp only
  rw [if_neg Bool.false_ne_true, one_mul]

/-- With its X read, code 8 is 1, and the claim's pass adds 1 × 1. -/
theorem floatSum_unscaled : floatSum unscaledSlots unscaledMultiply 0 0 0 = some 1 := by
  have a : numberAt unscaledSlots 6 false false 0 0 0 0 = some 1 := by
    have code : slotElem unscaledSlots (elemBits 6) 0 0 0 = 8 := by decide +kernel
    have x : (Sparse.get 0 unscaledSlots.data 3073).toNat = 0x38 := by decide
    have one : realOf fmtE4m3 0x38 = some (((8 : Nat) : ℝ) * (2 : ℝ) ^ (-3 : Int)) := realOf_of_decode (by decide)
    show codeNumber 6 (slotElem unscaledSlots (elemBits 6) 0 0 0) (Sparse.get 0 unscaledSlots.data 3073).toNat = some 1
    rw [code, x]
    refine one.trans (congrArg some ?_)
    norm_num
  have b : numberAt unscaledSlots 6 false false 1 0 0 0 = some 1 := by
    have code : slotElem unscaledSlots (elemBits 6) 1 0 0 = 2 := by decide +kernel
    show codeNumber 6 (slotElem unscaledSlots (elemBits 6) 1 0 0) (Sparse.get 0 unscaledSlots.data 7169).toNat = some 1
    rw [code]
    norm_num [codeNumber, e2m1Magnitude]
  have lanes : denseAt 192 1 0 = [0] := by decide +kernel
  show columnSum unscaledSlots 6 1 0 ((denseAt 192 1 0).map fun i =>
    mulO (numberAt unscaledSlots 6 false false 0 0 i i) (numberAt unscaledSlots 6 false false 1 0 i i)) = some 1
  rw [lanes, List.map_singleton, a, b]
  norm_num [columnSum, sumO, mulO]

/-- 0 is not 1 rounded toward 0 into f24: 1 is itself a number of the format. -/
theorem not_isRounded_one_zero : ¬ IsRounded fmtF32 .rz 1 0 := by
  intro h
  have top : realOf fmtF32 (fmtF32.largest false) = some (((2 ^ 24 - 1 : Nat) : ℝ) * (2 : ℝ) ^ (104 : Int)) := realOf_of_decode (by decide +kernel)
  have zero : realOf fmtF32 0 = some (((0 : Nat) : ℝ) * (2 : ℝ) ^ (-149 : Int)) := realOf_of_decode (by decide +kernel)
  have one : realOf fmtF32 0x3F800000 = some (((2 ^ 23 : Nat) : ℝ) * (2 : ℝ) ^ (-23 : Int)) := realOf_of_decode (by decide +kernel)
  obtain ⟨y, hy, _, _, best⟩ := h _ top (by norm_num)
  obtain rfl : y = 0 := by simpa using (hy.symm.trans zero)
  have := best _ _ one (by norm_num) (by norm_num)
  norm_num at this

theorem not_accumulatorValues : ¬ AccumulatorValues := by
  intro h
  have tags : TagsNamed unscaledMultiply := by
    refine ⟨fun j hj => ?_, fun j hj => ?_⟩
    · obtain rfl : j = 0 := Nat.lt_one_iff.mp (by simpa [unscaledMultiply, AnvilCmd.passes, AnvilCmd.passK, ceilDiv, pairRow, rowPass] using hj)
      rfl
    · obtain rfl : j = 0 := by
        have : j * 192 < 1 := hj
        omega
      rfl
  obtain ⟨_, _, _, float, _⟩ := h unscaledSlots unscaledMultiply {} 3 rfl (by decide) tags (by decide) (by decide) (by decide)
  have one (j : Nat) (hj : j < 1) : floatSum unscaledSlots unscaledMultiply 0 0 j = some 1 := by
    obtain rfl := Nat.lt_one_iff.mp hj
    exact floatSum_unscaled
  obtain ⟨seq, first, last, pass⟩ := float rfl (fun _ => 1) 0 0 Nat.one_pos Nat.one_pos one
  have last : seq 1 = (0, 0, 1) := last.trans multiply_unscaled
  have first : seq 0 = (0, 0, 0) := first
  obtain ⟨r, rounded, kept, _⟩ := pass 0 Nat.one_pos
  rw [first, last] at *
  obtain rfl : 0 = r := congrArg Prod.fst (kept (by decide))
  have zero : realOf fmtF32 0 = some 0 := (realOf_of_decode (m := 0) (e := -149) (by decide +kernel)).trans (by norm_num)
  exact not_isRounded_one_zero (by simpa using rounded 0 zero)

end Sys2Proof.Machine

open Sys2Proof Sys2Proof.Machine Sys2Proof.Claims

/-- Refutes O52: AccumulatorValues speaks of commands of any formats, also of e2m1x with MX clear, which no load brings into a slot (R315). There the
claim takes the X that a code 8 stands for from the side table, and the model, which reads no side table without MX, takes 0: a multiply of one position
over `unscaledSlots` adds 1 by the claim and 0 by the model. The clauses about the instructions and StoredValues play no part in this, nor do the values of
commands whose formats FormatAllowed allows. -/
theorem not_anvilResults : ¬ Obligations.AnvilResults := by
  unfold Obligations.AnvilResults
  rintro ⟨accumulators, _⟩
  exact not_accumulatorValues accumulators
end

section
namespace Sys2Proof.Machine
open Sys2Proof.Claims

/-! ### Holds and results of the engines' instructions (R128, R24, O53, O54) -/

/-- An instruction that has changed no context and is then held. -/
theorem does_held {i : Instr} {s u : State} (hc : u.ctx = s.ctx) (hk : u.cur = s.cur) {p : Ctx → Bool} {x : Ctx → Option (Nat × Bool)}
    (h : exec i s = .next (u.onMe fun c => { c with again := true, atPoint := p c, stall := x c })) : Does i s (Held s) := by
  have at_ (k : Nat) : u.ctxAt k = s.ctxAt k := by rw [State.ctxAt, State.ctxAt, hc]
  have me : u.me = s.me := by rw [State.me, State.me, hk, at_]
  refine ⟨_, h, p s.me, x s.me, ?_, fun k hne => ?_⟩
  · rw [State.me, State.onMe_cur, hk, State.ctxAt_onMe, if_pos hk.symm, me]
  · rw [State.ctxAt_onMe, if_neg (by rw [hk]; exact hne), at_]

theorem does_held_wait {i : Instr} {s : State} (h : exec i s = s.wait) : Does i s (Held s) := does_held rfl rfl (p := Ctx.atPoint) (x := fun _ => none) h

theorem does_held_waitPoint {i : Instr} {s u : State} (hc : u.ctx = s.ctx) (hk : u.cur = s.cur) (h : exec i s = u.waitPoint) : Does i s (Held s) :=
  does_held hc hk (p := fun _ => true) (x := fun _ => none) h

theorem does_held_waitOn {i : Instr} {s u : State} {pc : Nat} (hc : u.ctx = s.ctx) (hk : u.cur = s.cur) (h : exec i s = u.waitOn pc) :
    Does i s (Held s) :=
  does_held hc hk (p := Ctx.atPoint) (x := fun c => c.stallOn pc) h

theorem does_held_waitTile {i : Instr} {s u : State} {t : Tile} (hc : u.ctx = s.ctx) (hk : u.cur = s.cur) (h : exec i s = u.waitTile t) :
    Does i s (Held s) :=
  does_held hc hk (p := fun _ => true) (x := fun c => c.stallOn t.by_) h

/-- An instruction that traps at an address. -/
theorem traps_trapAt {i : Instr} {s : State} {c : Cause} {va : Nat} (h : exec i s = s.trapAt c va) : Traps i s c (BitVec.ofNat 64 va) s.me.pc := h

/-- The state in which d has its value and control is at the next word. -/
def State.gave (s : State) (d : BitVec 5) (v : W64) : State := (s.wr d v).advance

/-- An instruction that has changed no context and then gives d a value. -/
theorem givesAnd_done {i : Instr} {s u : State} {d : BitVec 5} {v : W64} {P : State → Prop} (hc : u.ctx = s.ctx) (hk : u.cur = s.cur)
    (h : exec i s = u.done d v) (hP : P (u.gave d v)) : GivesAnd i s d v P := by
  have at_ (k : Nat) : u.ctxAt k = s.ctxAt k := by rw [State.ctxAt, State.ctxAt, hc]
  have me : u.me = s.me := by rw [State.me, State.me, hk, at_]
  refine ⟨_, h, ?_, fun k hne => ?_, hP⟩
  · rw [State.me_advance, State.me_wr, me]
  · have hu : k ≠ u.cur := by rw [hk]; exact hne
    rw [State.wr_advance_eq]
    exact (State.ctxAt_setCtx_other _ hu _).trans (at_ k)

/-! ### HAUL and HAULNB (R297, R306, O53) -/

theorem State.haul_coord {s : State} {d : BitVec 5} (h : s.coordDest d = true) (hold : Bool) (a b : BitVec 5) : s.haul hold d a b = s.illegal := if_pos h

theorem State.haul_ordered {s : State} {d : BitVec 5} {e : Entry} (h : s.coordDest d = false) (he : s.anyVectorMemory = some e) (hold : Bool)
    (a b : BitVec 5) : s.haul hold d a b = s.waitOn e.pc.toNat := by
  rw [State.haul, if_neg (ne_true_of_eq_false h), he]

theorem State.haul_full {s : State} {d : BitVec 5} (h : s.coordDest d = false) (he : s.anyVectorMemory = none)
    (hf : 16 ≤ (s.coreAt s.myCore).fifo) (hold : Bool) (a b : BitVec 5) :
    s.haul hold d a b = if hold then s.waitPoint else s.done d (status 2) := by
  rw [State.haul, if_neg (ne_true_of_eq_false h), he]
  exact if_pos hf

/-- The command of a HAUL before its request is read. -/
def State.newXfer (s : State) (a b : BitVec 5) : Xfer where
  chan := (s.rd b).toNat % 4
  id := (s.chanAt s.myCore ((s.rd b).toNat % 4)).next
  addr := (s.rd a).setWidth 50
  pc := s.me.pc.toNat
  key := s.cur
  job := s.me.job
  root := s.rootOf s.cur

/-- The state in which a haul command has entered its channel. -/
def State.xferEntered (s : State) (a b : BitVec 5) : State :=
  let r := s.readRequest s.myCore (s.newXfer a b)
  (r.2.onCore s.myCore fun c => { c with xfers := c.xfers ++ [r.1] }).onChan s.myCore (s.newXfer a b).chan
    fun c => { c with next := (s.newXfer a b).id + 1 }

theorem State.haul_enters {s : State} {d : BitVec 5} (h : s.coordDest d = false) (he : s.anyVectorMemory = none)
    (hf : ¬ 16 ≤ (s.coreAt s.myCore).fifo) (hold : Bool) (a b : BitVec 5) :
    s.haul hold d a b = (s.xferEntered a b).done d (BitVec.ofNat 64 (s.newXfer a b).id) := by
  rw [State.haul, if_neg (ne_true_of_eq_false h), he]
  exact if_neg hf

/-- Reading a request changes what an access changes, and memory only as its translation does. -/
theorem State.readRequest_outward (s : State) (m : Nat) (x : Xfer) : Outward s (s.readRequest m x).2 := by
  unfold State.readRequest
  split
  · exact .refl s
  · split
    · exact (OnlyAsked.of_walkFaulting ..).toOutward
    · next h => exact (State.engineRead_outward h).trans (OnlyAsked.of_engineRequests ..).toOutward

/-- A request names neither its channel nor its strand. -/
theorem State.readRequest_keeps (s : State) (m : Nat) (x : Xfer) : let y := (s.readRequest m x).1
    y.chan = x.chan ∧ y.id = x.id ∧ y.key = x.key ∧ y.job = x.job ∧ y.state = x.state ∧ y.addr = x.addr := by
  unfold State.readRequest
  split
  · exact ⟨rfl, rfl, rfl, rfl, rfl, rfl⟩
  · split <;> exact ⟨rfl, rfl, rfl, rfl, rfl, rfl⟩

theorem requestReserved_iff (bs : List Byte) :
    requestReserved (wordIn bs 0) (wordIn bs 1) (wordIn bs 2) (wordIn bs 3) = true ↔ ¬ RequestClean bs := by
  simp only [requestReserved, RequestClean, fieldOf_eq_bitsOf, Bool.or_eq_true, bne_iff_ne, ne_eq, not_and_or, or_assoc]

theorem State.askWalk_mem (s : State) (m root va : Nat) : (s.askWalk m root va).mem = s.mem := by
  have reads (as : List Nat) (s : State) : (as.foldl (fun s a => s.askSlice m a false) s).mem = s.mem := by
    induction as generalizing s with
    | nil => rfl
    | cons a as ih => exact (ih _).trans (s.sendFree_mem _)
  unfold State.askWalk
  split
  · rfl
  · exact reads _ s

/-- The walks of an access that ends in a fault mark no entry. -/
theorem State.walkFaulting_mem (m : Nat) (root : W64) (acc : Acc) (ps : List (Nat × Nat)) (s : State) :
    (s.walkFaulting m root acc ps).mem = s.mem := by
  induction ps generalizing s with
  | nil => rfl
  | cons p ps ih =>
    have walk : (if p.1 < 2 ^ 49 ∧ !(privateVa p.1) then s.askWalk m (bitsOf root 18 30 * 2 ^ 18) p.1 else s).mem = s.mem := by
      split
      · exact s.askWalk_mem ..
      · rfl
    rw [State.walkFaulting]
    split
    · exact (ih _).trans walk
    · exact walk

theorem State.readRequest_misaligned {s : State} {m : Nat} {x : Xfer} (h : x.addr.toNat % 8 ≠ 0) :
    (s.readRequest m x).1.code = 1 ∧ (s.readRequest m x).2.mem = s.mem := by
  rw [State.readRequest, if_pos h]
  exact ⟨rfl, rfl⟩

theorem State.readRequest_faults {s : State} {m : Nat} {x : Xfer} {c : Cause} (h : x.addr.toNat % 8 = 0)
    (hr : s.engineRead m x.root x.addr.toNat 32 = .error c) :
    (s.readRequest m x).1.code = (if c = .page then 2 else 3) ∧ (s.readRequest m x).2.mem = s.mem := by
  rw [State.readRequest, if_neg (not_not_intro h), hr]
  exact ⟨by cases c <;> rfl, State.walkFaulting_mem ..⟩

/-- Translating an access leaves which cores sample. -/
theorem OnlyTranslated.unsampled {s t : State} (h : OnlyTranslated s t) (q : Unsampled s) : Unsampled t :=
  fun m => by rw [h.regs m 0x484 (by decide)]; exact q m

/-- A transfer has the fields that the bytes of a request give (R297). -/
def Xfer.Requests (x : Xfer) (bs : List Byte) : Prop :=
  x.mem = fieldOf (wordIn bs 0) 0 50 ∧ x.tile = fieldOf (wordIn bs 1) 0 6 ∧ x.len = fieldOf (wordIn bs 2) 0 20
    ∧ x.toff = fieldOf (wordIn bs 3) 32 32 ∧ x.cls = fieldOf (wordIn bs 3) 12 4 ∧ x.drain = (wordIn bs 3).getLsbD 0
    ∧ (RequestClean bs → x.code = 0) ∧ (¬ RequestClean bs → x.code = 6)

theorem State.readRequest_reads {s s1 : State} {m : Nat} {x : Xfer} {bs : List Byte} (h : x.addr.toNat % 8 = 0)
    (hr : s.engineRead m x.root x.addr.toNat 32 = .ok (bs, s1)) :
    (s.readRequest m x).1.Requests bs ∧ (Unsampled s → (s.readRequest m x).2.mem = s1.mem) := by
  rw [State.readRequest, if_neg (not_not_intro h), hr]
  refine ⟨⟨rfl, rfl, rfl, rfl, rfl, rfl, fun clean => if_neg fun bad => (requestReserved_iff bs).mp bad clean,
    fun bad => if_pos ((requestReserved_iff bs).mpr bad)⟩, fun q => ?_⟩
  exact (OnlyAsked.of_engineRequests ..).mem ((State.engineRead_frame hr).unsampled q)

theorem State.newXfer_addr (s : State) (a b : BitVec 5) : (s.newXfer a b).addr.toNat = (s.rd a).toNat % 2 ^ 50 := BitVec.toNat_setWidth ..

/-- What of its core a command that enters its channel changes: the channel's next id, and its list of transfers. -/
theorem State.xferEntered_core (s : State) (a b : BitVec 5) : ∃ tlb cr n home unseen, (s.xferEntered a b).coreAt s.myCore =
    { s.coreAt s.myCore with
      tlb := tlb, cr := cr, nflit := n, home := home, unseen := unseen
      xfers := (s.coreAt s.myCore).xfers ++ [(s.readRequest s.myCore (s.newXfer a b)).1]
      chans := Sparse.put (s.coreAt s.myCore).chans ((s.rd b).toNat % 4)
        { s.chanAt s.myCore ((s.rd b).toNat % 4) with next := (s.newXfer a b).id + 1 } } := by
  obtain ⟨tlb, cr, n, home, unseen, kept⟩ := (s.readRequest_outward s.myCore (s.newXfer a b)).kept s.myCore
  refine ⟨tlb, cr, n, home, unseen, ?_⟩
  rw [State.xferEntered, State.onChan, State.coreAt_onCore_same, State.coreAt_onCore_same, kept]
  rfl

/-- A command enters its channel with what its request says, and memory changes at most where reading the request marks a page. -/
theorem State.xferEntered_entered (s : State) (a b : BitVec 5) : HaulEntered s (s.xferEntered a b) a b := by
  obtain ⟨_, _, _, _, _, core⟩ := s.xferEntered_core a b
  have chan (c : Nat) : (s.xferEntered a b).chanAt s.myCore c = if c = (s.rd b).toNat % 4
      then { s.chanAt s.myCore ((s.rd b).toNat % 4) with next := (s.newXfer a b).id + 1 } else s.chanAt s.myCore c := by
    rw [State.chanAt, core]
    exact Sparse.get_put ..
  have aligned : (s.newXfer a b).addr.toNat % 8 = (s.rd a).toNat % 8 := by
    rw [State.newXfer_addr]
    omega
  obtain ⟨hchan, hid, hkey, hjob, hstate, haddr⟩ := s.readRequest_keeps s.myCore (s.newXfer a b)
  refine ⟨(chan _).trans (if_pos rfl), fun c hc => (chan c).trans (if_neg hc), by rw [core], (s.readRequest s.myCore (s.newXfer a b)).1, by rw [core],
    hchan, hid, hkey, hjob, hstate, haddr, fun h => ?_, fun h cause hr => ?_, fun h bs s1 hr => ?_⟩
  · exact State.readRequest_misaligned (by rw [aligned]; exact h)
  · exact State.readRequest_faults (by rw [aligned]; exact h) (by rw [State.newXfer_addr]; exact hr)
  · obtain ⟨⟨h1, h2, h3, h4, h5, h6, clean, bad⟩, mem⟩ := State.readRequest_reads (s := s) (m := s.myCore) (x := s.newXfer a b) (aligned.trans h)
      (by rw [State.newXfer_addr]; exact hr)
    exact ⟨h1, h2, h3, h4, h5, h6, clean, bad, mem⟩

theorem State.xferEntered_ctx (s : State) (a b : BitVec 5) : (s.xferEntered a b).ctx = s.ctx := (s.readRequest_outward ..).ctx

theorem State.xferEntered_cur (s : State) (a b : BitVec 5) : (s.xferEntered a b).cur = s.cur := by
  obtain ⟨_, _, _, _, _, _, h⟩ := (s.readRequest_outward s.myCore (s.newXfer a b)).parts
  exact (congrArg State.cur h :)

theorem haul_gives {i : Instr} {s : State} {d a b : BitVec 5} {hold : Bool} (run : exec i s = s.haul hold d a b) (hd : s.coordDest d = false)
    (hm : s.anyVectorMemory = none) (hf : ¬ 16 ≤ (s.coreAt s.myCore).fifo) :
    GivesAnd i s d (BitVec.ofNat 64 (s.newXfer a b).id) fun t => HaulEntered s t a b :=
  givesAnd_done (s.xferEntered_ctx a b) (s.xferEntered_cur a b) (run.trans (State.haul_enters hd hm hf hold a b)) (s.xferEntered_entered a b)

/-- HAUL and HAULNB. -/
theorem haulForms (s : State) (d a b : BitVec 5) :
    let full := 16 ≤ ((s.coreAt s.myCore).xfers.filter fun x => x.state == .waiting).length
    let id := BitVec.ofNat 64 (s.chanAt s.myCore ((s.rd b).toNat % 4)).next
    s.coordDest d = false →
      (s.anyVectorMemory ≠ none → Does (.haul d a b) s (Held s) ∧ Does (.haulnb d a b) s (Held s))
        ∧ (s.anyVectorMemory = none → full → Does (.haul d a b) s (Held s) ∧ Gives (.haulnb d a b) s d (status 2))
        ∧ (s.anyVectorMemory = none → ¬ full →
            GivesAnd (.haul d a b) s d id (fun t => HaulEntered s t a b) ∧ GivesAnd (.haulnb d a b) s d id fun t => HaulEntered s t a b) := by
  intro full id hd
  refine ⟨fun hm => ?_, fun hm hf => ?_, fun hm hf => ?_⟩
  · obtain ⟨e, he⟩ := Option.ne_none_iff_exists'.mp hm
    exact ⟨does_held_waitOn rfl rfl (State.haul_ordered hd he true a b), does_held_waitOn rfl rfl (State.haul_ordered hd he false a b)⟩
  · exact ⟨does_held_waitPoint rfl rfl (State.haul_full hd hm hf true a b), State.haul_full hd hm hf false a b⟩
  · exact ⟨haul_gives (hold := true) rfl hd hm hf, haul_gives (hold := false) rfl hd hm hf⟩

/-! ### HMILE and HWAIT (R300, R307, O53) -/

/-- The least of a number and of some others. -/
theorem foldl_min_spec {α : Type} (f : α → Nat) (xs : List α) (n : Nat) :
    let r := xs.foldl (fun t x => min t (f x)) n
    r ≤ n ∧ (∀ x ∈ xs, r ≤ f x) ∧ (r = n ∨ ∃ x ∈ xs, f x = r) := by
  induction xs generalizing n with
  | nil => exact ⟨Nat.le_refl n, fun _ h => absurd h List.not_mem_nil, .inl rfl⟩
  | cons y xs ih =>
    obtain ⟨low, all, one⟩ := ih (min n (f y))
    refine ⟨Nat.le_trans low (Nat.min_le_left ..), fun x hx => ?_, ?_⟩
    · rcases List.mem_cons.mp hx with rfl | hx
      · exact Nat.le_trans low (Nat.min_le_right ..)
      · exact all x hx
    · rcases one with one | ⟨x, hx, one⟩
      · rcases Nat.le_total n (f y) with h | h
        · exact .inl (one.trans (Nat.min_eq_left h))
        · exact .inr ⟨y, List.mem_cons_self, (one.trans (Nat.min_eq_right h)).symm⟩
      · exact .inr ⟨x, List.mem_cons_of_mem _ hx, one⟩

/-- The transfers of a channel that have not completed. -/
theorem mem_outstanding {xs : List Xfer} {ch : Nat} {x : Xfer} :
    x ∈ xs.filter (fun x => x.chan == ch && x.state != .finished) ↔ x ∈ xs ∧ x.chan = ch ∧ x.state ≠ .finished := by
  rw [List.mem_filter, Bool.and_eq_true, beq_iff_eq, bne_iff_ne]

theorem State.milestone_isMilestone (s : State) (m ch : Nat) : IsMilestone s m ch (s.milestone m ch) := by
  obtain ⟨low, all, one⟩ := foldl_min_spec Xfer.id ((s.coreAt m).xfers.filter fun x => x.chan == ch && x.state != .finished) (s.chanAt m ch).next
  refine ⟨fun x hx hc hs => all x (mem_outstanding.mpr ⟨hx, hc, hs⟩), low, one.imp id fun ⟨x, hx, hid⟩ => ?_⟩
  obtain ⟨hx, hc, hs⟩ := mem_outstanding.mp hx
  exact ⟨x, hx, hc, hs, hid⟩

/-- A channel has one milestone. -/
theorem isMilestone_unique {s : State} {m ch M N : Nat} (h : IsMilestone s m ch M) (g : IsMilestone s m ch N) : M = N := by
  have le {M N : Nat} (h : IsMilestone s m ch M) (g : IsMilestone s m ch N) : M ≤ N := by
    obtain ⟨low, next, _⟩ := h
    obtain ⟨_, _, rfl | ⟨x, hx, hc, hs, rfl⟩⟩ := g
    · exact next
    · exact low x hx hc hs
  exact Nat.le_antisymm (le h g) (le g h)

/-- The word of a milestone: F above M. -/
theorem toNat_mileWord (fault : Bool) (M : Nat) :
    (BitVec.ofNat 64 ((if fault then 2 ^ 63 else 0) + M % 2 ^ 63)).toNat = (if fault then 2 ^ 63 else 0) + M % 2 ^ 63 := by
  rw [BitVec.toNat_ofNat]
  refine Nat.mod_eq_of_lt ?_
  split <;> omega

theorem hmile_gives {s : State} {d : BitVec 5} (h : s.coordDest d = false) (a : BitVec 5) :
    ∃ (v : W64) (M : Nat), Gives (.hmile d a) s d v ∧ IsMilestone s s.myCore ((s.rd a).toNat % 4) M
      ∧ v.toNat = (if (s.chanAt s.myCore ((s.rd a).toNat % 4)).fault then 2 ^ 63 else 0) + M % 2 ^ 63 :=
  ⟨_, _, if_neg (ne_true_of_eq_false h), s.milestone_isMilestone .., toNat_mileWord ..⟩

theorem hwait_cases (s : State) (a b : BitVec 5) :
    let ch := (s.rd a).toNat % 4
    let i := (s.rd b).toNat
    let c := s.chanAt s.myCore ch
    (c.next ≤ i → Traps (.hwait a b) s .haul (s.rd b) s.me.pc)
      ∧ (i < c.next → c.fault = true → c.fid ≤ i → Traps (.hwait a b) s .haul (BitVec.ofNat 64 c.fid) s.me.pc)
      ∧ ∀ M, i < c.next → (c.fault = true → i < c.fid) → IsMilestone s s.myCore ch M →
          (i < M → exec (.hwait a b) s = .next s.advance) ∧ (M ≤ i → Does (.hwait a b) s (Held s)) := by
  intro ch i c
  have issued (h : i < c.next) : exec (.hwait a b) s = if c.fault && decide (c.fid ≤ i) then s.trap .haul (BitVec.ofNat 64 c.fid)
      else if i < s.milestone s.myCore ch then .next s.advance else s.waitPoint := if_neg (Nat.not_le.mpr h)
  refine ⟨fun h => if_pos h, fun h hf hi => (issued h).trans (if_pos ?_), fun M h hf hM => ?_⟩
  · rw [hf, Bool.true_and, decide_eq_true hi]
  · have sound : ¬ (c.fault && decide (c.fid ≤ i)) = true := by
      rw [Bool.and_eq_true, decide_eq_true_eq]
      exact fun ⟨hc, hi⟩ => absurd (hf hc) (Nat.not_lt.mpr hi)
    obtain rfl := isMilestone_unique hM (s.milestone_isMilestone s.myCore ch)
    exact ⟨fun hlt => (issued h).trans ((if_neg sound).trans (if_pos hlt)),
      fun hle => does_held_waitPoint rfl rfl ((issued h).trans ((if_neg sound).trans (if_neg (Nat.not_lt.mpr hle))))⟩

/-! ### The tile instructions (R295, R308, O53) -/

theorem haulWaits_iff (s : State) : ((s.coreAt s.myCore).xfers.any fun x => x.key == s.cur && x.job == s.me.job && x.state == .waiting) = true
    ↔ ¬ HaulsStarted s := by
  simp only [HaulsStarted, List.any_eq_true, Bool.and_eq_true, beq_iff_eq, and_assoc, not_forall, not_not, exists_prop]

theorem State.afterHauls_coord {s : State} {d : BitVec 5} (h : s.coordDest d = true) (go : Res) : s.afterHauls d go = s.illegal := if_pos h

theorem State.afterHauls_waits {s : State} {d : BitVec 5} (hd : s.coordDest d = false) (h : ¬ HaulsStarted s) (go : Res) :
    s.afterHauls d go = s.wait :=
  (if_neg (ne_true_of_eq_false hd)).trans (if_pos ((haulWaits_iff s).mpr h))

theorem State.afterHauls_goes {s : State} {d : BitVec 5} (hd : s.coordDest d = false) (h : HaulsStarted s) (go : Res) : s.afterHauls d go = go :=
  (if_neg (ne_true_of_eq_false hd)).trans (if_neg fun w => (haulWaits_iff s).mp w h)

theorem tileForms_wait (s : State) (i : Instr) (d : BitVec 5) (hi : tileDest i = some d) (hd : s.coordDest d = false) (h : ¬ HaulsStarted s) :
    Does i s (Held s) := by
  unfold tileDest at hi
  split at hi <;> cases hi
  · exact does_held_wait (State.afterHauls_waits hd h _)
  · exact does_held_wait (State.afterHauls_waits hd h _)
  · exact does_held_wait (State.afterHauls_waits hd h _)

theorem coordDest_illegal {s : State} {d : BitVec 5} (h : s.coordDest d = true) (a b : BitVec 5) (i : Instr)
    (hi : i ∈ [Instr.haul d a b, .haulnb d a b, .hmile d a, .tdef d a b, .tstat d a, .tset d a b, .tfree d a]) :
    Traps i s .illegal (s.ir.setWidth 64) s.me.pc := by
  simp only [List.mem_cons, List.not_mem_nil, or_false] at hi
  rcases hi with rfl | rfl | rfl | rfl | rfl | rfl | rfl
  · exact State.haul_coord h true a b
  · exact State.haul_coord h false a b
  · exact if_pos h
  · exact State.afterHauls_coord h _
  · exact if_pos h
  · exact State.afterHauls_coord h _
  · exact State.afterHauls_coord h _

/-- What a tile table reads after an entry is set or taken away. -/
theorem State.tiles_setTile (s : State) (m id : Nat) (t : Option Tile) (j : Nat) :
    Sparse.get none ((s.setTile m id t).coreAt m).tiles j = if j = id then t else Sparse.get none (s.coreAt m).tiles j := by
  rw [State.setTile, State.coreAt_onCore_same]
  cases t with
  | none => exact Sparse.get_erase ..
  | some t => exact Sparse.get_put ..

theorem State.setTile_onlyTiles (s : State) (id : Nat) (t : Option Tile) : OnlyTiles s (s.setTile s.myCore id t) := by
  refine ⟨rfl, ?_, fun c hc => ?_, rfl⟩
  · rw [State.setTile, State.coreAt_onCore_same]
  · rw [State.setTile, State.coreAt_onCore, if_neg hc]

/-- A tile instruction that sets an entry, or takes one away, and gives d a value. -/
theorem setsTile {i : Instr} {s : State} {d : BitVec 5} {v : W64} {id : Nat} {t : Option Tile} (h : exec i s = (s.setTile s.myCore id t).done d v) :
    GivesAnd i s d v fun u => OnlyTiles s u ∧ Sparse.get none (u.coreAt s.myCore).tiles id = t
      ∧ ∀ j, j ≠ id → Sparse.get none (u.coreAt s.myCore).tiles j = tileAt s j :=
  givesAnd_done (u := s.setTile s.myCore id t) rfl rfl h ⟨s.setTile_onlyTiles id t, (s.tiles_setTile s.myCore id t id).trans (if_pos rfl),
    fun j hj => (s.tiles_setTile s.myCore id t j).trans (if_neg hj)⟩

/-! #### TDEF -/

theorem tileFits_iff (off len : Nat) : tileFits off len = true ↔ RegionAllowed off len := by
  simp only [tileFits, RegionAllowed, Bool.and_eq_true, decide_eq_true_eq, and_assoc]

theorem tileOverlaps_iff (s : State) (off len : Nat) : (s.coreAt s.myCore).tileOverlaps off len = true ↔ Overlaps s off len := by
  unfold Core.tileOverlaps Overlaps
  rw [List.any_eq_true]
  refine exists_congr fun p => and_congr_right fun _ => ?_
  cases p.2 with
  | none => simp
  | some t => simp

/-- Whether a region can become a tile: it is allowed, no reserved bit is set, and it overlaps none. -/
theorem regionRefused_iff (s : State) (off : Nat) (b : BitVec 5) :
    (!(tileFits off (bitsOf (s.rd b) 0 20)) || bitsOf (s.rd b) 20 43 != 0 || (s.coreAt s.myCore).tileOverlaps off (bitsOf (s.rd b) 0 20)) = true
      ↔ ¬ (RegionAllowed off (fieldOf (s.rd b) 0 20) ∧ fieldOf (s.rd b) 20 43 = 0 ∧ ¬ Overlaps s off (fieldOf (s.rd b) 0 20)) := by
  rw [← tileFits_iff, ← tileOverlaps_iff, fieldOf_eq_bitsOf, fieldOf_eq_bitsOf]
  simp only [Bool.or_eq_true, Bool.not_eq_true', ← Bool.not_eq_true, bne_iff_ne, ne_eq, not_and_or, not_not, or_assoc]

theorem freeTile_none {s : State} (h : ∀ id, id < 64 → tileAt s id ≠ none) : (s.coreAt s.myCore).freeTile = none :=
  List.find?_eq_none.mpr fun i hi => by
    rw [beq_iff_eq]
    exact h i (List.mem_range.mp hi)

theorem freeTile_some {s : State} {id : Nat} (hid : id < 64) (h : tileAt s id = none) (low : ∀ i, i < id → tileAt s i ≠ none) :
    (s.coreAt s.myCore).freeTile = some id :=
  List.find?_range_eq_some.mpr ⟨beq_iff_eq.mpr h, List.mem_range.mpr hid, fun j hj => by
    rw [Bool.not_eq_true', beq_eq_false_iff_ne]
    exact low j hj⟩

theorem tdef_prot {s : State} {d : BitVec 5} (hd : s.coordDest d = false) (hs : HaulsStarted s) (a b : BitVec 5)
    (hp : privateVa (ea (s.rd a)) = true) : Traps (.tdef d a b) s .prot (BitVec.ofNat 64 (ea (s.rd a))) s.me.pc := by
  have run : exec (.tdef d a b) s = _ := State.afterHauls_goes hd hs _
  exact traps_trapAt (run.trans (if_pos hp))

/-- The entry of the region at an offset of the window, of the length and the state that g[b] asks for. -/
def State.newTile (s : State) (b : BitVec 5) (off : Nat) : Tile :=
  { off := off, len := bitsOf (s.rd b) 0 20, state := if (s.rd b).getLsbD 63 then .ready else .empty, job := s.me.job }

/-- What TDEF does with the offset of its region in the window. -/
def State.defineTile (s : State) (d b : BitVec 5) (off : Nat) : Res :=
  if !(tileFits off (bitsOf (s.rd b) 0 20)) || bitsOf (s.rd b) 20 43 != 0 || (s.coreAt s.myCore).tileOverlaps off (bitsOf (s.rd b) 0 20) then
    s.done d (status 6)
  else
    match (s.coreAt s.myCore).freeTile with
    | none => s.done d (status 2)
    | some id =>
      (s.setTile s.myCore id (some (s.newTile b off))).done d (BitVec.ofNat 64 id)

theorem tdef_windowOffset {s : State} {d : BitVec 5} (hd : s.coordDest d = false) (hs : HaulsStarted s) (a b : BitVec 5)
    (hp : privateVa (ea (s.rd a)) = false) :
    exec (.tdef d a b) s = ((windowOffset s.myCore (ea (s.rd a))).elim (s.done d (status 6)) (s.defineTile d b) : Res) := by
  have run : exec (.tdef d a b) s = _ := State.afterHauls_goes hd hs _
  refine run.trans ((if_neg (ne_true_of_eq_false hp)).trans ?_)
  cases windowOffset s.myCore (ea (s.rd a)) with
  | none => rfl
  | some off => rfl

theorem tdef_none {s : State} {d : BitVec 5} (hd : s.coordDest d = false) (hs : HaulsStarted s) (a b : BitVec 5)
    (hp : privateVa (ea (s.rd a)) = false) (hw : windowOffset s.myCore (ea (s.rd a)) = none) : Gives (.tdef d a b) s d (status 6) := by
  have run := tdef_windowOffset hd hs a b hp
  rw [hw] at run
  exact run

theorem tdef_some {s : State} {d : BitVec 5} (hd : s.coordDest d = false) (hs : HaulsStarted s) (a b : BitVec 5) {off : Nat}
    (hp : privateVa (ea (s.rd a)) = false) (hw : windowOffset s.myCore (ea (s.rd a)) = some off) :
    exec (.tdef d a b) s = s.defineTile d b off := by
  have run := tdef_windowOffset hd hs a b hp
  rw [hw] at run
  exact run

/-- Whether g[b] asks for a region that can become a tile at this offset (R308). -/
def Definable (s : State) (b : BitVec 5) (off : Nat) : Prop :=
  RegionAllowed off (fieldOf (s.rd b) 0 20) ∧ fieldOf (s.rd b) 20 43 = 0 ∧ ¬ Overlaps s off (fieldOf (s.rd b) 0 20)

theorem State.defineTile_refused {s : State} {b : BitVec 5} {off : Nat} (h : ¬ Definable s b off) (d : BitVec 5) :
    s.defineTile d b off = s.done d (status 6) := if_pos ((regionRefused_iff s off b).mpr h)

theorem State.defineTile_full {s : State} {b : BitVec 5} {off : Nat} (h : Definable s b off) (full : ∀ id, id < 64 → tileAt s id ≠ none)
    (d : BitVec 5) : s.defineTile d b off = s.done d (status 2) := by
  rw [State.defineTile, if_neg fun hr => (regionRefused_iff s off b).mp hr h, freeTile_none full]

theorem State.defineTile_free {s : State} {b : BitVec 5} {off id : Nat} (h : Definable s b off) (hid : id < 64) (free : tileAt s id = none)
    (low : ∀ i, i < id → tileAt s i ≠ none) (d : BitVec 5) :
    s.defineTile d b off = (s.setTile s.myCore id (some (s.newTile b off))).done d (BitVec.ofNat 64 id) := by
  rw [State.defineTile, if_neg fun hr => (regionRefused_iff s off b).mp hr h, freeTile_some hid free low]

theorem tdef_defines {s : State} {d a b : BitVec 5} {off id : Nat} (run : exec (.tdef d a b) s = s.defineTile d b off) (h : Definable s b off)
    (hid : id < 64) (free : tileAt s id = none) (low : ∀ i, i < id → tileAt s i ≠ none) :
    GivesAnd (.tdef d a b) s d (BitVec.ofNat 64 id) fun t => OnlyTiles s t ∧ t.tile? s.myCore id s.me.job = some (s.newTile b off)
      ∧ ∀ i, i ≠ id → Sparse.get none (t.coreAt s.myCore).tiles i = tileAt s i := by
  obtain ⟨t, ht, me, others, tiles, entry, rest⟩ := setsTile (run.trans (State.defineTile_free h hid free low d))
  refine ⟨t, ht, me, others, tiles, ?_, rest⟩
  rw [State.tile?, entry]
  exact if_pos rfl

/-! #### TSTAT, TSET and TFREE -/

theorem Tile.word_isTileWord (t : Tile) : IsTileWord t.word t := by
  rw [IsTileWord, Tile.word, BitVec.toNat_ofNat]
  cases t.state <;> rfl

theorem Tile.busy_iff (t : Tile) : t.busy = true ↔ t.state = .filling ∨ t.state = .draining := by
  rw [Tile.busy, Bool.or_eq_true, beq_iff_eq, beq_iff_eq]

theorem tileForms_none {s : State} {d a : BitVec 5} (hd : s.coordDest d = false) (b : BitVec 5)
    (h : s.tile? s.myCore ((s.rd a).toNat % 64) s.me.job = none) :
    Gives (.tstat d a) s d (status 7)
      ∧ (HaulsStarted s → Gives (.tset d a b) s d (status 7) ∧ Gives (.tfree d a) s d (status 7)) := by
  refine ⟨?_, fun hs => ⟨?_, ?_⟩⟩
  · have run : exec (.tstat d a) s = _ := if_neg (ne_true_of_eq_false hd)
    rw [h] at run
    exact run
  · have run : exec (.tset d a b) s = _ := State.afterHauls_goes hd hs _
    dsimp only at run
    rw [h] at run
    exact run
  · have run : exec (.tfree d a) s = _ := State.afterHauls_goes hd hs _
    dsimp only at run
    rw [h] at run
    exact run

theorem tstat_gives {s : State} {d a : BitVec 5} {tl : Tile} (hd : s.coordDest d = false)
    (h : s.tile? s.myCore ((s.rd a).toNat % 64) s.me.job = some tl) : ∃ v, IsTileWord v tl ∧ Gives (.tstat d a) s d v := by
  have run : exec (.tstat d a) s = _ := if_neg (ne_true_of_eq_false hd)
  rw [h] at run
  exact ⟨_, tl.word_isTileWord, run⟩

/-- The state a TSET leaves its tile in. -/
def tsetTile (tl : Tile) (new : Nat) : Tile :=
  { tl with state := if new = 0 then .empty else .ready, owner := 0, arr := if new = 0 then 0 else tl.arr }

theorem tsetForms {s : State} {d a b : BitVec 5} {tl : Tile} (hd : s.coordDest d = false) (hs : HaulsStarted s)
    (h : s.tile? s.myCore ((s.rd a).toNat % 64) s.me.job = some tl) :
    let id := (s.rd a).toNat % 64
    let new := (s.rd b).toNat % 4
    let refused := (new ≠ 0 ∧ new ≠ 2) ∨ tl.state = .draining ∨ (tl.state = .filling ∧ (tl.owner ≠ 1 ∨ s.tileXfers s.myCore id false ≠ 0))
    (refused → Gives (.tset d a b) s d (status 6))
      ∧ (¬ refused → new = 2 → s.anyVectorMemory ≠ none → Does (.tset d a b) s (Held s))
      ∧ (¬ refused → (new = 0 ∨ s.anyVectorMemory = none) → ∃ v, IsTileWord v tl ∧ GivesAnd (.tset d a b) s d v fun t => OnlyTiles s t
          ∧ Sparse.get none (t.coreAt s.myCore).tiles id = some (tsetTile tl new)
          ∧ ∀ i, i ≠ id → Sparse.get none (t.coreAt s.myCore).tiles i = tileAt s i) := by
  intro id new refused
  have run : exec (.tset d a b) s = _ := State.afterHauls_goes hd hs _
  dsimp only at run
  rw [h] at run
  refine ⟨fun hr => run.trans (if_pos hr), fun hr hn hm => ?_, fun hr hm => ?_⟩
  · obtain ⟨e, he⟩ := Option.ne_none_iff_exists'.mp hm
    have run := run.trans (if_neg hr)
    rw [if_pos hn, he] at run
    exact does_held_waitOn rfl rfl run
  · have run := run.trans (if_neg hr)
    have none_ : (if new = 2 then s.anyVectorMemory else none) = none := by
      rcases hm with hm | hm
      · exact if_neg (by omega)
      · rw [hm, ite_self]
    rw [none_] at run
    have made : (if new = 0 then { tl with state := .empty, owner := 0, arr := 0 } else tl.release) = tsetTile tl new := by
      unfold tsetTile Tile.release
      split <;> rfl
    rw [made] at run
    exact ⟨_, tl.word_isTileWord, setsTile run⟩

theorem tfreeForms {s : State} {d a : BitVec 5} {tl : Tile} (hd : s.coordDest d = false) (hs : HaulsStarted s)
    (h : s.tile? s.myCore ((s.rd a).toNat % 64) s.me.job = some tl) :
    ((tl.state = .filling ∨ tl.state = .draining) → Gives (.tfree d a) s d (status 6))
      ∧ ((tl.state = .empty ∨ tl.state = .ready) → GivesAnd (.tfree d a) s d 0 fun t => OnlyTiles s t
          ∧ Sparse.get none (t.coreAt s.myCore).tiles ((s.rd a).toNat % 64) = none
          ∧ ∀ i, i ≠ (s.rd a).toNat % 64 → Sparse.get none (t.coreAt s.myCore).tiles i = tileAt s i) := by
  have run : exec (.tfree d a) s = _ := State.afterHauls_goes hd hs _
  dsimp only at run
  rw [h] at run
  refine ⟨fun hb => run.trans (if_pos (tl.busy_iff.mpr hb)), fun hr => setsTile (run.trans (if_neg fun hb => ?_))⟩
  rcases hr with hr | hr <;> rcases tl.busy_iff.mp hb with hb | hb <;> cases hr.symm.trans hb

end Sys2Proof.Machine

open Sys2Proof Sys2Proof.Machine Sys2Proof.Claims

/-- Settles O53: the haul instructions and the tile instructions, form by form. -/
theorem haulAndTiles : Obligations.HaulAndTiles := by
  unfold Obligations.HaulAndTiles
  intro s d a b m
  refine ⟨fun hd i hi => coordDest_illegal hd a b i hi, haulForms s d a b, fun hd => hmile_gives hd a, hwait_cases s a b, tileForms_wait s,
    fun hd hs => ⟨tdef_prot hd hs a b, tdef_none hd hs a b, fun _ hp hw => ?_⟩,
    fun hd => ⟨tileForms_none hd b, fun tl h => ⟨tstat_gives hd h, fun hs => ?_, fun hs => ?_, fun hs => ?_,
      fun hs => (tfreeForms hd hs h).1, fun hs => (tfreeForms hd hs h).2⟩⟩⟩
  · have run := tdef_some hd hs a b hp hw
    exact ⟨fun h => run.trans (State.defineTile_refused h d),
      fun allowed clean apart full => run.trans (State.defineTile_full ⟨allowed, clean, apart⟩ full d),
      fun _ allowed clean apart hid free low => tdef_defines run ⟨allowed, clean, apart⟩ hid free low⟩
  · exact (tsetForms hd hs h).1
  · exact (tsetForms hd hs h).2.1
  · exact (tsetForms hd hs h).2.2

end

section
namespace Sys2Proof.Machine
open Sys2Proof.Claims

/-! ### The tiles a command takes (R24, R295, O54) -/

theorem tileAt_of_myTile {s : State} {id : Nat} {t : Tile} (h : myTile s id = some t) : tileAt s id = some t := by
  unfold myTile State.tile? at h
  unfold tileAt
  split at h
  · cases h
  · split at h
    · next g _ => rw [g, h]
    · cases h

theorem State.myCore_gave (s : State) (d : BitVec 5) (v : W64) : (s.gave d v).myCore = s.myCore := by
  obtain ⟨_, h⟩ := s.wr_advance_wrote d v
  rw [State.myCore, State.gave, h]
  rfl

theorem State.coreAt_gave (s : State) (d : BitVec 5) (v : W64) (m : Nat) : (s.gave d v).coreAt m = s.coreAt m := rfl

/-- A state of the same context has its core. -/
theorem State.myCore_congr {s u : State} (hc : u.ctx = s.ctx) (hk : u.cur = s.cur) : u.myCore = s.myCore := by
  rw [State.myCore, State.myCore, State.me, State.me, State.ctxAt, State.ctxAt, hc, hk]

/-- The tile table after an instruction has given its result. -/
theorem tileAt_gave {s u : State} (hc : u.ctx = s.ctx) (hk : u.cur = s.cur) (d : BitVec 5) (v : W64) (id : Nat) :
    tileAt (u.gave d v) id = Sparse.get none (u.coreAt s.myCore).tiles id := by
  rw [tileAt, State.myCore_gave, State.myCore_congr hc hk, State.coreAt_gave]

/-- A source tile drains and a destination tile fills. -/
def State.takeTiles (s : State) (m src dst owner pc : Nat) : State :=
  (s.onTile m src fun t => { t.take .draining owner with by_ := pc }).onTile m dst fun t => { t.take .filling owner with by_ := pc }

theorem State.takeTiles_src {s : State} {m src dst : Nat} {ts : Tile} (hne : src ≠ dst) (h : Sparse.get none (s.coreAt m).tiles src = some ts)
    (owner pc : Nat) :
    Sparse.get none ((s.takeTiles m src dst owner pc).coreAt m).tiles src = some { ts with state := .draining, owner := owner, by_ := pc } := by
  rw [State.takeTiles, State.tiles_onTile, if_neg fun g => hne g.2, State.tiles_onTile, if_pos ⟨rfl, rfl⟩, h]
  rfl

theorem State.takeTiles_dst {s : State} {m src dst : Nat} {td : Tile} (hne : src ≠ dst) (h : Sparse.get none (s.coreAt m).tiles dst = some td)
    (owner pc : Nat) :
    Sparse.get none ((s.takeTiles m src dst owner pc).coreAt m).tiles dst = some { td with state := .filling, owner := owner, by_ := pc } := by
  rw [State.takeTiles, State.tiles_onTile, if_pos ⟨rfl, rfl⟩, State.tiles_onTile, if_neg fun g => hne g.2.symm, h]
  rfl

/-- Only a table of tiles changes. -/
theorem State.takeTiles_core (s : State) (m src dst owner pc : Nat) :
    (∃ core, s.takeTiles m src dst owner pc = { s with core := core })
      ∧ ∀ n, ∃ ts, (s.takeTiles m src dst owner pc).coreAt n = { s.coreAt n with tiles := ts } := by
  obtain ⟨⟨c1, h1⟩, k1⟩ := s.onTile_core m src fun t => { t.take .draining owner with by_ := pc }
  unfold State.takeTiles
  obtain ⟨⟨c2, h2⟩, k2⟩ := State.onTile_core (s.onTile m src fun t => { t.take .draining owner with by_ := pc }) m dst
    fun t => { t.take .filling owner with by_ := pc }
  refine ⟨⟨c2, by rw [h2, h1]⟩, fun n => ?_⟩
  obtain ⟨t1, g1⟩ := k1 n
  obtain ⟨t2, g2⟩ := k2 n
  exact ⟨t2, by rw [g2, g1]⟩

theorem not_busy_of_atRest {t : Tile} (h : AtRest t) : ¬ Busy t := by
  rintro (hb | hb) <;> cases h.symm.trans hb

/-! ### TENC (R336, R337, O54) -/

/-- TENC names a coordinate register, no or too many segments, or one tile twice (R337). -/
def TencBad (s : State) (d a b : BitVec 5) : Prop :=
  s.coordDest d = true ∨ fieldOf (s.rd a) 8 6 = 0 ∨ 32 < fieldOf (s.rd a) 8 6 ∨ (s.rd a).toNat % 64 = (s.rd b).toNat % 64

theorem tenc_illegal {s : State} {d a b : BitVec 5} (h : TencBad s d a b) : exec (.tenc d a b) s = s.illegal := if_pos h

/-- The state in which a TENC command has taken its tiles and entered the queue of its cluster. -/
def State.tencEntered (s : State) (c : TencCmd) : State :=
  ((s.takeTiles s.myCore c.src c.dst 5 s.me.pc.toNat).onCore s.myCore
    fun k => { k with tencNext := k.tencNext + 1, tencOpen := k.tencOpen ++ [c.id] }).onCluster s.myCluster fun k => { k with tenc := k.tenc ++ [c] }

/-- What TENC does with two tiles at rest. -/
def State.tencAtRest (s : State) (d : BitVec 5) (c : TencCmd) (ts td : Tile) : Res :=
  if c.soff % 64 ≠ 0 ∨ c.doff % 64 ≠ 0 then s.trap .misalign 0
  else if ts.len < c.srcEnd ∨ td.len < c.dstEnd then s.trap .prot 0
  else
    match s.anyVectorMemory with
    | some e => s.waitOn e.pc.toNat
    | none => if 8 ≤ (s.clusterAt s.myCluster).tenc.length then s.waitPoint else (s.tencEntered c).done d (BitVec.ofNat 64 c.id)

/-- What TENC does with its two tiles. -/
def State.tencWith (s : State) (d : BitVec 5) (c : TencCmd) (ts td : Tile) : Res :=
  if ts.state = .empty ∨ td.state = .empty then s.trap .tileEmpty 0
  else if ts.busy then s.waitTile ts
  else if td.busy then s.waitTile td
  else s.tencAtRest d c ts td

theorem tenc_with {s : State} {d a b : BitVec 5} (h : ¬ TencBad s d a b) {ts td : Tile} (hs : myTile s ((s.rd a).toNat % 64) = some ts)
    (hd : myTile s ((s.rd b).toNat % 64) = some td) : exec (.tenc d a b) s = s.tencWith d (s.tencCmd d a b) ts td := by
  have run : exec (.tenc d a b) s = _ := if_neg h
  rw [show s.tile? s.myCore (s.tencCmd d a b).src (s.tencCmd d a b).job = some ts from hs,
    show s.tile? s.myCore (s.tencCmd d a b).dst (s.tencCmd d a b).job = some td from hd] at run
  exact run

theorem tenc_without {s : State} {d a b : BitVec 5} (h : ¬ TencBad s d a b)
    (hn : ∀ ts td, myTile s ((s.rd a).toNat % 64) = some ts → myTile s ((s.rd b).toNat % 64) = some td →
      ts.state = .empty ∨ td.state = .empty) :
    exec (.tenc d a b) s = s.trap .tileEmpty 0 := by
  have run : exec (.tenc d a b) s = _ := if_neg h
  cases hs : myTile s ((s.rd a).toNat % 64) with
  | none =>
    rw [show s.tile? s.myCore (s.tencCmd d a b).src (s.tencCmd d a b).job = none from hs] at run
    exact run
  | some ts =>
    cases hd : myTile s ((s.rd b).toNat % 64) with
    | none =>
      rw [show s.tile? s.myCore (s.tencCmd d a b).src (s.tencCmd d a b).job = some ts from hs,
        show s.tile? s.myCore (s.tencCmd d a b).dst (s.tencCmd d a b).job = none from hd] at run
      exact run
    | some td => exact (tenc_with h hs hd).trans (if_pos (hn ts td hs hd))

theorem State.tencWith_busy {s : State} {ts td : Tile} (hs : ts.state ≠ .empty) (hd : td.state ≠ .empty) (hb : Busy ts ∨ Busy td)
    {d a b : BitVec 5} {c : TencCmd} (run : exec (.tenc d a b) s = s.tencWith d c ts td) : Does (.tenc d a b) s (Held s) := by
  have run := run.trans (if_neg (not_or.mpr ⟨hs, hd⟩))
  by_cases h : ts.busy = true
  · exact does_held_waitTile rfl rfl (run.trans (if_pos h))
  · have other : td.busy = true := td.busy_iff.mpr (hb.resolve_left fun g => h (ts.busy_iff.mpr g))
    exact does_held_waitTile rfl rfl ((run.trans (if_neg h)).trans (if_pos other))

theorem not_empty_of_atRest {t : Tile} (h : AtRest t) : t.state ≠ .empty := fun g => by cases h.symm.trans g

theorem State.tencWith_rest {s : State} {ts td : Tile} (hs : AtRest ts) (hd : AtRest td) (d : BitVec 5) (c : TencCmd) :
    s.tencWith d c ts td = s.tencAtRest d c ts td :=
  (if_neg (not_or.mpr ⟨not_empty_of_atRest hs, not_empty_of_atRest hd⟩)).trans
    ((if_neg fun h => not_busy_of_atRest hs (ts.busy_iff.mp h)).trans (if_neg fun h => not_busy_of_atRest hd (td.busy_iff.mp h)))

/-- The bytes of a TENC lie in its tiles. -/
def TencCmd.Fits (c : TencCmd) (ts td : Tile) : Prop := c.srcEnd ≤ ts.len ∧ c.dstEnd ≤ td.len

theorem State.tencAtRest_misaligned {s : State} {c : TencCmd} (h : c.soff % 64 ≠ 0 ∨ c.doff % 64 ≠ 0) (d : BitVec 5) (ts td : Tile) :
    s.tencAtRest d c ts td = s.trap .misalign 0 := if_pos h

theorem State.tencAtRest_outside {s : State} {c : TencCmd} {ts td : Tile} (h1 : c.soff % 64 = 0) (h2 : c.doff % 64 = 0) (h : ¬ c.Fits ts td)
    (d : BitVec 5) : s.tencAtRest d c ts td = s.trap .prot 0 := by
  rw [TencCmd.Fits, not_and_or, Nat.not_le, Nat.not_le] at h
  exact (if_neg (not_or.mpr ⟨not_not_intro h1, not_not_intro h2⟩)).trans (if_pos h)

theorem State.tencAtRest_fits {s : State} {c : TencCmd} {ts td : Tile} (h1 : c.soff % 64 = 0) (h2 : c.doff % 64 = 0) (h : c.Fits ts td)
    (d : BitVec 5) : s.tencAtRest d c ts td =
      match s.anyVectorMemory with
      | some e => s.waitOn e.pc.toNat
      | none => if 8 ≤ (s.clusterAt s.myCluster).tenc.length then s.waitPoint else (s.tencEntered c).done d (BitVec.ofNat 64 c.id) :=
  (if_neg (not_or.mpr ⟨not_not_intro h1, not_not_intro h2⟩)).trans (if_neg (not_or.mpr ⟨Nat.not_lt.mpr h.1, Nat.not_lt.mpr h.2⟩))

/-- A TENC that fits is held behind queued vector accesses and while the queue of its cluster is full. -/
theorem State.tencAtRest_held {s : State} {d a b : BitVec 5} {c : TencCmd} {ts td : Tile} (h1 : c.soff % 64 = 0) (h2 : c.doff % 64 = 0)
    (h : c.Fits ts td) (run : exec (.tenc d a b) s = s.tencAtRest d c ts td)
    (hw : s.anyVectorMemory ≠ none ∨ 8 ≤ (s.clusterAt s.myCluster).tenc.length) : Does (.tenc d a b) s (Held s) := by
  rw [State.tencAtRest_fits h1 h2 h] at run
  cases hm : s.anyVectorMemory with
  | some e =>
    rw [hm] at run
    exact does_held_waitOn rfl rfl run
  | none =>
    rw [hm] at run
    exact does_held_waitPoint rfl rfl (run.trans (if_pos (hw.resolve_left (not_not_intro hm))))

theorem State.tencEntered_frame (s : State) (c : TencCmd) :
    (s.tencEntered c).ctx = s.ctx ∧ (s.tencEntered c).cur = s.cur ∧ (s.tencEntered c).mem = s.mem := by
  obtain ⟨core, h⟩ := (s.takeTiles_core s.myCore c.src c.dst 5 s.me.pc.toNat).1
  rw [State.tencEntered, h]
  exact ⟨rfl, rfl, rfl⟩

theorem State.tencEntered_core (s : State) (c : TencCmd) : (s.tencEntered c).coreAt s.myCore =
    { (s.takeTiles s.myCore c.src c.dst 5 s.me.pc.toNat).coreAt s.myCore with
      tencNext := (s.coreAt s.myCore).tencNext + 1, tencOpen := (s.coreAt s.myCore).tencOpen ++ [c.id] } := by
  obtain ⟨ts, h⟩ := (s.takeTiles_core s.myCore c.src c.dst 5 s.me.pc.toNat).2 s.myCore
  rw [State.tencEntered, State.coreAt_onCluster, State.coreAt_onCore_same, h]

theorem State.tencEntered_queue (s : State) (c : TencCmd) :
    ((s.tencEntered c).clusterAt s.myCluster).tenc = (s.clusterAt s.myCluster).tenc ++ [c] := by
  obtain ⟨core, h⟩ := (s.takeTiles_core s.myCore c.src c.dst 5 s.me.pc.toNat).1
  rw [State.tencEntered, State.clusterAt_onCluster_same, State.clusterAt_onCore, h]
  rfl

/-- What a TENC that goes on leaves: its command at the end of the queue and its tiles taken. -/
theorem tenc_gives {s : State} {d a b : BitVec 5} {c : TencCmd} {ts td : Tile} (h1 : c.soff % 64 = 0) (h2 : c.doff % 64 = 0) (h : c.Fits ts td)
    (run : exec (.tenc d a b) s = s.tencAtRest d c ts td) (hm : s.anyVectorMemory = none) (hq : (s.clusterAt s.myCluster).tenc.length < 8)
    (hne : c.src ≠ c.dst) (hs : tileAt s c.src = some ts) (hd : tileAt s c.dst = some td) :
    GivesAnd (.tenc d a b) s d (BitVec.ofNat 64 c.id) fun t => t.mem = s.mem
      ∧ tileAt t c.src = some { ts with state := .draining, owner := 5, by_ := s.me.pc.toNat }
      ∧ tileAt t c.dst = some { td with state := .filling, owner := 5, by_ := s.me.pc.toNat }
      ∧ (t.coreAt s.myCore).tencNext = (s.coreAt s.myCore).tencNext + 1
      ∧ (t.clusterAt s.myCluster).tenc = (s.clusterAt s.myCluster).tenc ++ [c] := by
  obtain ⟨hctx, hcur, hmem⟩ := s.tencEntered_frame c
  have core := s.tencEntered_core c
  rw [State.tencAtRest_fits h1 h2 h, hm] at run
  refine givesAnd_done hctx hcur (run.trans (if_neg (Nat.not_le.mpr hq))) ⟨hmem, ?_, ?_, ?_, s.tencEntered_queue c⟩
  · rw [tileAt_gave hctx hcur, core]
    exact State.takeTiles_src hne hs ..
  · rw [tileAt_gave hctx hcur, core]
    exact State.takeTiles_dst hne hd ..
  · rw [State.coreAt_gave, core]

/-! ### TWAIT, CMILE and CWAIT (R338, R362, O54) -/

theorem twait_cases (s : State) (a : BitVec 5) :
    let c := s.coreAt s.myCore
    let i := (s.rd a).toNat
    (c.tencNext ≤ i → Traps (.twait a) s .illegal (s.ir.setWidth 64) s.me.pc)
      ∧ (i < c.tencNext → i < c.tmile → exec (.twait a) s = .next s.advance)
      ∧ (i < c.tencNext → c.tmile ≤ i → Does (.twait a) s (Held s)) := by
  intro c i
  have issued (h : i < c.tencNext) : exec (.twait a) s = if i < c.tmile then .next s.advance else s.waitPoint := if_neg (Nat.not_le.mpr h)
  exact ⟨fun h => if_pos h, fun h hi => (issued h).trans (if_pos hi),
    fun h hi => does_held_waitPoint rfl rfl ((issued h).trans (if_neg (Nat.not_lt.mpr hi)))⟩

theorem cmile_gives {s : State} {d : BitVec 5} (h : s.coordDest d = false) :
    ∃ v, IsMileWord v (s.coreAt s.myCore).codeFault (s.coreAt s.myCore).cmile ∧ Gives (.cmile d) s d v :=
  ⟨_, toNat_mileWord .., if_neg (ne_true_of_eq_false h)⟩

theorem cwait_cases (s : State) (a : BitVec 5) :
    let c := s.coreAt s.myCore
    let i := (s.rd a).toNat
    (c.codeNext ≤ i → Traps (.cwait a) s .code (s.rd a) s.me.pc)
      ∧ (i < c.codeNext → c.codeFault = true → c.codeFid ≤ i → Traps (.cwait a) s .code (BitVec.ofNat 64 c.codeFid) s.me.pc)
      ∧ (i < c.codeNext → (c.codeFault = true → i < c.codeFid) → i < c.cmile → exec (.cwait a) s = .next s.advance)
      ∧ (i < c.codeNext → (c.codeFault = true → i < c.codeFid) → c.cmile ≤ i → Does (.cwait a) s (Held s)) := by
  intro c i
  have issued (h : i < c.codeNext) : exec (.cwait a) s = if c.codeFault && decide (c.codeFid ≤ i) then s.trap .code (BitVec.ofNat 64 c.codeFid)
      else if i < c.cmile then .next s.advance else s.waitPoint := if_neg (Nat.not_le.mpr h)
  have sound (hf : c.codeFault = true → i < c.codeFid) : ¬ (c.codeFault && decide (c.codeFid ≤ i)) = true := by
    rw [Bool.and_eq_true, decide_eq_true_eq]
    exact fun ⟨hc, hi⟩ => absurd (hf hc) (Nat.not_lt.mpr hi)
  refine ⟨fun h => if_pos h, fun h hf hi => (issued h).trans (if_pos ?_), fun h hf hi => ?_, fun h hf hi => ?_⟩
  · rw [hf, Bool.true_and, decide_eq_true hi]
  · exact (issued h).trans ((if_neg (sound hf)).trans (if_pos hi))
  · exact does_held_waitPoint rfl rfl ((issued h).trans ((if_neg (sound hf)).trans (if_neg (Nat.not_lt.mpr hi))))

/-! ### FHSTAT (R352, O54) -/

/-- A handle that is no longer kept, or never was. -/
theorem fhstat_unknown {s : State} {d a : BitVec 5} (hd : s.coordDest d = false)
    (h : (s.rd a).toNat + 128 < (s.coreAt s.myCore).fhNext ∨ ∀ f ∈ (s.coreAt s.myCore).fh, f.handle ≠ (s.rd a).toNat) :
    Gives (.fhstat d a) s d (status 7) := by
  have run : exec (.fhstat d a) s = _ := if_neg (ne_true_of_eq_false hd)
  have gone : (if (s.coreAt s.myCore).fhNext ≤ (s.rd a).toNat + 128 then (s.coreAt s.myCore).fh.find? fun f => f.handle == (s.rd a).toNat
      else none) = none := by
    rcases h with h | h
    · exact if_neg (Nat.not_le.mpr h)
    · rw [List.find?_eq_none.mpr fun f hf => by rw [beq_iff_eq]; exact h f hf, ite_self]
  rw [gone] at run
  exact run

theorem fhstat_known {s : State} {d a : BitVec 5} {f : FhItem} (hd : s.coordDest d = false)
    (h : (s.coreAt s.myCore).fhNext ≤ (s.rd a).toNat + 128)
    (hf : (s.coreAt s.myCore).fh.find? (fun f => f.handle == (s.rd a).toNat) = some f) : Gives (.fhstat d a) s d f.word := by
  have run : exec (.fhstat d a) s = _ := if_neg (ne_true_of_eq_false hd)
  rw [if_pos h, hf] at run
  exact run

theorem FhState.number_le (x : FhState) : x.number ≤ 6 := by cases x <;> decide

theorem FhItem.toNat_word (f : FhItem) : f.word.toNat = f.state.number * 2 ^ 60 + f.late.toNat * 2 ^ 59 + f.count % 2 ^ 32 := by
  have late : (if f.late then 2 ^ 59 else 0) = f.late.toNat * 2 ^ 59 := by cases f.late <;> rfl
  have small := f.state.number_le
  have bit := f.late.toNat_le
  rw [FhItem.word, BitVec.toNat_ofNat, late]
  omega

/-- The fields of a status word (R352). -/
theorem FhItem.word_fields (f : FhItem) : fieldOf f.word 60 3 = f.state.number ∧ f.word.getLsbD 63 = false ∧ f.word.getLsbD 59 = f.late
    ∧ fieldOf f.word 32 27 = 0 ∧ fieldOf f.word 0 32 = f.count % 2 ^ 32 := by
  have small := f.state.number_le
  have bit := f.late.toNat_le
  have late : f.late = decide (f.late.toNat = 1) := by cases f.late <;> rfl
  unfold fieldOf BitVec.getLsbD
  rw [f.toNat_word, Nat.testBit_eq_decide_div_mod_eq, Nat.testBit_eq_decide_div_mod_eq, decide_eq_false_iff_not]
  refine ⟨by omega, by omega, ?_, by omega, by omega⟩
  rw [show (f.state.number * 2 ^ 60 + f.late.toNat * 2 ^ 59 + f.count % 2 ^ 32) / 2 ^ 59 % 2 = f.late.toNat by omega]
  exact late.symm


/-! ### What a request that issues leaves unchanged (R24, R194, O54) -/

theorem Outward.cur {s t : State} (h : Outward s t) : t.cur = s.cur := by obtain ⟨_, _, _, _, _, _, rfl⟩ := h.parts; rfl

theorem Outward.ctxAt {s t : State} (h : Outward s t) (k : Nat) : t.ctxAt k = s.ctxAt k := by rw [State.ctxAt, State.ctxAt, h.ctx]

theorem Outward.me {s t : State} (h : Outward s t) : t.me = s.me := by rw [State.me, State.me, h.cur, h.ctxAt]

theorem Outward.myCore {s t : State} (h : Outward s t) : t.myCore = s.myCore := by rw [State.myCore, State.myCore, h.me]

theorem Outward.tileAt {s t : State} (h : Outward s t) (id : Nat) : tileAt t id = Claims.tileAt s id := by
  rw [Claims.tileAt, Claims.tileAt, h.myCore, h.tiles]

theorem Outward.myTile {s t : State} (h : Outward s t) (id : Nat) : myTile t id = Claims.myTile s id := by
  rw [Claims.myTile, Claims.myTile, State.tile?, State.tile?, h.me, h.myCore, h.tiles]

theorem Outward.anyVectorMemory {s t : State} (h : Outward s t) : t.anyVectorMemory = s.anyVectorMemory := by
  rw [State.anyVectorMemory, State.anyVectorMemory, h.me]

theorem OnlyTranslated.rootOf {s t : State} (h : OnlyTranslated s t) (k : Nat) : t.rootOf k = s.rootOf k := by
  rw [State.rootOf, State.rootOf, h.regs _ 0x807 (by decide), h.ctxAt]

/-! ### CSUB (R361, O54) -/

/-- The request that reading a block gives is fixed by the strand and the words read. -/
theorem State.codeReq_eq {s s1 : State} (h : OnlyTranslated s s1) {p : Place} {r : CodeReq} (hk : r.key = s.cur) (hc : r.core = s.myCore)
    (hj : r.job = s.me.job) (hr : r.root = s.rootOf s.cur) (hi : r.id = (s.coreAt s.myCore).codeNext) (hs : r.started = false)
    (hw : r.words = (List.range 8).map fun j => s1.read64 (p.loc + 8 * j)) : s1.codeReq p = r := by
  have out := Outward.of_translated h
  have next : (s1.coreAt s.myCore).codeNext = (s.coreAt s.myCore).codeNext := out.field Core.codeNext (fun _ _ _ _ _ _ => rfl) s.myCore
  rw [State.codeReq, h.cur, h.me, h.rootOf, out.myCore, next, ← hw, ← hi, ← hr, ← hk, ← hj, ← hc, ← hs]

/-- The state in which a coding request has sent for its block. -/
def State.blockAsked (s1 : State) (p : Place) (r : CodeReq) : State := s1.requestLines r.core (some s1.cur) false [(p, 64)]

/-- What CSUB does with the tiles of its request. -/
def State.csubWith (u : State) (d : BitVec 5) (y : Nat) (r : CodeReq) (ti tout : Tile) : Res :=
  if ti.state = .empty then u.trap .tileEmpty 0
  else if ti.busy then u.waitTile ti
  else if tout.busy then u.waitTile tout
  else if !r.valid ∨ r.tin = r.tout ∨ ti.len < r.inOff + r.inBytes ∨ tout.len < r.outOff + r.outBytes then u.done d (status 6)
  else if 64 ≤ (Sparse.get [] u.coding y).length then u.waitPoint
  else u.enterCode d y r

theorem csub_error {s : State} {d a b : BitVec 5} {c : Cause} (hd : s.coordDest d = false) (h : s.request (ea (s.rd a)) 64 64 .read = .error c) :
    Traps (.csub d a b) s c (BitVec.ofNat 64 (ea (s.rd a))) s.me.pc := by
  have run : exec (.csub d a b) s = _ := if_neg (ne_true_of_eq_false hd)
  rw [h] at run
  exact traps_trapAt run

theorem csub_ordered {s s1 : State} {d a b : BitVec 5} {p : Place} (hd : s.coordDest d = false)
    (h : s.request (ea (s.rd a)) 64 64 .read = .ok (p, s1)) (hm : s.anyVectorMemory ≠ none) : Does (.csub d a b) s (Held s) := by
  have out := Outward.of_translated (State.request_frame h)
  have run : exec (.csub d a b) s = _ := if_neg (ne_true_of_eq_false hd)
  obtain ⟨e, he⟩ := Option.ne_none_iff_exists'.mp (out.anyVectorMemory.trans_ne hm)
  rw [h] at run
  dsimp only at run
  rw [he] at run
  exact does_held_waitOn out.ctx out.cur run

theorem State.blockAsked_outward {s s1 : State} (h : OnlyTranslated s s1) (p : Place) (r : CodeReq) : Outward s (s1.blockAsked p r) :=
  (Outward.of_translated h).trans (OnlyAsked.of_requestLines ..).toOutward

section
variable {s s1 : State} {d a b : BitVec 5} {p : Place} {r : CodeReq} (hd : s.coordDest d = false)
  (h : s.request (ea (s.rd a)) 64 64 .read = .ok (p, s1)) (hm : s.anyVectorMemory = none) (hr : s1.codeReq p = r) (hc : r.core = s.myCore)
  (hj : r.job = s.me.job)
include hd h hm hr hc hj

/-- A CSUB whose block has been read goes on with the request it describes. -/
theorem csub_asked : exec (.csub d a b) s = match myTile s r.tin, myTile s r.tout with
    | some ti, some tout => (s1.blockAsked p r).csubWith d ((s.rd b).toNat % 16) r ti tout
    | _, _ => (s1.blockAsked p r).trap .tileEmpty 0 := by
  have only := State.request_frame h
  have out := State.blockAsked_outward only p r
  have rdb : (s1.blockAsked p r).rd b = s.rd b := by rw [State.rd, State.rd, out.me]
  have tile (id : Nat) : myTile s id = (s1.blockAsked p r).tile? r.core id r.job := by
    rw [← out.myTile, myTile, out.myCore, out.me, hc, hj]
  have run : exec (.csub d a b) s = _ := if_neg (ne_true_of_eq_false hd)
  rw [h] at run
  dsimp only at run
  rw [(Outward.of_translated only).anyVectorMemory, hm, hr] at run
  rw [← rdb, tile, tile]
  exact run

/-- A CSUB whose job has both tiles. -/
theorem csub_with {ti tout : Tile} (hi : myTile s r.tin = some ti) (ho : myTile s r.tout = some tout) :
    exec (.csub d a b) s = (s1.blockAsked p r).csubWith d ((s.rd b).toNat % 16) r ti tout := by
  have run := csub_asked (b := b) hd h hm hr hc hj
  rw [hi, ho] at run
  exact run

/-- A CSUB that finds its input tile EMPTY, or lacks a tile. -/
theorem csub_without (hn : ∀ ti tout, myTile s r.tin = some ti → myTile s r.tout = some tout → ti.state = .empty) :
    exec (.csub d a b) s = (s1.blockAsked p r).trap .tileEmpty 0 := by
  have run := csub_asked (b := b) hd h hm hr hc hj
  cases hi : myTile s r.tin with
  | none =>
    rw [hi] at run
    exact run
  | some ti =>
    cases ho : myTile s r.tout with
    | none =>
      rw [hi, ho] at run
      exact run
    | some tout => exact (csub_with hd h hm hr hc hj hi ho).trans (if_pos (hn ti tout hi ho))

end

/-- What a coding request needs of its block and its tiles (R355, R361). -/
def CodeReq.Fits (r : CodeReq) (ti tout : Tile) : Prop :=
  r.valid = true ∧ r.tin ≠ r.tout ∧ r.inOff + r.inBytes ≤ ti.len ∧ r.outOff + r.outBytes ≤ tout.len

theorem CodeReq.refused_iff (r : CodeReq) (ti tout : Tile) :
    (!r.valid ∨ r.tin = r.tout ∨ ti.len < r.inOff + r.inBytes ∨ tout.len < r.outOff + r.outBytes) ↔ ¬ r.Fits ti tout := by
  simp only [CodeReq.Fits, not_and_or, Bool.not_eq_true', Bool.not_eq_true, not_not, Nat.not_le, ne_eq]

/-- Tiles at work hold a CSUB. -/
theorem State.csubWith_busy {u s : State} {i : Instr} {d : BitVec 5} {y : Nat} {r : CodeReq} {ti tout : Tile} (out : Outward s u)
    (run : exec i s = u.csubWith d y r ti tout) (hi : ti.state ≠ .empty) (hb : Busy ti ∨ Busy tout) : Does i s (Held s) := by
  have run := run.trans (if_neg hi)
  by_cases h : ti.busy = true
  · exact does_held_waitTile out.ctx out.cur (run.trans (if_pos h))
  · have other : tout.busy = true := tout.busy_iff.mpr (hb.resolve_left fun g => h (ti.busy_iff.mpr g))
    exact does_held_waitTile out.ctx out.cur ((run.trans (if_neg h)).trans (if_pos other))

section
variable (u : State) (d : BitVec 5) (y : Nat) {r : CodeReq} {ti tout : Tile} (hi : ti.state ≠ .empty) (h : ¬ Busy ti) (g : ¬ Busy tout)
include hi h g

/-- Tiles not at work let a CSUB go on to its checks. -/
theorem State.csubWith_idle : u.csubWith d y r ti tout =
    if !r.valid ∨ r.tin = r.tout ∨ ti.len < r.inOff + r.inBytes ∨ tout.len < r.outOff + r.outBytes then u.done d (status 6)
    else if 64 ≤ (Sparse.get [] u.coding y).length then u.waitPoint else u.enterCode d y r :=
  (if_neg hi).trans ((if_neg fun b => h (ti.busy_iff.mp b)).trans (if_neg fun b => g (tout.busy_iff.mp b)))

theorem State.csubWith_refused (hf : ¬ r.Fits ti tout) : u.csubWith d y r ti tout = u.done d (status 6) :=
  (u.csubWith_idle d y hi h g).trans (if_pos ((r.refused_iff ti tout).mpr hf))

theorem State.csubWith_full (hf : r.Fits ti tout) (hq : 64 ≤ (Sparse.get [] u.coding y).length) : u.csubWith d y r ti tout = u.waitPoint :=
  (u.csubWith_idle d y hi h g).trans ((if_neg fun b => (r.refused_iff ti tout).mp b hf).trans (if_pos hq))

theorem State.csubWith_enters (hf : r.Fits ti tout) (hq : (Sparse.get [] u.coding y).length < 64) :
    u.csubWith d y r ti tout = u.enterCode d y r :=
  (u.csubWith_idle d y hi h g).trans ((if_neg fun b => (r.refused_iff ti tout).mp b hf).trans (if_neg (Nat.not_le.mpr hq)))

end

/-- A request's id is issued, and open. -/
def Core.codeIssued (c : Core) (r : CodeReq) : Core := { c with codeNext := c.codeNext + 1, codeOpen := c.codeOpen ++ [r.id] }

/-- The state in which a coding request has taken its tiles and entered an engine's queue. -/
def State.codeQueued (u : State) (y : Nat) (r : CodeReq) : State :=
  let s3 := (u.takeTiles r.core r.tin r.tout 4 u.me.pc.toNat).onCore r.core (·.codeIssued r)
  { s3 with coding := Sparse.put s3.coding y (Sparse.get [] s3.coding y ++ [r]) }

/-- The state in which its engine has been sent the command too. -/
def State.codeEntered (u : State) (y : Nat) (r : CodeReq) : State := (u.codeQueued y r).command r.core (codingStop y)

theorem State.enterCode_eq (u : State) (d : BitVec 5) (y : Nat) (r : CodeReq) :
    u.enterCode d y r = (u.codeEntered y r).done d (BitVec.ofNat 64 r.id) := rfl

theorem State.codeEntered_asked (u : State) (y : Nat) (r : CodeReq) : OnlyAsked (u.codeQueued y r) (u.codeEntered y r) := OnlyAsked.of_sendFree ..

theorem State.codeQueued_frame (u : State) (y : Nat) (r : CodeReq) : (u.codeQueued y r).ctx = u.ctx ∧ (u.codeQueued y r).cur = u.cur
    ∧ (u.codeQueued y r).mem = u.mem ∧ Sparse.get [] (u.codeQueued y r).coding y = Sparse.get [] u.coding y ++ [r] := by
  obtain ⟨core, h⟩ := (u.takeTiles_core r.core r.tin r.tout 4 u.me.pc.toNat).1
  rw [State.codeQueued, h]
  exact ⟨rfl, rfl, rfl, (Sparse.get_put ..).trans (if_pos rfl)⟩

theorem State.codeQueued_core (u : State) (y : Nat) (r : CodeReq) (m : Nat) : (u.codeQueued y r).coreAt m =
    if m = r.core then ((u.takeTiles r.core r.tin r.tout 4 u.me.pc.toNat).coreAt r.core).codeIssued r
    else (u.takeTiles r.core r.tin r.tout 4 u.me.pc.toNat).coreAt m :=
  State.coreAt_onCore (u.takeTiles r.core r.tin r.tout 4 u.me.pc.toNat) r.core (·.codeIssued r) m

theorem State.codeQueued_unsampled {u : State} (q : Unsampled u) (y : Nat) (r : CodeReq) : Unsampled (u.codeQueued y r) := by
  refine unsampled_congr q fun m => ?_
  have cr (n : Nat) : ((u.takeTiles r.core r.tin r.tout 4 u.me.pc.toNat).coreAt n).cr = (u.coreAt n).cr := by
    obtain ⟨ts, h⟩ := (u.takeTiles_core r.core r.tin r.tout 4 u.me.pc.toNat).2 n
    rw [h]
  rw [State.codeQueued_core]
  split
  · next h => rw [h]; exact cr r.core
  · exact cr m

/-- What a CSUB whose request fits leaves: the request at the end of its engine's queue and its tiles taken. -/
theorem csub_gives {u s : State} {i : Instr} {d : BitVec 5} {y : Nat} {r : CodeReq} {ti tout : Tile} (out : Outward s u)
    (run : exec i s = u.enterCode d y r) (hc : r.core = s.myCore) (hne : r.tin ≠ r.tout) (hi : tileAt s r.tin = some ti)
    (ho : tileAt s r.tout = some tout) :
    GivesAnd i s d (BitVec.ofNat 64 r.id) fun t => (Unsampled u → t.mem = u.mem) ∧ Sparse.get [] t.coding y = Sparse.get [] s.coding y ++ [r]
      ∧ (t.coreAt s.myCore).codeNext = (s.coreAt s.myCore).codeNext + 1
      ∧ tileAt t r.tin = some { ti with state := .draining, owner := 4, by_ := s.me.pc.toNat }
      ∧ tileAt t r.tout = some { tout with state := .filling, owner := 4, by_ := s.me.pc.toNat } := by
  obtain ⟨hctx, hcur, hmem, hqueue⟩ := u.codeQueued_frame y r
  obtain ⟨ts, taken⟩ := (u.takeTiles_core r.core r.tin r.tout 4 u.me.pc.toNat).2 r.core
  have asked := u.codeEntered_asked y r
  have ctx := asked.ctx.trans (hctx.trans out.ctx)
  have cur := asked.cur.trans (hcur.trans out.cur)
  have core := u.codeQueued_core y r s.myCore
  rw [if_pos hc.symm] at core
  rw [State.enterCode_eq] at run
  refine givesAnd_done ctx cur run ⟨fun q => (asked.mem (State.codeQueued_unsampled q y r)).trans hmem, ?_, ?_, ?_, ?_⟩
  · exact (congrArg (Sparse.get [] · y) asked.coding).trans (hqueue.trans (by rw [out.coding]))
  · rw [State.coreAt_gave, asked.field Core.codeNext (fun _ _ _ _ _ _ => rfl), core, taken, hc]
    exact congrArg (· + 1) (out.field Core.codeNext (fun _ _ _ _ _ _ => rfl) s.myCore)
  · rw [tileAt_gave ctx cur, asked.tiles, core, ← out.me]
    exact State.takeTiles_src hne (by rw [out.tiles, hc]; exact hi) ..
  · rw [tileAt_gave ctx cur, asked.tiles, core, ← out.me]
    exact State.takeTiles_dst hne (by rw [out.tiles, hc]; exact ho) ..

/-! ### FHARM and FHSEND (R351, O54) -/

/-- The instruction of a window, or of a send. -/
def fhInstr (isSend : Bool) (d a b : BitVec 5) : Instr := if isSend then .fhsend d a b else .fharm d a b

theorem exec_fhInstr (isSend : Bool) (d a b : BitVec 5) (s : State) : exec (fhInstr isSend d a b) s = s.fh isSend d a b := by
  cases isSend <;> rfl

/-- What FHARM and FHSEND do with the tile they name. -/
def State.fhWith (s : State) (isSend : Bool) (d a b : BitVec 5) (t : Tile) : Res :=
  match s.request (ea (s.rd a)) 8 32 .read with
  | .error c => s.trapAt c (ea (s.rd a))
  | .ok (p, s1) =>
    if t.busy then s1.waitTile t
    else
      match s1.anyVectorMemory with
      | some e => s1.waitOn e.pc.toNat
      | none =>
        let r := s1.fhRecord p isSend ((s.rd b).toNat % 64)
        let s2 := s1.requestLines r.core (some s1.cur) false [(p, 32)]
        if !r.valid ∨ !(s1.fhConfigured r.fields) ∨ !(s1.fhFits r t) then s2.done d (status 6)
        else if 64 ≤ s1.portUse r.fields.port isSend then s2.done d (status 2)
        else s2.enterFh d r

section
variable {s : State} {isSend : Bool} {d a b : BitVec 5} (hd : s.coordDest d = false)
include hd

theorem fh_empty (h : ∀ tl, myTile s ((s.rd b).toNat % 64) = some tl → tl.state = .empty) : s.fh isSend d a b = s.trap .tileEmpty 0 := by
  have run : s.fh isSend d a b = _ := if_neg (ne_true_of_eq_false hd)
  cases ht : myTile s ((s.rd b).toNat % 64) with
  | none =>
    rw [show s.tile? s.myCore ((s.rd b).toNat % 64) s.me.job = none from ht] at run
    exact run
  | some tl =>
    rw [show s.tile? s.myCore ((s.rd b).toNat % 64) s.me.job = some tl from ht] at run
    exact run.trans (if_pos (h tl ht))

theorem fh_with {tl : Tile} (ht : myTile s ((s.rd b).toNat % 64) = some tl) (he : tl.state ≠ .empty) :
    s.fh isSend d a b = s.fhWith isSend d a b tl := by
  have run : s.fh isSend d a b = _ := if_neg (ne_true_of_eq_false hd)
  rw [show s.tile? s.myCore ((s.rd b).toNat % 64) s.me.job = some tl from ht] at run
  exact run.trans (if_neg he)

end

theorem State.fhWith_error {s : State} {a : BitVec 5} {c : Cause} (h : s.request (ea (s.rd a)) 8 32 .read = .error c) (isSend : Bool)
    (d b : BitVec 5) (tl : Tile) : s.fhWith isSend d a b tl = s.trapAt c (ea (s.rd a)) := by
  rw [State.fhWith, h]

/-- The state in which a window or send has sent for its record. -/
def State.recordAsked (s1 : State) (p : Place) (r : FhItem) : State := s1.requestLines r.core (some s1.cur) false [(p, 32)]

/-- What a record needs of its fields, its port and its tile (R345, R351, R420). -/
def State.FhGood (s1 : State) (r : FhItem) (tl : Tile) : Prop := r.valid = true ∧ s1.fhConfigured r.fields = true ∧ s1.fhFits r tl = true

theorem State.fhGood_iff (s1 : State) (r : FhItem) (tl : Tile) :
    (!r.valid ∨ !(s1.fhConfigured r.fields) ∨ !(s1.fhFits r tl)) ↔ ¬ s1.FhGood r tl := by
  simp only [State.FhGood, not_and_or, Bool.not_eq_true', Bool.not_eq_true]

section
variable {s s1 : State} {isSend : Bool} {d a b : BitVec 5} {p : Place} {tl : Tile} (h : s.request (ea (s.rd a)) 8 32 .read = .ok (p, s1))
include h

theorem State.fhWith_held {i : Instr} (run : exec i s = s.fhWith isSend d a b tl) (hw : Busy tl ∨ s.anyVectorMemory ≠ none) :
    Does i s (Held s) := by
  have out := Outward.of_translated (State.request_frame h)
  rw [State.fhWith, h] at run
  dsimp only at run
  by_cases hb : tl.busy = true
  · exact does_held_waitTile out.ctx out.cur (run.trans (if_pos hb))
  · obtain ⟨e, he⟩ := Option.ne_none_iff_exists'.mp (hw.resolve_left fun g => hb (tl.busy_iff.mpr g))
    have run := run.trans (if_neg hb)
    rw [out.anyVectorMemory, he] at run
    exact does_held_waitOn out.ctx out.cur run

variable {r : FhItem} (rest : AtRest tl) (hm : s.anyVectorMemory = none) (hr : s1.fhRecord p isSend ((s.rd b).toNat % 64) = r)
include rest hm hr

/-- A tile at rest and no queued vector access let the instruction go on to the checks of its record. -/
theorem State.fhWith_rest :
    s.fhWith isSend d a b tl = if !r.valid ∨ !(s1.fhConfigured r.fields) ∨ !(s1.fhFits r tl) then (s1.recordAsked p r).done d (status 6)
      else if 64 ≤ s1.portUse r.fields.port isSend then (s1.recordAsked p r).done d (status 2)
      else (s1.recordAsked p r).enterFh d r := by
  rw [State.fhWith, h]
  refine (if_neg fun g => not_busy_of_atRest rest (tl.busy_iff.mp g)).trans ?_
  rw [(Outward.of_translated (State.request_frame h)).anyVectorMemory, hm, ← hr]
  rfl

theorem State.fhWith_refused (hg : ¬ s1.FhGood r tl) : s.fhWith isSend d a b tl = (s1.recordAsked p r).done d (status 6) :=
  (State.fhWith_rest h rest hm hr).trans (if_pos ((s1.fhGood_iff r tl).mpr hg))

theorem State.fhWith_full (hg : s1.FhGood r tl) (hf : 64 ≤ s1.portUse r.fields.port isSend) :
    s.fhWith isSend d a b tl = (s1.recordAsked p r).done d (status 2) :=
  (State.fhWith_rest h rest hm hr).trans ((if_neg fun g => (s1.fhGood_iff r tl).mp g hg).trans (if_pos hf))

theorem State.fhWith_enters (hg : s1.FhGood r tl) (hf : s1.portUse r.fields.port isSend < 64) :
    s.fhWith isSend d a b tl = (s1.recordAsked p r).enterFh d r :=
  (State.fhWith_rest h rest hm hr).trans ((if_neg fun g => (s1.fhGood_iff r tl).mp g hg).trans (if_neg (Nat.not_le.mpr hf)))

end

theorem State.recordAsked_outward {s s1 : State} (h : OnlyTranslated s s1) (p : Place) (r : FhItem) : Outward s (s1.recordAsked p r) :=
  (Outward.of_translated h).trans (OnlyAsked.of_requestLines ..).toOutward

/-- An instruction that only reaches out and gives d a value leaves the tiles. -/
theorem givesAnd_tile {i : Instr} {s u : State} {d : BitVec 5} {v : W64} {id : Nat} {tl : Tile} (out : Outward s u) (run : exec i s = u.done d v)
    (ht : tileAt s id = some tl) : GivesAnd i s d v fun t => tileAt t id = some tl :=
  givesAnd_done out.ctx out.cur run (by rw [tileAt_gave out.ctx out.cur, out.tiles]; exact ht)

/-- The record of a window or send is fixed by the strand and the words read. -/
theorem State.fhRecord_eq {s s1 : State} (h : OnlyTranslated s s1) (p : Place) (isSend : Bool) (id : Nat) : s1.fhRecord p isSend id =
    { core := s.myCore, key := s.cur, job := s.me.job, handle := (s.coreAt s.myCore).fhNext, isSend := isSend, tile := id, order := s.dev.fhOrder
      words := (List.range 4).map fun j => s1.read64 (p.loc + 8 * j), state := if isSend then .queued else .armed } := by
  have out := Outward.of_translated h
  have next : (s1.coreAt s.myCore).fhNext = (s.coreAt s.myCore).fhNext := out.field Core.fhNext (fun _ _ _ _ _ _ => rfl) s.myCore
  rw [State.fhRecord, h.cur, h.me, h.dev, out.myCore, next]

/-- The tile of a window or send, taken. -/
def FhItem.takenTile (r : FhItem) (tl : Tile) (pc : Nat) : Tile :=
  { tl with state := if r.isSend then .draining else .filling, owner := 2, arr := if r.isSend then tl.arr else 0, by_ := pc }

/-- A handle is issued, and its window or send kept. -/
def Core.fhIssued (c : Core) (r : FhItem) : Core := { c with fhNext := c.fhNext + 1, fh := c.fh ++ [r] }

/-- The state in which a window or send has taken its tile and is kept by its core. -/
def State.fhKept (u : State) (r : FhItem) : State :=
  let s2 := (u.onTile r.core r.tile fun t => r.takenTile t u.me.pc.toNat).onCore r.core (·.fhIssued r)
  { s2 with dev := { s2.dev with fhOrder := s2.dev.fhOrder + 1 } }

/-- The state in which its port has been sent the command too. -/
def State.fhEntered (u : State) (r : FhItem) : State := (u.fhKept r).command r.core (portStop r.fields.port)

theorem State.enterFh_eq (u : State) (d : BitVec 5) (r : FhItem) : u.enterFh d r = (u.fhEntered r).done d (BitVec.ofNat 64 r.handle) := by
  have taken (t : Tile) : (if r.isSend then { t.take .draining 2 with by_ := u.me.pc.toNat }
      else { t.take .filling 2 with arr := 0, by_ := u.me.pc.toNat }) = r.takenTile t u.me.pc.toNat := by
    unfold FhItem.takenTile
    cases r.isSend <;> rfl
  rw [State.enterFh]
  simp only [taken]
  rfl

theorem State.fhEntered_asked (u : State) (r : FhItem) : OnlyAsked (u.fhKept r) (u.fhEntered r) := OnlyAsked.of_sendFree ..

theorem State.fhKept_frame (u : State) (r : FhItem) : (u.fhKept r).ctx = u.ctx ∧ (u.fhKept r).cur = u.cur ∧ (u.fhKept r).mem = u.mem
    ∧ (u.fhKept r).dev.fhOrder = u.dev.fhOrder + 1 := by
  obtain ⟨core, h⟩ := (u.onTile_core r.core r.tile fun t => r.takenTile t u.me.pc.toNat).1
  rw [State.fhKept, h]
  exact ⟨rfl, rfl, rfl, rfl⟩

theorem State.fhKept_core (u : State) (r : FhItem) (m : Nat) : (u.fhKept r).coreAt m =
    if m = r.core then ((u.onTile r.core r.tile fun t => r.takenTile t u.me.pc.toNat).coreAt r.core).fhIssued r
    else (u.onTile r.core r.tile fun t => r.takenTile t u.me.pc.toNat).coreAt m :=
  State.coreAt_onCore (u.onTile r.core r.tile fun t => r.takenTile t u.me.pc.toNat) r.core (·.fhIssued r) m

theorem State.fhKept_unsampled {u : State} (q : Unsampled u) (r : FhItem) : Unsampled (u.fhKept r) := by
  refine unsampled_congr q fun m => ?_
  have cr (n : Nat) : ((u.onTile r.core r.tile fun t => r.takenTile t u.me.pc.toNat).coreAt n).cr = (u.coreAt n).cr :=
    State.onTile_field Core.cr (fun _ _ => rfl) ..
  rw [State.fhKept_core]
  split
  · next h => rw [h]; exact cr r.core
  · exact cr m

/-- What an FHARM or FHSEND whose record is good leaves: its window or send kept, and its tile taken. -/
theorem fh_gives {u s : State} {i : Instr} {d : BitVec 5} {r : FhItem} {tl : Tile} (out : Outward s u)
    (run : exec i s = u.enterFh d r) (hc : r.core = s.myCore) (ht : tileAt s r.tile = some tl) :
    GivesAnd i s d (BitVec.ofNat 64 r.handle) fun t => (Unsampled u → t.mem = u.mem)
      ∧ (t.coreAt s.myCore).fh = (s.coreAt s.myCore).fh ++ [r] ∧ (t.coreAt s.myCore).fhNext = (s.coreAt s.myCore).fhNext + 1
      ∧ t.dev.fhOrder = s.dev.fhOrder + 1 ∧ tileAt t r.tile = some (r.takenTile tl s.me.pc.toNat) := by
  obtain ⟨hctx, hcur, hmem, horder⟩ := u.fhKept_frame r
  obtain ⟨ts, taken⟩ := (u.onTile_core r.core r.tile fun t => r.takenTile t u.me.pc.toNat).2 r.core
  have asked := u.fhEntered_asked r
  have ctx := asked.ctx.trans (hctx.trans out.ctx)
  have cur := asked.cur.trans (hcur.trans out.cur)
  have core := u.fhKept_core r s.myCore
  rw [if_pos hc.symm] at core
  rw [State.enterFh_eq] at run
  refine givesAnd_done ctx cur run ⟨fun q => (asked.mem (State.fhKept_unsampled q r)).trans hmem, ?_, ?_, ?_, ?_⟩
  · rw [State.coreAt_gave, asked.field Core.fh (fun _ _ _ _ _ _ => rfl), core, taken, hc]
    exact congrArg (· ++ [r]) (out.field Core.fh (fun _ _ _ _ _ _ => rfl) s.myCore)
  · rw [State.coreAt_gave, asked.field Core.fhNext (fun _ _ _ _ _ _ => rfl), core, taken, hc]
    exact congrArg (· + 1) (out.field Core.fhNext (fun _ _ _ _ _ _ => rfl) s.myCore)
  · exact (congrArg (·.fhOrder) asked.dev).trans (horder.trans (by rw [out.dev]))
  · rw [tileAt_gave ctx cur, asked.tiles, core, ← out.me]
    refine (State.tiles_onTile ..).trans ((if_pos ⟨rfl, rfl⟩).trans ?_)
    rw [out.tiles, hc, show Sparse.get none (s.coreAt s.myCore).tiles r.tile = some tl from ht]
    rfl

/-- Reading a record or a block changes memory only where the translation does, while no core samples. -/
theorem unsampled_asked {s s1 u : State} (h : OnlyTranslated s s1) (g : OnlyAsked s1 u) (q : Unsampled s) : Unsampled u ∧ u.mem = s1.mem :=
  ⟨g.unsampled (h.unsampled q), g.mem (h.unsampled q)⟩

end Sys2Proof.Machine

open Sys2Proof Sys2Proof.Machine Sys2Proof.Claims

/-- Settles O54: the requests to the engines, form by form. -/
theorem engineRequests : Obligations.EngineRequests := by
  unfold Obligations.EngineRequests
  intro s d a b
  refine ⟨⟨tenc_illegal, tenc_without, fun ts td ok hs hd es ed => ?tenc⟩, ?waits, ⟨fun h => if_pos h, fun hd c hc => csub_error hd hc,
    fun p s1 r hd hp hk hc hj hroot hi hst hw => ?csub⟩, fun isSend i hi => ?fh,
    fun h => if_pos h, fun hd h => fhstat_unknown hd h, fun hd hn f hf => ?fhstat⟩
  case tenc =>
    have run := tenc_with ok hs hd
    refine ⟨fun h => State.tencWith_busy es ed h run, fun rs rd => ?_⟩
    have run := run.trans (State.tencWith_rest rs rd d _)
    refine ⟨fun h => run.trans (State.tencAtRest_misaligned h d ts td),
      fun h1 h2 h => run.trans (State.tencAtRest_outside (c := s.tencCmd d a b) h1 h2 h d),
      fun h1 h2 h => State.tencAtRest_held (c := s.tencCmd d a b) h1 h2 h run,
      fun h1 h2 h hm hq => ?_⟩
    obtain ⟨t, step, me, others, mem, src, dst, next, queue⟩ := tenc_gives (c := s.tencCmd d a b) h1 h2 h run hm hq
      (fun g => ok (.inr (.inr (.inr g)))) (tileAt_of_myTile hs) (tileAt_of_myTile hd)
    exact ⟨t, step, me, others, mem, src, dst, next, _, queue, rfl, rfl, rfl, rfl, rfl, rfl, rfl, rfl, rfl, rfl, rfl, rfl, rfl, rfl⟩
  case waits =>
    obtain ⟨t1, t2, t3⟩ := twait_cases s a
    exact ⟨t1, t2, t3, cmile_gives, cwait_cases s a⟩
  case csub =>
    have only := State.request_frame hp
    have hr := State.codeReq_eq only hk hc hj hroot hi hst hw
    have out := State.blockAsked_outward only p r
    have asked : Unsampled s → Unsampled (s1.blockAsked p r) ∧ (s1.blockAsked p r).mem = s1.mem :=
      unsampled_asked only (OnlyAsked.of_requestLines ..)
    refine ⟨csub_ordered hd hp, fun hm => ⟨fun hn => ?_, fun ti tout hti hto hne => ?_⟩⟩
    · have run := csub_without (b := b) hd hp hm hr hc hj hn
      rw [State.trap, out.cur, out.me] at run
      exact ⟨_, run, fun q => (asked q).2, out.ctxAt⟩
    · have run := csub_with (b := b) hd hp hm hr hc hj hti hto
      have queue : Sparse.get [] (s1.blockAsked p r).coding ((s.rd b).toNat % 16) = Sparse.get [] s.coding ((s.rd b).toNat % 16) := by
        rw [out.coding]
      refine ⟨State.csubWith_busy out run hne, fun bi bo hf => ?_, fun bi bo hf hq => ?_, fun bi bo hf hq => ?_⟩
      · exact givesAnd_done out.ctx out.cur (run.trans (State.csubWith_refused _ d _ hne bi bo hf)) queue
      · exact does_held_waitPoint out.ctx out.cur (run.trans (State.csubWith_full _ d _ hne bi bo hf (by rw [queue]; exact hq)))
      · have run := run.trans (State.csubWith_enters _ d _ hne bi bo hf (by rw [queue]; exact hq))
        obtain ⟨t, step, me, others, mem, rest⟩ := csub_gives out run hc hf.2.1 (tileAt_of_myTile hti) (tileAt_of_myTile hto)
        rw [← hi]
        exact ⟨t, step, me, others, fun q => (mem (asked q).1).trans (asked q).2, hi ▸ rest⟩
  case fh =>
    have meaning : exec i s = s.fh isSend d a b := by rw [hi]; exact exec_fhInstr ..
    refine ⟨fun h => meaning.trans (if_pos h), fun hd h => meaning.trans (fh_empty hd h), fun tl hd ht he => ?_⟩
    have run := meaning.trans (fh_with hd ht he)
    refine ⟨fun c hc => traps_trapAt (run.trans (State.fhWith_error hc isSend d b tl)), fun p s1 r hp hr => ?_⟩
    have only := State.request_frame hp
    have out := State.recordAsked_outward only p r
    have asked : Unsampled s → Unsampled (s1.recordAsked p r) ∧ (s1.recordAsked p r).mem = s1.mem :=
      unsampled_asked only (OnlyAsked.of_requestLines ..)
    refine ⟨State.fhWith_held hp run, fun rest hm => ?_⟩
    have record := (State.fhRecord_eq only p isSend _).trans hr.symm
    refine ⟨fun hg => givesAnd_tile out (run.trans (State.fhWith_refused hp rest hm record hg)) (tileAt_of_myTile ht),
      fun hg hf => givesAnd_tile out (run.trans (State.fhWith_full hp rest hm record hg hf)) (tileAt_of_myTile ht), fun hg hf => ?_⟩
    have run := run.trans (State.fhWith_enters hp rest hm record hg hf)
    subst hr
    obtain ⟨t, step, me, others, mem, rest⟩ := fh_gives out run rfl (tileAt_of_myTile ht)
    exact ⟨t, step, me, others, fun q => (mem (asked q).1).trans (asked q).2, rest⟩
  case fhstat =>
    obtain ⟨h1, h2, h3, h4, h5⟩ := f.word_fields
    exact ⟨_, fhstat_known hd hn hf, h1, h2, h3, h4, h5⟩

end

section
namespace Sys2Proof.Machine
open Sys2Proof.Claims

/-! ### Reductions of integer elements (R54, R288, O43) -/

theorem typeWidth_mem (t : Nat) : typeWidth t ∈ [2, 4, 8, 16, 32, 64] := by
  unfold typeWidth
  split <;> decide

theorem typeWidth_pos (t : Nat) : 0 < typeWidth t := by
  unfold typeWidth
  split <;> decide

theorem truncInt_eq_wrapTo (x : Int) (w : Nat) : truncInt x w = wrapTo w x := by
  rw [truncInt, wrapTo, Nat.cast_pow]
  rfl

theorem truncInt_lt (x : Int) (w : Nat) : truncInt x w < 2 ^ w := by
  have pos : (0 : Int) < (2 ^ w : Nat) := Int.natCast_pos.mpr (Nat.two_pow_pos w)
  have low := Int.emod_nonneg x (Int.ne_of_gt pos)
  have high := Int.emod_lt_of_pos x pos
  unfold truncInt
  omega

/-- Truncation to 64 bits and then to a width that fits in them is truncation to that width. -/
theorem truncInt_truncInt (x : Int) {v w : Nat} (h : w ≤ v) : truncInt x v % 2 ^ w = truncInt x w := by
  have dvd : ((2 ^ w : Nat) : Int) ∣ (2 ^ v : Nat) := Int.natCast_dvd_natCast.mpr (Nat.pow_dvd_pow 2 h)
  have pos : (0 : Int) < (2 ^ v : Nat) := Int.natCast_pos.mpr (Nat.two_pow_pos v)
  have low := Int.emod_nonneg x (Int.ne_of_gt pos)
  apply Int.ofNat.inj
  show ((truncInt x v % 2 ^ w : Nat) : Int) = (truncInt x w : Nat)
  rw [Int.natCast_mod, truncInt, truncInt, Int.toNat_of_nonneg low,
    Int.toNat_of_nonneg (Int.emod_nonneg x (Int.ne_of_gt (Int.natCast_pos.mpr (Nat.two_pow_pos w)))), Int.emod_emod_of_dvd _ dvd]

/-- The integer that a pattern reads as under a signedness gives the pattern back. -/
theorem truncInt_readInt_eq (sgn : Bool) {w n : Nat} (hn : n < 2 ^ w) : truncInt (readInt sgn w n) w = n := by
  unfold truncInt readInt
  dsimp only
  rw [Nat.mod_eq_of_lt hn]
  split
  · rw [Int.sub_emod_right, ← Int.natCast_mod, Nat.mod_eq_of_lt hn, Int.toNat_natCast]
  · rw [← Int.natCast_mod, Nat.mod_eq_of_lt hn, Int.toNat_natCast]

theorem readInt_false {w n : Nat} (hn : n < 2 ^ w) : readInt false w n = n := by
  unfold readInt
  dsimp only
  rw [Bool.false_and, if_neg (by decide), Nat.mod_eq_of_lt hn]

theorem readInt_ge_intMin (sgn : Bool) (w n : Nat) (hw : 0 < w) : intMin sgn w ≤ readInt sgn w n := by
  obtain ⟨k, rfl⟩ : ∃ k, w = k + 1 := ⟨w - 1, by omega⟩
  have two : 2 ^ (k + 1) = 2 * 2 ^ k := by rw [Nat.pow_succ, Nat.mul_comm]
  unfold intMin readInt
  dsimp only
  rw [Nat.add_sub_cancel]
  generalize n % 2 ^ (k + 1) = q
  cases sgn
  · simp
  · by_cases h : 2 ^ (k + 1) ≤ 2 * q
    · simp only [Bool.true_and, decide_eq_true h, if_true]
      omega
    · simp only [Bool.true_and, decide_eq_false h, if_true]
      rw [if_neg (by decide)]
      omega

theorem readInt_le_intMax (sgn : Bool) (w n : Nat) (hw : 0 < w) : readInt sgn w n ≤ intMax sgn w := by
  obtain ⟨k, rfl⟩ : ∃ k, w = k + 1 := ⟨w - 1, by omega⟩
  have two : 2 ^ (k + 1) = 2 * 2 ^ k := by rw [Nat.pow_succ, Nat.mul_comm]
  have lt : n % 2 ^ (k + 1) < 2 ^ (k + 1) := Nat.mod_lt _ (Nat.two_pow_pos _)
  unfold intMax readInt
  dsimp only
  rw [Nat.add_sub_cancel]
  generalize n % 2 ^ (k + 1) = q at lt ⊢
  cases sgn
  · simp only [Bool.false_and]
    rw [if_neg (by decide), if_neg (by decide)]
    omega
  · by_cases h : 2 ^ (k + 1) ≤ 2 * q
    · simp only [Bool.true_and, decide_eq_true h, if_true]
      omega
    · simp only [Bool.true_and, decide_eq_false h, if_true]
      rw [if_neg (by decide)]
      omega

/-- The least of some numbers and a bound: it is the bound or one of them, and above none. -/
theorem foldl_min_bounds {α : Type} [LinearOrder α] (ys : List α) (b : α) :
    (ys.foldl min b = b ∨ ys.foldl min b ∈ ys) ∧ ys.foldl min b ≤ b ∧ ∀ y ∈ ys, ys.foldl min b ≤ y := by
  induction ys generalizing b with
  | nil => exact ⟨.inl rfl, le_refl b, fun y hy => absurd hy List.not_mem_nil⟩
  | cons z ys ih =>
    obtain ⟨one, low, all⟩ := ih (min b z)
    rw [List.foldl_cons]
    refine ⟨?_, le_trans low (min_le_left ..), fun y hy => ?_⟩
    · rcases one with one | one
      · rcases min_choice b z with h | h
        · exact .inl (one.trans h)
        · exact .inr (List.mem_cons.mpr (.inl (one.trans h)))
      · exact .inr (List.mem_cons_of_mem _ one)
    · rcases List.mem_cons.mp hy with rfl | hy
      · exact le_trans low (min_le_right ..)
      · exact all y hy

theorem foldl_max_bounds {α : Type} [LinearOrder α] (ys : List α) (b : α) :
    (ys.foldl max b = b ∨ ys.foldl max b ∈ ys) ∧ b ≤ ys.foldl max b ∧ ∀ y ∈ ys, y ≤ ys.foldl max b :=
  foldl_min_bounds (α := αᵒᵈ) ys b

/-- The pattern of a number that is read from one of some patterns is among them. -/
theorem truncInt_mem_of_map {sgn : Bool} {w : Nat} {xs : List Nat} (hx : ∀ x ∈ xs, x < 2 ^ w) {y : Int} (hy : y ∈ xs.map (readInt sgn w)) :
    truncInt y w ∈ xs ∧ readInt sgn w (truncInt y w) = y := by
  obtain ⟨x, mem, rfl⟩ := List.mem_map.mp hy
  rw [truncInt_readInt_eq sgn (hx x mem)]
  exact ⟨mem, rfl⟩

/-- The least of some elements is one of them and bounds them all. -/
theorem truncInt_foldl_min (sgn : Bool) {w : Nat} (hw : 0 < w) {xs : List Nat} (hx : ∀ x ∈ xs, x < 2 ^ w) (ne : xs ≠ []) :
    let r := truncInt ((xs.map (readInt sgn w)).foldl min (intMax sgn w)) w
    r ∈ xs ∧ ∀ x ∈ xs, readInt sgn w r ≤ readInt sgn w x := by
  obtain ⟨one, -, all⟩ := foldl_min_bounds (xs.map (readInt sgn w)) (intMax sgn w)
  have mem : (xs.map (readInt sgn w)).foldl min (intMax sgn w) ∈ xs.map (readInt sgn w) := by
    refine one.elim (fun top => ?_) id
    obtain ⟨x, hmem⟩ := List.exists_mem_of_ne_nil xs ne
    have le := all _ (List.mem_map_of_mem hmem)
    rw [top] at le ⊢
    rw [le_antisymm le (readInt_le_intMax sgn w x hw)]
    exact List.mem_map_of_mem hmem
  obtain ⟨h, read⟩ := truncInt_mem_of_map hx mem
  exact ⟨h, fun x hmem => read.symm ▸ all _ (List.mem_map_of_mem hmem)⟩

/-- The largest of some elements is one of them and bounds them all. -/
theorem truncInt_foldl_max (sgn : Bool) {w : Nat} (hw : 0 < w) {xs : List Nat} (hx : ∀ x ∈ xs, x < 2 ^ w) (ne : xs ≠ []) :
    let r := truncInt ((xs.map (readInt sgn w)).foldl max (intMin sgn w)) w
    r ∈ xs ∧ ∀ x ∈ xs, readInt sgn w x ≤ readInt sgn w r := by
  obtain ⟨one, -, all⟩ := foldl_max_bounds (xs.map (readInt sgn w)) (intMin sgn w)
  have mem : (xs.map (readInt sgn w)).foldl max (intMin sgn w) ∈ xs.map (readInt sgn w) := by
    refine one.elim (fun bottom => ?_) id
    obtain ⟨x, hmem⟩ := List.exists_mem_of_ne_nil xs ne
    have le := all _ (List.mem_map_of_mem hmem)
    rw [bottom] at le ⊢
    rw [le_antisymm (readInt_ge_intMin sgn w x hw) le]
    exact List.mem_map_of_mem hmem
  obtain ⟨h, read⟩ := truncInt_mem_of_map hx mem
  exact ⟨h, fun x hmem => read.symm ▸ all _ (List.mem_map_of_mem hmem)⟩

theorem foldl_add_map (f : Nat → Int) (xs : List Nat) (b : Int) : xs.foldl (fun s x => s + f x) b = b + (xs.map f).sum := by
  rw [← List.foldl_map (f := f) (g := fun s x => s + x), List.sum_eq_foldl, ← List.foldl_assoc (op := fun a b : Int => a + b), add_zero]

/-- The integer sum is the sum of the elements in two's complement. -/
theorem intSum_eq (t : Nat) {xs : List Nat} (hx : ∀ x ∈ xs, x < 2 ^ typeWidth t) : intSum t xs = (xs.map (signedOf (typeWidth t))).sum := by
  rw [intSum, foldl_add_map, zero_add, List.map_congr_left fun x h => readInt_eq (typeWidth_pos t).ne' (hx x h)]

/-- What the statement of O43 says of the reductions of an integer type. -/
theorem reduceOp_int (t : Nat) (mode : Mode) {xs : List Nat} (hx : ∀ x ∈ xs, x < 2 ^ typeWidth t) :
    let w := typeWidth t
    (reduceOp .sum t mode xs).1 = wrapTo 64 ((xs.map (signedOf w)).sum)
      ∧ (xs = [] → (reduceOp .min t mode xs).1 = 2 ^ (w - 1) - 1 ∧ (reduceOp .max t mode xs).1 = 2 ^ (w - 1)
          ∧ (reduceOp .minn t mode xs).1 = 2 ^ w - 1 ∧ (reduceOp .maxn t mode xs).1 = 0)
      ∧ (xs ≠ [] →
          ((reduceOp .min t mode xs).1 ∈ xs ∧ ∀ x ∈ xs, signedOf w (reduceOp .min t mode xs).1 ≤ signedOf w x)
            ∧ ((reduceOp .max t mode xs).1 ∈ xs ∧ ∀ x ∈ xs, signedOf w x ≤ signedOf w (reduceOp .max t mode xs).1)
            ∧ ((reduceOp .minn t mode xs).1 ∈ xs ∧ ∀ x ∈ xs, (reduceOp .minn t mode xs).1 ≤ x)
            ∧ ((reduceOp .maxn t mode xs).1 ∈ xs ∧ ∀ x ∈ xs, x ≤ (reduceOp .maxn t mode xs).1)) := by
  have hw := typeWidth_pos t
  have signed (x : Nat) (h : x ∈ xs) : readInt true (typeWidth t) x = signedOf (typeWidth t) x := readInt_eq hw.ne' (hx x h)
  have unsigned (x : Nat) (h : x ∈ xs) : readInt false (typeWidth t) x = x := readInt_false (hx x h)
  refine ⟨?_, ?_, fun ne => ⟨?_, ?_, ?_, ?_⟩⟩
  · rw [← intSum_eq t hx]
    exact truncInt_eq_wrapTo ..
  · rintro rfl
    have all (w : Nat) (h : w ∈ [2, 4, 8, 16, 32, 64]) : intReduce .min w [] = 2 ^ (w - 1) - 1 ∧ intReduce .max w [] = 2 ^ (w - 1)
        ∧ intReduce .minn w [] = 2 ^ w - 1 ∧ intReduce .maxn w [] = 0 := by
      revert w
      decide
    exact all _ (typeWidth_mem t)
  · obtain ⟨mem, least⟩ := truncInt_foldl_min true hw hx ne
    exact ⟨mem, fun x h => by have := least x h; rwa [signed _ mem, signed x h] at this⟩
  · obtain ⟨mem, most⟩ := truncInt_foldl_max true hw hx ne
    exact ⟨mem, fun x h => by have := most x h; rwa [signed _ mem, signed x h] at this⟩
  · obtain ⟨mem, least⟩ := truncInt_foldl_min false hw hx ne
    exact ⟨mem, fun x h => by have := least x h; rw [unsigned _ mem, unsigned x h] at this; exact Int.ofNat_le.mp this⟩
  · obtain ⟨mem, most⟩ := truncInt_foldl_max false hw hx ne
    exact ⟨mem, fun x h => by have := most x h; rw [unsigned _ mem, unsigned x h] at this; exact Int.ofNat_le.mp this⟩

end Sys2Proof.Machine
end

section
namespace Sys2Proof.Machine
open Sys2Proof.Claims

/-! ### Codes of a float format (R56, R57) -/

/-- What every float format of the machine has: two exponent bits and a fraction bit at least. -/
def Fmt.Proper (f : Fmt) : Prop := 2 ≤ f.ew ∧ 1 ≤ f.fw

theorem fmtOf_proper (t : Nat) : (fmtOf t).Proper := by
  unfold fmtOf Fmt.Proper
  split <;> decide

theorem Fmt.pack_eq (f : Fmt) (neg : Bool) (e m : Nat) :
    f.pack neg e m = 2 ^ f.fw * (2 ^ f.ew * neg.toNat + e) + m := by
  have sign : (if neg then 2 ^ (f.ew + f.fw) else 0) = 2 ^ f.fw * (2 ^ f.ew * neg.toNat) := by
    cases neg
    · rfl
    · rw [if_pos rfl, Bool.toNat_true, Nat.mul_one, Nat.pow_add, Nat.mul_comm]
  rw [Fmt.pack, sign, Nat.mul_add, Nat.mul_comm e]

/-- The fraction, the exponent field and the sign of a code that was put together. -/
theorem Fmt.pack_fields (f : Fmt) (neg : Bool) {e m : Nat} (he : e < 2 ^ f.ew) (hm : m < 2 ^ f.fw) :
    f.pack neg e m % 2 ^ f.fw = m ∧ f.pack neg e m / 2 ^ f.fw % 2 ^ f.ew = e
      ∧ f.pack neg e m / 2 ^ (f.fw + f.ew) % 2 = neg.toNat := by
  have high : f.pack neg e m / 2 ^ f.fw = 2 ^ f.ew * neg.toNat + e := by
    rw [f.pack_eq, Nat.mul_add_div (Nat.two_pow_pos _), Nat.div_eq_of_lt hm, Nat.add_zero]
  refine ⟨?_, ?_, ?_⟩
  · rw [f.pack_eq, Nat.mul_add_mod, Nat.mod_eq_of_lt hm]
  · rw [high, Nat.mul_add_mod, Nat.mod_eq_of_lt he]
  · rw [Nat.pow_add, ← Nat.div_div_eq_div_mul, high, Nat.mul_add_div (Nat.two_pow_pos _), Nat.div_eq_of_lt he, Nat.add_zero]
    cases neg <;> rfl

theorem Fmt.pack_lt (f : Fmt) (neg : Bool) {e m : Nat} (he : e < 2 ^ f.ew) (hm : m < 2 ^ f.fw) : f.pack neg e m < 2 ^ f.width := by
  have fields : 2 ^ f.fw * e + m < 2 ^ f.fw * 2 ^ f.ew :=
    calc 2 ^ f.fw * e + m < 2 ^ f.fw * (e + 1) := by rw [Nat.mul_succ]; omega
      _ ≤ 2 ^ f.fw * 2 ^ f.ew := Nat.mul_le_mul_left _ he
  have whole : 2 ^ f.width = 2 ^ f.fw * 2 ^ f.ew + 2 ^ f.fw * 2 ^ f.ew := by
    rw [Fmt.width, Nat.add_assoc, Nat.pow_add, Nat.pow_add, Nat.pow_one, Nat.mul_comm (2 ^ f.ew), Nat.two_mul]
  rw [f.pack_eq, Nat.mul_add, Nat.add_assoc, whole]
  cases neg
  · rw [Bool.toNat_false, Nat.mul_zero, Nat.mul_zero]
    omega
  · rw [Bool.toNat_true, Nat.mul_one]
    omega

/-- The parity of a code is that of its fraction. -/
theorem Fmt.pack_mod_two (f : Fmt) (hf : f.Proper) (neg : Bool) (e m : Nat) : f.pack neg e m % 2 = m % 2 := by
  obtain ⟨k, hk⟩ : ∃ k, f.fw = k + 1 := ⟨f.fw - 1, by have := hf.2; omega⟩
  rw [f.pack_eq, hk, Nat.pow_succ, Nat.mul_comm (2 ^ k), Nat.mul_assoc, Nat.mul_add_mod]

/-- An exponent field and a fraction that hold a number. -/
def Fmt.Within (f : Fmt) (e m : Nat) : Prop := e < f.top.1 ∨ e = f.top.1 ∧ m ≤ f.top.2

theorem Fmt.top_bounds (f : Fmt) (hf : f.Proper) : 1 ≤ f.top.1 ∧ f.top.1 < 2 ^ f.ew ∧ f.top.2 < 2 ^ f.fw := by
  obtain ⟨hew, hfw⟩ := hf
  have four : 2 ^ 2 ≤ 2 ^ f.ew := Nat.pow_le_pow_right (by decide) hew
  have two : 2 ^ 1 ≤ 2 ^ f.fw := Nat.pow_le_pow_right (by decide) hfw
  unfold Fmt.top
  split <;> dsimp only <;> omega

/-- A code within the range of numbers decodes to the number that it was put together from. -/
theorem Fmt.decode_pack (f : Fmt) (hf : f.Proper) (neg : Bool) {e m : Nat} (hm : m < 2 ^ f.fw) (h : f.Within e m) :
    f.decode (f.pack neg e m) = if e = 0 then .fin neg m f.qmin else .fin neg (2 ^ f.fw + m) ((e : Int) - 1 + f.qmin) := by
  have two : 2 ^ 1 ≤ 2 ^ f.fw := Nat.pow_le_pow_right (by decide) hf.2
  have four : 2 ^ 2 ≤ 2 ^ f.ew := Nat.pow_le_pow_right (by decide) hf.1
  obtain ⟨-, htop, -⟩ := f.top_bounds hf
  have he : e < 2 ^ f.ew := by unfold Fmt.Within at h; omega
  obtain ⟨frac, exp, sign⟩ := f.pack_fields neg he hm
  have hneg : decide (neg.toNat = 1) = neg := by cases neg <;> rfl
  unfold Fmt.decode
  dsimp only
  rw [frac, exp, sign, hneg]
  unfold Fmt.Within Fmt.top at h
  cases hs : f.specials <;> rw [hs] at h <;> dsimp only at h ⊢
  · rw [if_neg (by omega)]
  · rw [if_neg (by omega)]

/-- The significand and the exponent of a number that a code stands for. -/
theorem Fmt.decode_fin {f : Fmt} {c m : Nat} {neg : Bool} {e : Int} (h : f.decode c = .fin neg m e) : m < 2 ^ (f.fw + 1) ∧ f.qmin ≤ e := by
  have number (neg' : Bool) (g x : Nat) (hx : x < 2 ^ f.fw)
      (hn : (if g = 0 then FV.fin neg' x f.qmin else .fin neg' (2 ^ f.fw + x) ((g : Int) - 1 + f.qmin)) = .fin neg m e) :
      m < 2 ^ (f.fw + 1) ∧ f.qmin ≤ e := by
    rw [Nat.pow_succ]
    split at hn <;> cases hn <;> omega
  have hx : c % 2 ^ f.fw < 2 ^ f.fw := Nat.mod_lt _ (Nat.two_pow_pos _)
  unfold Fmt.decode at h
  dsimp only at h
  split at h
  · exact number _ _ _ hx h
  · split at h
    · cases h
    · exact number _ _ _ hx h
  · split at h
    · split at h <;> cases h
    · exact number _ _ _ hx h

/-! ### The numbers around an exact value (R59, R60) -/

/-- A sign as a factor. -/
def signFactor (neg : Bool) : ℝ := if neg then -1 else 1

theorem signFactor_mul_self (neg : Bool) : signFactor neg * signFactor neg = 1 := by
  cases neg <;> norm_num [signFactor]

theorem abs_signFactor_mul (neg : Bool) (x : ℝ) : |signFactor neg * x| = |x| := by
  rw [abs_mul]
  cases neg <;> norm_num [signFactor]

theorem realOf_fin {f : Fmt} {c m : Nat} {neg : Bool} {e : Int} (h : f.decode c = .fin neg m e) :
    realOf f c = some (signFactor neg * ((m : ℝ) * (2 : ℝ) ^ e)) := by
  rw [realOf, h, ← mul_assoc]
  rfl

/-- The numbers that a code of the format could stand for, but for the largest exponent. -/
def Fmt.OnGrid (f : Fmt) (z : ℝ) : Prop :=
  ∃ (neg : Bool) (m : Nat) (e : Int), m < 2 ^ (f.fw + 1) ∧ f.qmin ≤ e ∧ z = signFactor neg * ((m : ℝ) * (2 : ℝ) ^ e)

theorem Fmt.onGrid_of_realOf {f : Fmt} {c : Nat} {z : ℝ} (h : realOf f c = some z) : f.OnGrid z := by
  cases hd : f.decode c with
  | nan s => rw [realOf, hd] at h; cases h
  | inf n => rw [realOf, hd] at h; cases h
  | fin neg m e =>
    rw [realOf_fin hd] at h
    obtain ⟨hm, he⟩ := Fmt.decode_fin hd
    exact ⟨neg, m, e, hm, he, (Option.some.inj h).symm⟩

/-- The grid is the same on both sides of zero. -/
theorem Fmt.OnGrid.sign {f : Fmt} {z : ℝ} (h : f.OnGrid z) (neg : Bool) : f.OnGrid (signFactor neg * z) := by
  obtain ⟨n, m, e, hm, he, rfl⟩ := h
  refine ⟨neg != n, m, e, hm, he, ?_⟩
  rw [← mul_assoc]
  cases neg <;> cases n <;> norm_num [signFactor]

theorem two_zpow_pos (e : Int) : (0 : ℝ) < (2 : ℝ) ^ e := zpow_pos two_pos e

/-- The larger of two exponents as the smaller one and a shift. -/
theorem two_zpow_eq_pow_mul {e q : Int} (h : e ≤ q) : (2 : ℝ) ^ q = (2 : ℝ) ^ (q - e).toNat * (2 : ℝ) ^ e := by
  rw [← zpow_natCast, Int.toNat_of_nonneg (by omega), ← zpow_add₀ two_ne_zero, sub_add_cancel]

/-- Between n and n + 1 units of a place no number lies, where the place is the lowest one or n fills the significand. -/
theorem Fmt.OnGrid.apart {f : Fmt} {z : ℝ} (h : f.OnGrid z) {n : Nat} {q : Int} (hn : q = f.qmin ∨ 2 ^ f.fw ≤ n) :
    z ≤ (n : ℝ) * (2 : ℝ) ^ q ∨ ((n : ℝ) + 1) * (2 : ℝ) ^ q ≤ z := by
  obtain ⟨neg, m, e, hm, he, rfl⟩ := h
  have hq := two_zpow_pos q
  have hpe := two_zpow_pos e
  cases neg with
  | true =>
    refine .inl (le_trans (b := 0) ?_ (by positivity))
    rw [signFactor, if_pos rfl, neg_one_mul, neg_nonpos]
    positivity
  | false =>
    rw [signFactor, if_neg Bool.false_ne_true, one_mul]
    rcases le_or_gt q e with hle | hlt
    · have units : (m : ℝ) * (2 : ℝ) ^ e = ((m * 2 ^ (e - q).toNat : Nat) : ℝ) * (2 : ℝ) ^ q := by
        rw [two_zpow_eq_pow_mul hle, ← mul_assoc]
        norm_num
      rw [units]
      rcases Nat.lt_or_ge n (m * 2 ^ (e - q).toNat) with hlt | hge
      · exact .inr (mul_le_mul_of_nonneg_right (by exact_mod_cast hlt) hq.le)
      · exact .inl (mul_le_mul_of_nonneg_right (by exact_mod_cast hge) hq.le)
    · have hfull : 2 ^ f.fw ≤ n := hn.resolve_left (by omega)
      refine .inl ?_
      have hm' : (m : ℝ) ≤ 2 ^ f.fw * 2 := by exact_mod_cast (Nat.pow_succ 2 f.fw ▸ hm.le : m ≤ 2 ^ f.fw * 2)
      calc (m : ℝ) * (2 : ℝ) ^ e ≤ 2 ^ f.fw * 2 * (2 : ℝ) ^ e := mul_le_mul_of_nonneg_right hm' hpe.le
        _ = 2 ^ f.fw * (2 : ℝ) ^ (e + 1) := by rw [zpow_add_one₀ two_ne_zero]; ring
        _ ≤ (n : ℝ) * (2 : ℝ) ^ q := mul_le_mul (by exact_mod_cast hfull) (zpow_le_zpow_right₀ one_le_two (by omega))
            (two_zpow_pos _).le (Nat.cast_nonneg n)

/-! ### What a rounding is made of (R60) -/

/-- A carry out of the significand moves to the next exponent. -/
def Fmt.carried (f : Fmt) (n : Nat) (q : Int) : Nat × Int := if n = 2 ^ (f.fw + 1) then (2 ^ f.fw, q + 1) else (n, q)

/-- A significand n at place q put into a code, or an overflow. -/
def Fmt.codeOf (f : Fmt) (mode : Mode) (ov : Overflow) (neg : Bool) (n : Nat) (q : Int) (inexact : Bool) : Nat × Flags :=
  if n < 2 ^ f.fw then (f.pack neg 0 n, if inexact then flagUF ||| flagNX else 0)
  else
    let field : Nat := (q - f.qmin + 1).toNat
    if f.top.1 < field ∨ (field = f.top.1 ∧ f.top.2 < n - 2 ^ f.fw) then f.overflow mode ov neg
    else (f.pack neg field (n - 2 ^ f.fw), flagIf inexact flagNX)

/-- A significand and a place that a code has room for, but for the largest exponent. -/
structure Fmt.Significand (f : Fmt) (n : Nat) (q : Int) : Prop where
  fits : n < 2 ^ (f.fw + 1)
  place : f.qmin ≤ q
  full : q = f.qmin ∨ 2 ^ f.fw ≤ n

/-- The value m × 2^e as n units of place q and a rest. -/
structure Fmt.Split (f : Fmt) (m : Nat) (e : Int) (n rest sh : Nat) (q : Int) : Prop where
  value : (m : ℝ) * (2 : ℝ) ^ e = ((n : ℝ) * 2 ^ sh + rest) * (2 : ℝ) ^ (q - sh)
  rest_lt : rest < 2 ^ sh
  sig : f.Significand n q

/-- A rounding takes the significand at its place, one up where the mode says so. -/
theorem Fmt.round_split (f : Fmt) (mode : Mode) (ov : Overflow) (neg : Bool) {m : Nat} (hm : m ≠ 0) (e : Int) :
    ∃ n rest sh q, f.Split m e n rest sh q ∧ f.round mode ov neg m e
      = f.codeOf mode ov neg (f.carried (if roundsUp mode neg n rest sh then n + 1 else n) q).1
          (f.carried (if roundsUp mode neg n rest sh then n + 1 else n) q).2 (rest != 0) := by
  have low : 2 ^ Nat.log2 m ≤ m := Nat.log2_self_le hm
  have high : m < 2 ^ (Nat.log2 m + 1) := Nat.lt_log2_self
  obtain ⟨q, hq⟩ : ∃ q, q = max (e + (Nat.log2 m : Int) - (f.fw : Int)) f.qmin := ⟨_, rfl⟩
  by_cases hle : q ≤ e
  · obtain ⟨k, hk⟩ : ∃ k : Nat, e = q + k := ⟨(e - q).toNat, by omega⟩
    have hsh : (e - q).toNat = k := by omega
    have still : roundsUp mode neg (m * 2 ^ k) 0 0 = false := by
      cases mode
      · rfl
      · rfl
      · exact Bool.and_false _
      · exact Bool.and_false _
    refine ⟨m * 2 ^ k, 0, 0, q, ⟨?_, Nat.one_pos, ?_, by omega, ?_⟩, ?_⟩
    · rw [hk, zpow_add₀ two_ne_zero]
      push_cast
      rw [zpow_natCast, sub_zero]
      ring
    · calc m * 2 ^ k < 2 ^ (Nat.log2 m + 1) * 2 ^ k := Nat.mul_lt_mul_of_pos_right high (Nat.two_pow_pos _)
        _ = 2 ^ (Nat.log2 m + 1 + k) := (Nat.pow_add ..).symm
        _ ≤ 2 ^ (f.fw + 1) := Nat.pow_le_pow_right (by decide) (by omega)
    · refine (Classical.em (q = f.qmin)).imp_right fun ne => ?_
      have : Nat.log2 m + k = f.fw := by omega
      rw [← this, Nat.pow_add]
      exact Nat.mul_le_mul_right _ low
    · rw [still, Fmt.round, if_neg hm, ← hq]
      dsimp only
      rw [if_pos hle, hsh]
      rfl
  · obtain ⟨k, hk⟩ : ∃ k : Nat, q = e + k := ⟨(q - e).toNat, by omega⟩
    have hsh : (q - e).toNat = k := by omega
    refine ⟨m / 2 ^ k, m % 2 ^ k, k, q, ⟨?_, Nat.mod_lt _ (Nat.two_pow_pos _), ?_, by omega, ?_⟩, ?_⟩
    · rw [show q - (k : Int) = e by omega]
      congr 1
      exact_mod_cast (Nat.div_add_mod' m (2 ^ k)).symm
    · rw [Nat.div_lt_iff_lt_mul (Nat.two_pow_pos _), ← Nat.pow_add]
      exact Nat.lt_of_lt_of_le high (Nat.pow_le_pow_right (by decide) (by omega))
    · refine (Classical.em (q = f.qmin)).imp_right fun ne => ?_
      rw [Nat.le_div_iff_mul_le (Nat.two_pow_pos _), ← Nat.pow_add, show f.fw + k = Nat.log2 m by omega]
      exact low
    · rw [Fmt.round, if_neg hm, ← hq]
      dsimp only
      rw [if_neg hle, hsh]
      rfl

/-- The carry changes neither the value nor its parity. -/
theorem Fmt.carried_spec (f : Fmt) (hf : f.Proper) {n : Nat} {q : Int} (hn : n ≤ 2 ^ (f.fw + 1)) (hq : f.qmin ≤ q) (full : q = f.qmin ∨ 2 ^ f.fw ≤ n) :
    f.Significand (f.carried n q).1 (f.carried n q).2 ∧ ((f.carried n q).1 : ℝ) * (2 : ℝ) ^ (f.carried n q).2 = (n : ℝ) * (2 : ℝ) ^ q
      ∧ (f.carried n q).1 % 2 = n % 2 := by
  unfold Fmt.carried
  split
  · next h =>
    obtain ⟨k, hk⟩ : ∃ k, f.fw = k + 1 := ⟨f.fw - 1, by have := hf.2; omega⟩
    refine ⟨⟨?_, by dsimp only; omega, .inr (le_refl _)⟩, ?_, ?_⟩
    · exact Nat.pow_lt_pow_right (by decide) (Nat.lt_succ_self _)
    · rw [h, zpow_add_one₀ two_ne_zero, Nat.pow_succ]
      push_cast
      ring
    · rw [h, hk, Nat.pow_succ, Nat.pow_succ, Nat.mul_mod_left, Nat.pow_succ, Nat.mul_mod_left]
  · exact ⟨⟨by omega, hq, full⟩, rfl, rfl⟩

/-- The largest finite value of a format. -/
theorem Fmt.realOf_largest (f : Fmt) (hf : f.Proper) :
    realOf f (f.largest false) = some (((2 ^ f.fw + f.top.2 : Nat) : ℝ) * (2 : ℝ) ^ ((f.top.1 : Int) - 1 + f.qmin)) := by
  obtain ⟨pos, -, lt⟩ := f.top_bounds hf
  have decoded := f.decode_pack hf false lt (.inr ⟨rfl, le_refl _⟩)
  rw [if_neg (by omega)] at decoded
  rw [Fmt.largest, realOf_fin decoded, signFactor, if_neg Bool.false_ne_true, one_mul]

/-- A number that does not exceed the largest finite value has a code of its own, whose parity is that of the significand. -/
theorem Fmt.codeOf_spec (f : Fmt) (hf : f.Proper) (mode : Mode) (ov : Overflow) (neg : Bool) {n : Nat} {q : Int} (inexact : Bool)
    (hs : f.Significand n q) (htop : (n : ℝ) * (2 : ℝ) ^ q ≤ ((2 ^ f.fw + f.top.2 : Nat) : ℝ) * (2 : ℝ) ^ ((f.top.1 : Int) - 1 + f.qmin)) :
    realOf f (f.codeOf mode ov neg n q inexact).1 = some (signFactor neg * ((n : ℝ) * (2 : ℝ) ^ q))
      ∧ (f.codeOf mode ov neg n q inexact).1 % 2 = n % 2 := by
  obtain ⟨fits, place, full⟩ := hs
  obtain ⟨pos, -, lt⟩ := f.top_bounds hf
  have twice : 2 ^ (f.fw + 1) = 2 ^ f.fw + 2 ^ f.fw := by rw [Nat.pow_succ, Nat.mul_two]
  unfold Fmt.codeOf
  split
  · next h =>
    obtain rfl : q = f.qmin := full.resolve_right (by omega)
    have decoded := f.decode_pack hf neg h (.inl pos)
    rw [if_pos rfl] at decoded
    exact ⟨realOf_fin decoded, f.pack_mod_two hf ..⟩
  · next h =>
    obtain ⟨k, hk⟩ : ∃ k : Nat, q = f.qmin + k := ⟨(q - f.qmin).toNat, by omega⟩
    have field : (q - f.qmin + 1).toNat = k + 1 := by omega
    have exponent : ((k + 1 : Nat) : Int) - 1 + f.qmin = q := by omega
    dsimp only
    rw [field]
    split
    · next beyond =>
      exfalso
      refine absurd htop (not_le.mpr ?_)
      rcases beyond with beyond | ⟨same, beyond⟩
      · calc ((2 ^ f.fw + f.top.2 : Nat) : ℝ) * (2 : ℝ) ^ ((f.top.1 : Int) - 1 + f.qmin)
            < ((2 ^ (f.fw + 1) : Nat) : ℝ) * (2 : ℝ) ^ ((f.top.1 : Int) - 1 + f.qmin) :=
              mul_lt_mul_of_pos_right (by exact_mod_cast (by omega : 2 ^ f.fw + f.top.2 < 2 ^ (f.fw + 1))) (two_zpow_pos _)
          _ = ((2 ^ f.fw : Nat) : ℝ) * (2 : ℝ) ^ ((f.top.1 : Int) - 1 + f.qmin + 1) := by
              rw [zpow_add_one₀ two_ne_zero, Nat.pow_succ]
              push_cast
              ring
          _ ≤ (n : ℝ) * (2 : ℝ) ^ q := mul_le_mul (by exact_mod_cast (by omega : 2 ^ f.fw ≤ n))
              (zpow_le_zpow_right₀ one_le_two (by omega)) (two_zpow_pos _).le (Nat.cast_nonneg n)
      · rw [show q = (f.top.1 : Int) - 1 + f.qmin by omega]
        exact mul_lt_mul_of_pos_right (by exact_mod_cast (by omega : 2 ^ f.fw + f.top.2 < n)) (two_zpow_pos _)
    · next within =>
      have decoded := f.decode_pack hf neg (e := k + 1) (m := n - 2 ^ f.fw) (by omega) (by unfold Fmt.Within; omega)
      rw [if_neg (by omega), exponent, show 2 ^ f.fw + (n - 2 ^ f.fw) = n by omega] at decoded
      refine ⟨realOf_fin decoded, (f.pack_mod_two hf ..).trans ?_⟩
      obtain ⟨j, hj⟩ : ∃ j, f.fw = j + 1 := ⟨f.fw - 1, by have := hf.2; omega⟩
      have even : 2 ^ f.fw = 2 ^ j * 2 := by rw [hj, Nat.pow_succ]
      omega

theorem Fmt.largest_lt (f : Fmt) (hf : f.Proper) (neg : Bool) : f.largest neg < 2 ^ f.width := by
  obtain ⟨-, top, frac⟩ := f.top_bounds hf
  exact f.pack_lt neg top frac

theorem Fmt.inf_lt (f : Fmt) (hf : f.Proper) (neg : Bool) : f.inf neg < 2 ^ f.width := by
  have exp := Nat.two_pow_pos f.ew
  unfold Fmt.inf
  split
  · exact f.pack_lt neg (by omega) (Nat.two_pow_pos _)
  · exact f.largest_lt hf neg

theorem Fmt.nan_lt (f : Fmt) (hf : f.Proper) : f.nan < 2 ^ f.width := by
  have exp := Nat.two_pow_pos f.ew
  have frac := Nat.two_pow_pos f.fw
  unfold Fmt.nan
  split
  · exact f.pack_lt false (by omega) (Nat.pow_lt_pow_right (by decide) (Nat.sub_lt hf.2 Nat.one_pos))
  · exact f.pack_lt false (by omega) (by omega)
  · exact f.largest_lt hf false

theorem Fmt.overflow_lt (f : Fmt) (hf : f.Proper) (mode : Mode) (ov : Overflow) (neg : Bool) : (f.overflow mode ov neg).1 < 2 ^ f.width := by
  have largest := f.largest_lt hf
  have inf := f.inf_lt hf
  unfold Fmt.overflow
  cases ov with
  | saturate => exact largest neg
  | table =>
    cases f.specials with
    | nanOnly => exact f.nan_lt hf
    | none => exact largest neg
    | ieee =>
      cases mode with
      | rne => exact inf neg
      | rz => exact largest neg
      | rd => cases neg; exacts [largest false, inf true]
      | ru => cases neg; exacts [inf false, largest true]

theorem Fmt.codeOf_lt (f : Fmt) (hf : f.Proper) (mode : Mode) (ov : Overflow) (neg : Bool) {n : Nat} {q : Int} (inexact : Bool)
    (fits : n < 2 ^ (f.fw + 1)) : (f.codeOf mode ov neg n q inexact).1 < 2 ^ f.width := by
  obtain ⟨-, top, -⟩ := f.top_bounds hf
  have twice : 2 ^ (f.fw + 1) = 2 ^ f.fw + 2 ^ f.fw := by rw [Nat.pow_succ, Nat.mul_two]
  unfold Fmt.codeOf
  split
  · exact f.pack_lt neg (Nat.two_pow_pos _) ‹_›
  · dsimp only
    split
    · exact f.overflow_lt hf ..
    · exact f.pack_lt neg (by omega) (by omega)

/-- A rounding gives a code of the format's width. -/
theorem Fmt.round_lt (f : Fmt) (hf : f.Proper) (mode : Mode) (ov : Overflow) (neg : Bool) (m : Nat) (e : Int) :
    (f.round mode ov neg m e).1 < 2 ^ f.width := by
  by_cases hm : m = 0
  · rw [Fmt.round, if_pos hm]
    exact f.pack_lt neg (Nat.two_pow_pos _) (Nat.two_pow_pos _)
  · obtain ⟨n, rest, sh, q, split, eq⟩ := f.round_split mode ov neg hm e
    rw [eq]
    have fits := split.sig.fits
    refine f.codeOf_lt hf mode ov neg _ (f.carried_spec hf ?_ split.sig.place (split.sig.full.imp_right fun h => ?_)).1.fits
    · split_ifs <;> omega
    · split_ifs <;> omega

theorem Fmt.put_lt (f : Fmt) (hf : f.Proper) (mode : Mode) (v : FV) : (f.put mode v).1 < 2 ^ f.width := by
  cases v with
  | nan s => exact f.nan_lt hf
  | inf n => exact f.inf_lt hf n
  | fin n m e => exact f.round_lt hf mode .table n m e

/-! ### One rounding is exact (R59, R60) -/

theorem roundsUp_rne (neg : Bool) (n rest sh : Nat) :
    roundsUp .rne neg n rest sh = true ↔ 2 ^ sh < 2 * rest ∨ 2 * rest = 2 ^ sh ∧ n % 2 = 1 := by
  simp [roundsUp]

theorem roundsUp_rd (neg : Bool) (n rest sh : Nat) : roundsUp .rd neg n rest sh = true ↔ neg = true ∧ rest ≠ 0 := by
  simp [roundsUp]

theorem roundsUp_ru (neg : Bool) (n rest sh : Nat) : roundsUp .ru neg n rest sh = true ↔ neg = false ∧ rest ≠ 0 := by
  simp [roundsUp]

namespace Fmt.Split
variable {f : Fmt} {m : Nat} {e : Int} {n rest sh : Nat} {q : Int}

/-- How far the value lies above its significand, and below the next one. -/
theorem gaps (h : f.Split m e n rest sh q) : (m : ℝ) * (2 : ℝ) ^ e - (n : ℝ) * (2 : ℝ) ^ q = (rest : ℝ) * (2 : ℝ) ^ (q - sh)
    ∧ ((n : ℝ) + 1) * (2 : ℝ) ^ q - (m : ℝ) * (2 : ℝ) ^ e = ((2 : ℝ) ^ sh - rest) * (2 : ℝ) ^ (q - sh) := by
  have place : (2 : ℝ) ^ q = 2 ^ sh * (2 : ℝ) ^ (q - sh) := by rw [← zpow_natCast, ← zpow_add₀ two_ne_zero, add_sub_cancel]
  rw [h.value, place]
  constructor <;> ring

theorem le (h : f.Split m e n rest sh q) : (n : ℝ) * (2 : ℝ) ^ q ≤ (m : ℝ) * (2 : ℝ) ^ e := by
  rw [← sub_nonneg, h.gaps.1]
  positivity

theorem lt (h : f.Split m e n rest sh q) : (m : ℝ) * (2 : ℝ) ^ e < ((n : ℝ) + 1) * (2 : ℝ) ^ q := by
  have hr : (rest : ℝ) < 2 ^ sh := by exact_mod_cast h.rest_lt
  rw [← sub_pos, h.gaps.2]
  exact mul_pos (sub_pos.mpr hr) (two_zpow_pos _)

theorem eq_iff (h : f.Split m e n rest sh q) : (m : ℝ) * (2 : ℝ) ^ e = (n : ℝ) * (2 : ℝ) ^ q ↔ rest = 0 := by
  rw [← sub_eq_zero, h.gaps.1, mul_eq_zero, or_iff_left (two_zpow_pos _).ne', Nat.cast_eq_zero]

/-- The value lies nearer to its significand than to the next one where the rest is less than half a unit, and so for the other comparisons. -/
theorem compare (h : f.Split m e n rest sh q) :
    ((m : ℝ) * (2 : ℝ) ^ e - (n : ℝ) * (2 : ℝ) ^ q ≤ ((n : ℝ) + 1) * (2 : ℝ) ^ q - (m : ℝ) * (2 : ℝ) ^ e ↔ 2 * rest ≤ 2 ^ sh)
      ∧ (((n : ℝ) + 1) * (2 : ℝ) ^ q - (m : ℝ) * (2 : ℝ) ^ e ≤ (m : ℝ) * (2 : ℝ) ^ e - (n : ℝ) * (2 : ℝ) ^ q ↔ 2 ^ sh ≤ 2 * rest) := by
  have unit := two_zpow_pos (q - sh)
  have cast : ((2 : ℝ) ^ sh - rest ≤ rest ↔ 2 ^ sh ≤ 2 * rest) ∧ ((rest : ℝ) ≤ 2 ^ sh - rest ↔ 2 * rest ≤ 2 ^ sh) := by
    rw [sub_le_iff_le_add, le_sub_iff_add_le, ← two_mul]
    constructor <;> norm_cast
  rw [h.gaps.1, h.gaps.2, mul_le_mul_iff_left₀ unit, mul_le_mul_iff_left₀ unit]
  exact cast.symm

end Fmt.Split

/-- Of two neighbours that no number lies between, the one that is nearer to a is the nearest number; another is as near only midway. -/
theorem nearest_of_apart {lo hi a b w : ℝ} (low : lo ≤ a) (high : a ≤ hi) (hb : b = lo ∧ a - lo ≤ hi - a ∨ b = hi ∧ hi - a ≤ a - lo)
    (apart : w ≤ lo ∨ hi ≤ w) : |b - a| ≤ |w - a| ∧ (|b - a| = |w - a| → w = b ∨ a - lo = hi - a) := by
  have dist : |w - a| = a - w ∧ w ≤ lo ∨ |w - a| = w - a ∧ hi ≤ w := by
    rcases apart with h | h
    · exact .inl ⟨by rw [abs_sub_comm, abs_of_nonneg (by linarith)], h⟩
    · exact .inr ⟨abs_of_nonneg (by linarith), h⟩
  rcases hb with ⟨rfl, near⟩ | ⟨rfl, near⟩
  · rw [abs_sub_comm, abs_of_nonneg (sub_nonneg.mpr low)]
    rcases dist with ⟨eq, h⟩ | ⟨eq, h⟩ <;> rw [eq]
    · exact ⟨by linarith, fun same => .inl (by linarith)⟩
    · exact ⟨by linarith, fun same => .inr (by linarith)⟩
  · rw [abs_of_nonneg (sub_nonneg.mpr high)]
    rcases dist with ⟨eq, h⟩ | ⟨eq, h⟩ <;> rw [eq]
    · exact ⟨by linarith, fun same => .inr (by linarith)⟩
    · exact ⟨by linarith, fun same => .inl (by linarith)⟩

theorem Fmt.OnGrid.abs {f : Fmt} {z : ℝ} (h : f.OnGrid z) : f.OnGrid |z| := by
  rcases abs_choice z with eq | eq <;> rw [eq]
  · exact h
  · rw [neg_eq_neg_one_mul]
    exact h.sign true

theorem Fmt.OnGrid.neg {f : Fmt} {z : ℝ} (h : f.OnGrid z) : f.OnGrid (-z) := by
  rw [neg_eq_neg_one_mul]
  exact h.sign true

/-- Zero of either sign is rounded to itself. -/
theorem Fmt.round_zero_isRounded (f : Fmt) (hf : f.Proper) (mode : Mode) (ov : Overflow) (neg : Bool) (e : Int) :
    IsRounded f mode 0 (f.round mode ov neg 0 e).1 := by
  have decoded := f.decode_pack hf neg (Nat.two_pow_pos f.fw) (.inl (f.top_bounds hf).1)
  rw [if_pos rfl] at decoded
  have real := realOf_fin decoded
  rw [Nat.cast_zero, zero_mul, mul_zero] at real
  rw [Fmt.round, if_pos rfl]
  refine fun _ _ _ => ⟨0, real, ?_⟩
  cases mode with
  | rne =>
    refine fun c z _ => ⟨by rw [sub_zero, abs_zero]; exact abs_nonneg _, fun same => .inl ?_⟩
    rw [sub_zero, sub_zero, abs_zero] at same
    exact abs_eq_zero.mp same.symm
  | rz => exact ⟨le_refl _, by rw [mul_zero], fun c z _ le _ => le⟩
  | rd => exact ⟨le_refl _, fun c z _ le => le⟩
  | ru => exact ⟨le_refl _, fun c z _ le => le⟩

/-- The significand that a rounding takes, one up or not. -/
def roundedUp (mode : Mode) (neg : Bool) (n rest sh : Nat) : Nat := if roundsUp mode neg n rest sh then n + 1 else n

namespace Fmt.Split
variable {f : Fmt} {m : Nat} {e : Int} {n rest sh : Nat} {q : Int}

theorem apart (h : f.Split m e n rest sh q) {w : ℝ} (hw : f.OnGrid w) : w ≤ (n : ℝ) * (2 : ℝ) ^ q ∨ ((n : ℝ) + 1) * (2 : ℝ) ^ q ≤ w :=
  hw.apart h.sig.full

/-- The significand itself is the largest number that does not exceed the value. -/
theorem below (h : f.Split m e n rest sh q) {w : ℝ} (hw : f.OnGrid w) (le : w ≤ (m : ℝ) * (2 : ℝ) ^ e) : w ≤ (n : ℝ) * (2 : ℝ) ^ q :=
  (h.apart hw).resolve_right (not_le.mpr (le.trans_lt h.lt))

/-- The significand one up, or itself where nothing is left, is the least number that is not less than the value. -/
theorem above (h : f.Split m e n rest sh q) :
    (m : ℝ) * (2 : ℝ) ^ e ≤ ((if rest ≠ 0 then n + 1 else n : Nat) : ℝ) * (2 : ℝ) ^ q
      ∧ ∀ w, f.OnGrid w → (m : ℝ) * (2 : ℝ) ^ e ≤ w → ((if rest ≠ 0 then n + 1 else n : Nat) : ℝ) * (2 : ℝ) ^ q ≤ w := by
  split
  · next some_ =>
    rw [Nat.cast_succ]
    refine ⟨h.lt.le, fun w hw le => (h.apart hw).resolve_left fun low => some_ (h.eq_iff.mp ?_)⟩
    exact le_antisymm (le.trans low) h.le
  · next none_ =>
    have eq := h.eq_iff.mpr (not_not.mp none_)
    rw [← eq]
    exact ⟨le_refl _, fun _ _ le => le⟩

/-- The significand that a rounding takes never goes past the largest number. -/
theorem roundedUp_le (h : f.Split m e n rest sh q) (mode : Mode) (neg : Bool) {w : ℝ} (hw : f.OnGrid w) (le : (m : ℝ) * (2 : ℝ) ^ e ≤ w) :
    (roundedUp mode neg n rest sh : ℝ) * (2 : ℝ) ^ q ≤ w := by
  unfold roundedUp
  split
  · next up =>
    have left_ : rest ≠ 0 := by
      rintro rfl
      have pos := Nat.two_pow_pos sh
      cases mode with
      | rne => rcases (roundsUp_rne ..).mp up with h | h <;> omega
      | rz => cases up
      | rd => exact ((roundsUp_rd ..).mp up).2 rfl
      | ru => exact ((roundsUp_ru ..).mp up).2 rfl
    have bound := h.above.2 w hw le
    rwa [if_pos left_] at bound
  · exact h.le.trans le

/-- To nearest: no number is nearer, and another as near leaves an even significand. -/
theorem nearest (h : f.Split m e n rest sh q) (neg : Bool) {w : ℝ} (hw : f.OnGrid w) :
    let b := (roundedUp .rne neg n rest sh : ℝ) * (2 : ℝ) ^ q
    let a := (m : ℝ) * (2 : ℝ) ^ e
    |b - a| ≤ |w - a| ∧ (|b - a| = |w - a| → w = b ∨ roundedUp .rne neg n rest sh % 2 = 0) := by
  obtain ⟨down, up⟩ := h.compare
  have chosen := roundsUp_rne neg n rest sh
  have side : (roundedUp .rne neg n rest sh : ℝ) * (2 : ℝ) ^ q = (n : ℝ) * (2 : ℝ) ^ q
        ∧ (m : ℝ) * (2 : ℝ) ^ e - (n : ℝ) * (2 : ℝ) ^ q ≤ ((n : ℝ) + 1) * (2 : ℝ) ^ q - (m : ℝ) * (2 : ℝ) ^ e
      ∨ (roundedUp .rne neg n rest sh : ℝ) * (2 : ℝ) ^ q = ((n : ℝ) + 1) * (2 : ℝ) ^ q
        ∧ ((n : ℝ) + 1) * (2 : ℝ) ^ q - (m : ℝ) * (2 : ℝ) ^ e ≤ (m : ℝ) * (2 : ℝ) ^ e - (n : ℝ) * (2 : ℝ) ^ q := by
    unfold roundedUp
    split
    · next hup => exact .inr ⟨by rw [Nat.cast_succ], up.mpr (by have := chosen.mp hup; omega)⟩
    · next hup => exact .inl ⟨rfl, down.mpr (by have := mt chosen.mpr hup; omega)⟩
  obtain ⟨le, tie⟩ := nearest_of_apart h.le h.lt.le side (h.apart hw)
  refine ⟨le, fun same => (tie same).imp_right fun mid => ?_⟩
  have half : 2 * rest = 2 ^ sh := Nat.le_antisymm (down.mp mid.le) (up.mp mid.ge)
  unfold roundedUp
  split
  · next hup => have := chosen.mp hup; omega
  · next hup => have := mt chosen.mpr hup; omega

end Fmt.Split

/-- A rounding below the largest finite value takes the code of the significand that its mode asks for. -/
theorem Fmt.round_code (f : Fmt) (hf : f.Proper) (mode : Mode) (ov : Overflow) (neg : Bool) {m : Nat} (hm : m ≠ 0) (e : Int) {top : ℝ}
    (htop : realOf f (f.largest false) = some top) (hle : (m : ℝ) * (2 : ℝ) ^ e ≤ top) :
    ∃ n rest sh q, f.Split m e n rest sh q
      ∧ realOf f (f.round mode ov neg m e).1 = some (signFactor neg * ((roundedUp mode neg n rest sh : ℝ) * (2 : ℝ) ^ q))
      ∧ (f.round mode ov neg m e).1 % 2 = roundedUp mode neg n rest sh % 2 := by
  obtain ⟨n, rest, sh, q, split, eq⟩ := f.round_split mode ov neg hm e
  have fits := split.sig.fits
  have bound := split.roundedUp_le mode neg (Fmt.onGrid_of_realOf htop) hle
  have size : n ≤ roundedUp mode neg n rest sh ∧ roundedUp mode neg n rest sh ≤ n + 1 := by unfold roundedUp; split_ifs <;> omega
  obtain ⟨sig, value, parity⟩ := f.carried_spec hf (n := roundedUp mode neg n rest sh) (q := q) (by omega) split.sig.place
    (split.sig.full.imp_right fun h => by omega)
  rw [f.realOf_largest hf, Option.some_inj] at htop
  rw [← htop, ← value] at bound
  obtain ⟨real, even⟩ := f.codeOf_spec hf mode ov neg (rest != 0) sig bound
  rw [value] at real
  exact ⟨n, rest, sh, q, split, eq ▸ real, eq ▸ even.trans parity⟩

/-- A finite value is rounded to the code that its mode asks for (R59, R60). -/
theorem Fmt.round_isRounded (f : Fmt) (hf : f.Proper) (mode : Mode) (ov : Overflow) (neg : Bool) (m : Nat) (e : Int) :
    IsRounded f mode (signFactor neg * ((m : ℝ) * (2 : ℝ) ^ e)) (f.round mode ov neg m e).1 := by
  by_cases hm : m = 0
  · rw [hm, Nat.cast_zero, zero_mul, mul_zero]
    exact f.round_zero_isRounded hf mode ov neg e
  intro top htop hle
  have pos : 0 ≤ (m : ℝ) * (2 : ℝ) ^ e := by positivity
  rw [abs_signFactor_mul, abs_of_nonneg pos] at hle
  obtain ⟨n, rest, sh, q, split, real, parity⟩ := f.round_code hf mode ov neg hm e htop hle
  have grid {c : Nat} {z : ℝ} (h : realOf f c = some z) : f.OnGrid z := Fmt.onGrid_of_realOf h
  have nonneg (n : Nat) : 0 ≤ (n : ℝ) * (2 : ℝ) ^ q := by positivity
  have sq := signFactor_mul_self neg
  refine ⟨_, real, ?_⟩
  cases mode with
  | rne =>
    intro c z hz
    obtain ⟨le, tie⟩ := split.nearest neg ((grid hz).sign neg)
    have dist (w : ℝ) : |z - signFactor neg * w| = |signFactor neg * z - w| := by
      rw [← abs_signFactor_mul neg (z - _), mul_sub, ← mul_assoc, sq, one_mul]
    rw [← mul_sub, abs_signFactor_mul, dist]
    refine ⟨le, fun same => (tie same).imp (fun eq => ?_) parity.trans⟩
    rw [← eq, ← mul_assoc, sq, one_mul]
  | rz =>
    refine ⟨?_, ?_, fun c z hz le _ => ?_⟩
    · rw [abs_signFactor_mul, abs_signFactor_mul, abs_of_nonneg pos, abs_of_nonneg (nonneg _)]
      exact split.le
    · rw [mul_mul_mul_comm, sq, one_mul]
      exact mul_nonneg (nonneg _) pos
    · rw [abs_signFactor_mul, abs_of_nonneg (nonneg _)]
      rw [abs_signFactor_mul, abs_of_nonneg pos] at le
      exact split.below (grid hz).abs le
  | rd =>
    obtain ⟨le, least⟩ := split.above
    cases neg with
    | false =>
      simp only [signFactor, Bool.false_eq_true, if_false, one_mul]
      exact ⟨split.le, fun c z hz le => split.below (grid hz) le⟩
    | true =>
      rw [show roundedUp .rd true n rest sh = if rest ≠ 0 then n + 1 else n by simp [roundedUp, roundsUp]]
      simp only [signFactor, if_true, neg_one_mul]
      exact ⟨neg_le_neg le, fun c z hz le => le_neg_of_le_neg (least _ ((grid hz).neg) (le_neg_of_le_neg le))⟩
  | ru =>
    obtain ⟨le, least⟩ := split.above
    cases neg with
    | true =>
      simp only [signFactor, if_true, neg_one_mul]
      exact ⟨neg_le_neg split.le, fun c z hz le => neg_le_of_neg_le (split.below (grid hz).neg (neg_le_of_neg_le le))⟩
    | false =>
      rw [show roundedUp .ru false n rest sh = if rest ≠ 0 then n + 1 else n by simp [roundedUp, roundsUp]]
      simp only [signFactor, Bool.false_eq_true, if_false, one_mul]
      exact ⟨le, fun c z hz le => least _ (grid hz) le⟩

/-- Any exact number put into a format is rounded once. -/
theorem Fmt.put_isRounded (f : Fmt) (hf : f.Proper) (mode : Mode) {v : FV} {x : ℝ} (h : numberOf v = some x) : IsRounded f mode x (f.put mode v).1 := by
  cases v with
  | nan s => cases h
  | inf n => cases h
  | fin neg m e =>
    have eq : signFactor neg * ((m : ℝ) * (2 : ℝ) ^ e) = x := by rw [← mul_assoc]; exact Option.some.inj h
    exact eq ▸ f.round_isRounded hf mode .table neg m e

/-! ### Exact sums (R61, R66) -/

/-- The value of an integer multiple of a power of two. -/
noncomputable def dyValue (d : Int × Int) : ℝ := (d.1 : ℝ) * (2 : ℝ) ^ d.2

theorem dyValue_dyAdd (a b : Int × Int) : dyValue (dyAdd a b) = dyValue a + dyValue b := by
  have scale (x k e : Int) (h : e ≤ k) : (scaleInt x (k - e) : ℝ) * (2 : ℝ) ^ e = (x : ℝ) * (2 : ℝ) ^ k := by
    rw [two_zpow_eq_pow_mul h, scaleInt]
    push_cast
    ring
  rw [dyAdd, dyValue, Int.cast_add, add_mul, scale _ _ _ (min_le_left ..), scale _ _ _ (min_le_right ..)]
  rfl

theorem numberOf_eq_dyValue (neg : Bool) (m : Nat) (e : Int) : numberOf (.fin neg m e) = some (dyValue (signed neg m, e)) := by
  cases neg <;> simp [numberOf, dyValue, signed]

/-- One term more of an exact sum. -/
def dyStep (acc : Int × Int) (t : FV) : Int × Int :=
  match t with
  | .fin n m e => if m = 0 then acc else dyAdd acc (signed n m, e)
  | _ => acc

theorem dySum_eq (ts : List FV) : dySum ts = ts.foldl dyStep (0, 0) := rfl

theorem dyValue_dyStep (d : Int × Int) {t : FV} {v : ℝ} (h : numberOf t = some v) : dyValue (dyStep d t) = dyValue d + v := by
  cases t with
  | nan s => cases h
  | inf n => cases h
  | fin n m e =>
    rw [numberOf_eq_dyValue, Option.some_inj] at h
    rw [dyStep, ← h]
    split
    · next h0 => cases n <;> simp [dyValue, signed, h0]
    · exact dyValue_dyAdd ..

/-- The sum of finite terms is exact. -/
theorem dyValue_dySum {ts : List FV} {vs : List ℝ} (h : ts.map numberOf = vs.map some) : dyValue (dySum ts) = vs.sum := by
  suffices general : ∀ d : Int × Int, dyValue (ts.foldl dyStep d) = dyValue d + vs.sum by
    rw [dySum_eq, general, dyValue, Int.cast_zero, zero_mul, zero_add]
  induction ts generalizing vs with
  | nil =>
    obtain rfl : vs = [] := List.map_eq_nil_iff.mp h.symm
    exact fun d => (add_zero _).symm
  | cons t ts ih =>
    cases vs with
    | nil => cases h
    | cons v vs =>
      obtain ⟨hv, hvs⟩ := List.cons.inj h
      intro d
      rw [List.foldl_cons, ih hvs, dyValue_dyStep d hv, List.sum_cons, add_assoc]

/-- A sum of finite terms is their exact sum, and raises no flag. -/
theorem fvSum_number (mode : Mode) {ts : List FV} {vs : List ℝ} (h : ts.map numberOf = vs.map some) :
    numberOf (fvSum mode ts).1 = some vs.sum ∧ (fvSum mode ts).2 = 0 := by
  have finite : ∀ t ∈ ts, ∃ n m e, t = .fin n m e := by
    intro t ht
    have mem := List.mem_map_of_mem (f := numberOf) ht
    rw [h] at mem
    obtain ⟨v, -, hv⟩ := List.mem_map.mp mem
    cases t with
    | nan s => cases hv
    | inf n => cases hv
    | fin n m e => exact ⟨n, m, e, rfl⟩
  have none_ (p : FV → Bool) (hp : ∀ n m e, p (.fin n m e) = false) : ts.any p = false := by
    rw [List.any_eq_false]
    intro t ht
    obtain ⟨n, m, e, rfl⟩ := finite t ht
    rw [hp]
    exact Bool.false_ne_true
  have sum := dyValue_dySum h
  unfold fvSum
  extract_lets pos negs snan d
  have hn : ts.any FV.isNan = false := none_ _ fun _ _ _ => rfl
  have hp : pos = false := none_ _ fun _ _ _ => rfl
  have hm : negs = false := none_ _ fun _ _ _ => rfl
  rw [hn, hp, hm, if_neg Bool.false_ne_true, Bool.and_false, if_neg Bool.false_ne_true, if_neg Bool.false_ne_true, if_neg Bool.false_ne_true]
  split
  · next h0 =>
    refine ⟨?_, rfl⟩
    rw [numberOf_eq_dyValue, ← sum, dyValue, dyValue, h0]
    simp [signed]
  · next h0 =>
    refine ⟨?_, rfl⟩
    have value : signed (decide (d.1 < 0)) d.1.natAbs = d.1 := by
      unfold signed
      split
      · next lt => have := of_decide_eq_true lt; omega
      · next ge => have := mt (decide_eq_true (p := d.1 < 0)) ge; omega
    rw [fvOfDy, if_neg h0, numberOf_eq_dyValue, ← sum, value]

/-- The sum of some finite codes is the exact sum of their values, rounded once; of none it is +0. -/
theorem fpSum_isRounded (f : Fmt) (hf : f.Proper) (mode : Mode) {xs : List Nat} {vs : List ℝ} (h : xs.map (realOf f) = vs.map some) :
    IsRounded f mode vs.sum (fpSum f mode xs).1 := by
  unfold fpSum
  split
  · next empty =>
    obtain rfl := List.isEmpty_iff.mp empty
    obtain rfl : vs = [] := List.map_eq_nil_iff.mp h.symm
    have zero : (f.round mode .table false 0 0).1 = 0 := by
      rw [Fmt.round, if_pos rfl, f.pack_eq]
      rfl
    exact zero ▸ f.round_zero_isRounded hf mode .table false 0
  · refine f.put_isRounded hf mode (fvSum_number mode ?_).1
    rw [List.map_map, ← h]
    rfl

theorem fpSum_lt (f : Fmt) (hf : f.Proper) (mode : Mode) (xs : List Nat) : (fpSum f mode xs).1 < 2 ^ f.width := by
  unfold fpSum
  split
  · exact Nat.two_pow_pos _
  · exact f.put_lt hf mode _

end Sys2Proof.Machine
end

section
namespace Sys2Proof.Machine
open Sys2Proof.Claims

/-! ### Going on depends on registers, pc and levels alone (R134, R163) -/

/-- Control stands at one place in two contexts. -/
structure Ctx.StandsAs (c d : Ctx) : Prop where
  pc : c.pc = d.pc
  levels : c.levels = d.levels

namespace Ctx.StandsAs
variable {c d : Ctx}

theorem passEnd (h : c.StandsAs d) (l : Level) (ls : List Level) : (c.passEnd l ls).StandsAs (d.passEnd l ls) := by
  have turn (p : Prop) [Decidable p] (x : Ctx) : (if p then { x with rb := x.rb + 1 } else x).pc = x.pc := by
    split <;> rfl
  have bump (x : Ctx) : (x.bump l).pc = x.pc := by
    rw [Ctx.bump, Ctx.foldl_bump_eq]
  unfold Ctx.passEnd
  dsimp only
  split
  · exact ⟨rfl, rfl⟩
  · exact ⟨(turn ..).trans ((bump c).trans (h.pc.trans ((turn ..).trans (bump d)).symm)), rfl⟩

theorem endPasses (h : c.StandsAs d) (n : Nat) : (Ctx.endPasses n c).StandsAs (Ctx.endPasses n d) := by
  induction n generalizing c d with
  | zero => exact h
  | succ n ih =>
    unfold Ctx.endPasses
    rw [h.levels, h.pc]
    split
    · exact h
    · split
      · exact ih (h.passEnd ..)
      · exact h

theorem advance (h : c.StandsAs d) : c.advance.StandsAs d.advance := by
  unfold Ctx.advance Ctx.jump
  apply endPasses
  exact ⟨congrArg (· + 4) h.pc, h.levels⟩

end Ctx.StandsAs

/-- Two contexts agree on all that going on to another word reads: the general registers too, which strides are added to. -/
structure Ctx.WalksAs (c d : Ctx) : Prop extends Ctx.StandsAs c d where
  g : c.g = d.g

namespace Ctx.WalksAs
variable {c d : Ctx}

theorem rd (h : c.WalksAs d) (r : Nat) : c.rd r = d.rd r := by rw [Ctx.rd, Ctx.rd, h.g]

theorem wr (h : c.WalksAs d) (r : Nat) (v : W64) : (c.wr r v).WalksAs (d.wr r v) := by
  unfold Ctx.wr
  split
  · exact h
  · exact ⟨⟨h.pc, h.levels⟩, congrArg (Sparse.set 0 · r v) h.g⟩

theorem bump (h : c.WalksAs d) (l : Level) : (c.bump l).WalksAs (d.bump l) := by
  unfold Ctx.bump
  generalize l.set.binds = bs
  induction bs generalizing c d with
  | nil => exact h
  | cons b bs ih =>
    rw [List.foldl_cons, List.foldl_cons, h.rd]
    exact ih (h.wr ..)

theorem passEnd (h : c.WalksAs d) (l : Level) (ls : List Level) : (c.passEnd l ls).WalksAs (d.passEnd l ls) := by
  have turn (p : Prop) [Decidable p] (x : Ctx) : (if p then { x with rb := x.rb + 1 } else x).g = x.g := by
    split <;> rfl
  have g (x : Ctx) : (x.passEnd l ls).g = (x.bump l).g := by
    unfold Ctx.passEnd
    dsimp only
    split <;> exact turn ..
  exact ⟨h.toStandsAs.passEnd l ls, by rw [g, g, (h.bump l).g]⟩

theorem endPasses (h : c.WalksAs d) (n : Nat) : (Ctx.endPasses n c).WalksAs (Ctx.endPasses n d) := by
  induction n generalizing c d with
  | zero => exact h
  | succ n ih =>
    unfold Ctx.endPasses
    rw [h.levels, h.pc]
    split
    · exact h
    · split
      · exact ih (h.passEnd ..)
      · exact h

theorem advance (h : c.WalksAs d) : c.advance.WalksAs d.advance := by
  unfold Ctx.advance Ctx.jump
  apply endPasses
  exact ⟨⟨congrArg (· + 4) h.pc, h.levels⟩, h.g⟩

end Ctx.WalksAs

/-- What the sequencer and a convoy have of a strand: registers, control registers, place, and why it is held. -/
structure Ctx.SameData (c d : Ctx) : Prop where
  cr : d.cr = c.cr
  vreg : d.vreg = c.vreg
  len : d.len = c.len
  mreg : d.mreg = c.mreg
  running : d.running = c.running
  vec : d.vec = c.vec
  here : d.here = c.here
  job : d.job = c.job

theorem Ctx.advance_keeps (c : Ctx) : c.SameData c.advance ∧ c.advance.queue = c.queue ∧ c.advance.hold = c.hold := by
  have h := (c.jump_wrote (c.pc + 4) []).2
  rw [Ctx.advance, h]
  exact ⟨⟨rfl, rfl, rfl, rfl, rfl, rfl, rfl, rfl⟩, rfl, rfl⟩

/-! ### A vector word issues (R42, R44, R130) -/

/-- The context of the issuing strand once a member stands in its queue, with its convoy closed: a synchronising one holds the scalar pipe. -/
def Ctx.standing (c : Ctx) (e : Entry) (syncs : Bool) : Ctx :=
  if syncs then { c.enqueue e with open_ := false, hold := .vsync, again := true, atPoint := false }
  else { (c.enqueue e).advance with open_ := false }

theorem Ctx.standing_keeps (c : Ctx) (e : Entry) (syncs : Bool) : c.SameData (c.standing e syncs) := by
  cases syncs with
  | true => exact ⟨rfl, rfl, rfl, rfl, rfl, rfl, rfl, rfl⟩
  | false =>
    obtain ⟨⟨cr, vreg, len, mreg, running, vec, here, job⟩, -, -⟩ := (c.enqueue e).advance_keeps
    exact ⟨cr, vreg, len, mreg, running, vec, here, job⟩

theorem Ctx.standing_queue (c : Ctx) (e : Entry) (syncs : Bool) : (c.standing e syncs).queue = c.queue ++ [.entry e] := by
  cases syncs with
  | true => rfl
  | false => exact (c.enqueue e).advance_keeps.2.1

theorem Ctx.standing_open (c : Ctx) (e : Entry) (syncs : Bool) : (c.standing e syncs).open_ = false := by
  cases syncs <;> rfl

theorem Ctx.standing_hold (c : Ctx) (e : Entry) (syncs : Bool) : (c.standing e syncs).hold = if syncs then .vsync else c.hold := by
  cases syncs with
  | true => rfl
  | false => exact (c.enqueue e).advance_keeps.2.2

/-- A member that does not synchronise leaves control at the next word. -/
theorem Ctx.standing_walks (c : Ctx) (e : Entry) : (c.standing e false).WalksAs c.advance := by
  obtain ⟨⟨pc, levels⟩, g⟩ := Ctx.WalksAs.advance (c := c.enqueue e) (d := c) ⟨⟨rfl, rfl⟩, rfl⟩
  exact ⟨⟨pc, levels⟩, g⟩

/-- The allowances of R45 leave room for one member. -/
theorem allowed_single (e : Entry) (h : e.m.op.pipe ≠ .vset) : allowed [e] = true := by
  unfold allowed planRun countPipe
  cases hp : e.m.op.pipe <;> simp_all [chained]

theorem convoyOk_single {e : Entry} {ty vl : Nat} (h : e.m.op.pipe ≠ .vset) (legal : e.m.legal ty vl e.set = true) : convoyOk [e] ty vl = true := by
  simp [convoyOk, legal, allowed_single e h, clash]

/-- A convoy of one member as VReady has it is legal at scalar issue and as it opens. -/
theorem convoyOk_of_ready {s : State} {v : VInstr} (ready : VReady s v) (op : v.m.op.pipe ≠ .vset) :
    convoyOk [s.me.entryOf s.ir v true] (tyOf s.me) (vlOf s.me) = true := by
  obtain ⟨-, -, -, -, -, -, -, -, -, -, legal⟩ := ready
  refine convoyOk_single ?_ legal
  show (memberOf s.me v).op.pipe ≠ .vset
  unfold memberOf
  split <;> exact op

theorem State.onMe_setMe (s : State) (c : Ctx) (f : Ctx → Ctx) : (s.setMe c).onMe f = s.setMe (f c) := by
  rw [State.onMe, State.me_setMe]
  exact State.setCtx_setCtx ..

/-- A word that leaves one of the contexts of a member at the head of its queue. -/
theorem afterIssue_setMe (s : State) {c d : Ctx} (h : { c with open_ := false } = d) (here : c.here = s.me.here) :
    afterIssue (s.setMe c) = { s.setMe d with input := { s.input with core := BitVec.ofNat 8 s.myCore } } := by
  have core : (s.setMe c).myCore = s.myCore := by rw [State.myCore, State.me_setMe, here]; rfl
  unfold afterIssue
  rw [State.onMe_setMe, core, h]
  rfl

/-- The state in which a member that has issued waits for its convoy to open. -/
def State.queued (s : State) (v : VInstr) : State :=
  { s.setMe (s.me.standing (s.me.entryOf s.ir v true) v.m.syncs) with input := { s.input with core := BitVec.ofNat 8 s.myCore } }

/-- A member whose place is ready enters the queue alone. -/
theorem State.issueVector_ready {i : Instr} {s : State} {v : VInstr} (hv : opOf i = some v) (ready : VReady s v) (op : v.m.op.pipe ≠ .vset)
    (coord : v.m.syncs = true → s.me.isCoord v.m.d = false) :
    ∃ s1, s.issueVector i = .next s1 ∧ afterIssue s1 = s.queued v := by
  have ok := convoyOk_of_ready ready op
  obtain ⟨strand, vec, -, queue, -, -, -, cb, formed, -, -⟩ := ready
  have opens : s.me.opensAt v.m.cb = true := by rw [Ctx.opensAt, cb, Bool.true_or]
  have room : s.me.occupancy = 0 := by rw [Ctx.occupancy, queue]; rfl
  have strip : s.me.strip = (vlOf s.me, tyOf s.me) := by rw [Ctx.strip, queue]; rfl
  have tail : (s.me.enqueue (s.me.entryOf s.ir v true)).tail = [s.me.entryOf s.ir v true] := by
    rw [Ctx.tail, Ctx.enqueue, queue]
    rfl
  have keeps := (s.me.enqueue (s.me.entryOf s.ir v true)).advance_keeps.1
  rw [State.issueVector, hv]
  dsimp only
  unfold State.issueMember
  dsimp only
  rw [strand, vec, formed, opens, room, tail, strip, ok]
  unfold State.queued
  cases hs : v.m.syncs with
  | true =>
    rw [coord hs]
    exact ⟨_, rfl, afterIssue_setMe s rfl rfl⟩
  | false =>
    exact ⟨_, rfl, afterIssue_setMe s rfl keeps.here⟩

/-! ### The sequencer finds its strand, and opens its convoy (R44, R130) -/

/-- A context that differs from an absent one is listed. -/
theorem State.mem_strands {s : State} {k : Nat} (hk : k < 4096) (vec : (s.ctxAt k).vec = true) : k ∈ s.strands := by
  have absent : (ctxDefault k).vec = false := by
    unfold ctxDefault
    split <;> rfl
  have listed : ∀ m : Sparse (Option Ctx), Sparse.get none m k ≠ none → k ∈ m.map (·.1) := by
    intro m
    induction m with
    | nil => exact fun h => absurd rfl h
    | cons p m ih =>
      intro h
      rw [Sparse.get] at h
      split at h
      · next eq => exact List.mem_cons.mpr (.inl eq.symm)
      · exact List.mem_cons_of_mem _ (ih h)
  rw [State.strands, List.mem_filter]
  refine ⟨listed _ fun h => ?_, decide_eq_true hk⟩
  rw [State.ctxAt, h, Option.getD_none, absent] at vec
  cases vec

/-- The one vector strand of a core is the one its sequencer serves. -/
theorem State.vectorStrand_eq {s : State} {k m : Nat} (hk : k < 4096) (vec : (s.ctxAt k).vec = true) (on : s.coreOf k = m)
    (only : ∀ j, (s.ctxAt j).vec = true → s.coreOf j = m → j = k) : s.vectorStrand m = some k := by
  have found : (s.strands.find? fun j => (s.ctxAt j).vec && (s.ctxAt j).here / 16 == m).isSome := by
    rw [List.find?_isSome]
    exact ⟨k, State.mem_strands hk vec, by rw [vec, Bool.true_and]; exact beq_iff_eq.mpr on⟩
  obtain ⟨j, hj⟩ := Option.isSome_iff_exists.mp found
  have sat := List.find?_some hj
  rw [Bool.and_eq_true, beq_iff_eq] at sat
  rw [State.vectorStrand, hj, only j sat.1 sat.2]

/-- A member that waits for nothing outside its strand: no tile and no inbox (R283, R293). -/
def VOp.free (o : VOp) : Bool :=
  match o with
  | .load .tile => false
  | .store .tile => false
  | .mov .take => false
  | .mov .push => false
  | _ => true

theorem State.memberGate_go (s : State) (k : Nat) {e : Entry} (vl : Nat) (h : e.m.op.free = true) : s.memberGate k e vl = .go := by
  unfold State.memberGate
  dsimp only
  split <;> simp_all [VOp.free]

/-- A member alone in the queue, with its convoy closed, runs. -/
theorem State.opening_run {s : State} {k : Nat} {e : Entry} (vec : (s.ctxAt k).vec = true) (hold : (s.ctxAt k).hold ≠ .trapped)
    (running : (s.ctxAt k).running = none) (queue : (s.ctxAt k).queue = [.entry e]) (closed : (s.ctxAt k).open_ = false) (free : e.m.op.free = true)
    (op : e.m.op.pipe ≠ .vset) (ok : convoyOk [e] (tyOf (s.ctxAt k)) (vlOf (s.ctxAt k)) = true) : s.opening k = some .run := by
  have convoy : (s.ctxAt k).convoy = [e] := by rw [Ctx.convoy, queue]; rfl
  have gate : s.gate k [e] (vlOf (s.ctxAt k)) = .go := by
    rw [State.gate, List.map_singleton, s.memberGate_go k _ free]
    rfl
  have works : (s.ctxAt k).sequencing = true := by
    rw [Ctx.sequencing, vec, running, bne_iff_ne.mpr hold]
    rfl
  have shut : (s.ctxAt k).closed = true := by rw [Ctx.closed, closed]; rfl
  have ok' : convoyOk [e] (bitsOf ((s.ctxAt k).crGet 0x101) 0 5) (bitsOf ((s.ctxAt k).crGet 0x100) 0 14) = true := ok
  have gate' : s.gate k [e] (bitsOf ((s.ctxAt k).crGet 0x100) 0 14) = .go := gate
  unfold State.opening
  simp only [works, queue, shut, convoy, ok', gate', Bool.not_true, Bool.false_eq_true, if_false]
  split
  · next code hop => rw [hop] at op; exact absurd rfl op
  · rfl

/-! ### What a commit changes (R246, R250, R251) -/

/-- Only vector registers, masks, lengths, and the flags, %ocount and %vdirty differ. -/
structure Ctx.OnlyCommitted (c d : Ctx) : Prop where
  parts : ∃ vreg len mreg cr, d = { c with vreg := vreg, len := len, mreg := mreg, cr := cr }
  crGet : ∀ n, n ∉ [0x104, 0x109, 0x10A] → d.crGet n = c.crGet n

namespace Ctx.OnlyCommitted
variable {c d e : Ctx}

theorem refl (c : Ctx) : c.OnlyCommitted c := ⟨⟨_, _, _, _, rfl⟩, fun _ _ => rfl⟩

theorem trans (h : c.OnlyCommitted d) (g : d.OnlyCommitted e) : c.OnlyCommitted e := by
  obtain ⟨_, _, _, _, rfl⟩ := h.parts
  obtain ⟨_, _, _, _, rfl⟩ := g.parts
  exact ⟨⟨_, _, _, _, rfl⟩, fun n hn => (g.crGet n hn).trans (h.crGet n hn)⟩

theorem fold {β : Type} {f : Ctx → β → Ctx} (hf : ∀ (c : Ctx) b, c.OnlyCommitted (f c b)) (bs : List β) (c : Ctx) : c.OnlyCommitted (bs.foldl f c) := by
  induction bs generalizing c with
  | nil => exact .refl c
  | cons b bs ih => exact (hf c b).trans (ih _)

theorem ite (p : Prop) [Decidable p] (h : c.OnlyCommitted d) (g : c.OnlyCommitted e) : c.OnlyCommitted (if p then d else e) := by
  split
  · exact h
  · exact g

theorem of_vreg (c : Ctx) (vreg : Sparse Byte) : c.OnlyCommitted { c with vreg := vreg } := ⟨⟨_, _, _, _, rfl⟩, fun _ _ => rfl⟩

theorem of_mreg (c : Ctx) (mreg : Sparse Byte) : c.OnlyCommitted { c with mreg := mreg } := ⟨⟨_, _, _, _, rfl⟩, fun _ _ => rfl⟩

theorem of_setLen (c : Ctx) (r n : Nat) : c.OnlyCommitted (c.setLen r n) := ⟨⟨_, _, _, _, rfl⟩, fun _ _ => rfl⟩

theorem of_crSet (c : Ctx) {n : Nat} (hn : n ∈ [0x104, 0x109, 0x10A]) (v : W64) : c.OnlyCommitted (c.crSet n v) :=
  ⟨⟨_, _, _, _, rfl⟩, fun _ hm => (Ctx.crGet_crSet ..).trans (if_neg (ne_of_mem_of_not_mem hn hm).symm)⟩

theorem of_vput (c : Ctx) (r w i v : Nat) : c.OnlyCommitted (c.vput r w i v) := .ite _ (of_vreg ..) (of_vreg ..)

theorem of_setMbit (c : Ctx) (r i : Nat) (b : Bool) : c.OnlyCommitted (c.setMbit r i b) := of_mreg ..

theorem of_clearMask (c : Ctx) (r n : Nat) : c.OnlyCommitted (c.clearMask r n) := (fold (fun c _ => of_setMbit c ..) _ c).trans (of_mreg ..)

theorem of_commitElem (c : Ctx) (e : Entry) (ty : Nat) (x : Elem) : c.OnlyCommitted (c.commitElem e ty x) := by
  unfold Ctx.commitElem
  extract_lets c1 c2 c3 c4
  have h1 : c.OnlyCommitted c1 := by
    unfold c1
    split
    · exact of_vput ..
    · exact .refl c
  have h2 : c.OnlyCommitted c2 := by
    unfold c2
    split
    · exact h1.trans (of_setMbit ..)
    · exact h1
  have h3 : c.OnlyCommitted c3 := .ite _ (h2.trans (of_setMbit ..)) h2
  have h4 : c.OnlyCommitted c4 := h3.trans (fold (fun c _ => of_vreg c _) _ _)
  exact (h4.trans (of_crSet _ (by decide) _)).trans (of_crSet _ (by decide) _)

theorem of_commitLens (c : Ctx) (e : Entry) (ty vl : Nat) (xs : List Elem) : c.OnlyCommitted (c.commitLens e ty vl xs) := by
  have len (c : Ctx) (r n : Nat) : c.OnlyCommitted ((c.setLen r n).setDirty r) := (of_setLen ..).trans (of_crSet _ (by decide) _)
  unfold Ctx.commitLens
  extract_lets c1 top
  have h1 : c.OnlyCommitted c1 := by
    unfold c1
    split
    · exact .ite _ (len ..) (.refl c)
    · exact .refl c
  exact .ite _ h1 (h1.trans (len ..))

theorem of_commitMasks (c : Ctx) (e : Entry) (vl : Nat) : c.OnlyCommitted (c.commitMasks e vl) := by
  unfold Ctx.commitMasks
  extract_lets c1
  have h1 : c.OnlyCommitted c1 := by
    unfold c1
    split
    · exact of_clearMask ..
    · exact .refl c
  exact .ite _ (.refl c) (.ite _ (h1.trans (of_clearMask ..)) h1)

end Ctx.OnlyCommitted

/-! ### A convoy of one member runs (R199, R250, R254) -/

/-- The registers as a member that runs to its end leaves them. -/
def Ctx.committed (c : Ctx) (e : Entry) (ty vl : Nat) (xs : List Elem) : Ctx :=
  ((xs.foldl (fun c x => c.commitElem e ty x) c).commitLens e ty vl xs).commitMasks e vl

theorem Ctx.OnlyCommitted.of_committed (c : Ctx) (e : Entry) (ty vl : Nat) (xs : List Elem) : c.OnlyCommitted (c.committed e ty vl xs) :=
  ((Ctx.OnlyCommitted.fold (fun c x => .of_commitElem c e ty x) xs c).trans (.of_commitLens ..)).trans (.of_commitMasks ..)

/-- What a member makes where nothing stops it and nothing goes to memory or an inbox. -/
structure Made.Quiet (made : Made) (e : Entry) (vl : Nat) : Prop where
  below : ∀ x ∈ made.elems, x.i < vl
  goes : ∀ x ∈ made.elems, x.stops e = none
  puts : ∀ x ∈ made.elems, x.puts = []
  push : made.push = none
  take : made.take = none

theorem Made.Quiet.kept {made : Made} {e : Entry} {vl : Nat} (h : made.Quiet e vl) : made.kept e vl = made.elems := by
  refine List.filter_eq_self.mpr fun x hx => ?_
  rw [decide_eq_true (h.below x hx), h.goes x hx]
  rfl

theorem State.commit_quiet (s : State) (k ty : Nat) {made : Made} {e : Entry} {vl : Nat} (h : made.Quiet e vl) :
    s.commit k e ty vl vl true made = s.onCtx k fun c => c.committed e ty vl made.elems := by
  have lands (xs : List Elem) (hx : ∀ x ∈ xs, x.puts = []) (t : State) : xs.foldl (fun s x => x.puts.foldl State.land s) t = t := by
    induction xs with
    | nil => rfl
    | cons x xs ih =>
      rw [List.foldl_cons, hx x List.mem_cons_self, List.foldl_nil]
      exact ih fun y hy => hx y (List.mem_cons_of_mem _ hy)
  rw [State.commit, h.kept, lands _ h.puts]
  rfl

/-- The view that a member alone in its convoy executes on. -/
def State.viewOf (s : State) (k : Nat) (e : Entry) : View where
  c := s.ctxAt k
  vl := vlOf (s.ctxAt k)
  ty := tyOf (s.ctxAt k)
  lo := if e.m.op.whole then 0 else vstartOf (s.ctxAt k)
  free := s.free + 65536 * 0

theorem State.setCtx_self_of_onCtx (s : State) (k : Nat) (c : Ctx) (f : Ctx → Ctx) : (s.setCtx k c).onCtx k f = s.setCtx k (f c) := by
  rw [State.onCtx, State.ctxAt_setCtx_same, State.setCtx_setCtx]

theorem limitOf_nil (rd : List Nat) (vl : Nat) : limitOf [] rd vl = vl := rfl

/-- A pass over one member that nothing stops commits what it makes. -/
theorem State.pass_single {s : State} {k : Nat} {e : Entry} {made : Made} (make : (s.viewOf k e).make s k e (vlOf (s.ctxAt k)) = (made, s))
    (quiet : made.Quiet e (vlOf (s.ctxAt k))) (op : e.m.op.pipe ≠ .vls) :
    let p := s.pass k (vlOf (s.ctxAt k)) [e]
    p.s = s.setCtx k ((s.ctxAt k).committed e (tyOf (s.ctxAt k)) (vlOf (s.ctxAt k)) made.elems)
      ∧ p.made = [made] ∧ p.stops = [] ∧ p.short = none := by
  have stops : (made.elems.filterMap fun x => (x.stops e).map fun f => (x.i, f)) = [] := by
    refine List.filterMap_eq_nil_iff.mpr fun x hx => ?_
    rw [quiet.goes x hx]
    rfl
  have noMemory : (e.m.op.pipe == Pipe.vls) = false := beq_eq_false_iff_ne.mpr op
  have request (t : State) (v : View) : t.requestFor v k e (vlOf (s.ctxAt k)) made = t := by
    unfold State.requestFor
    split
    · next hop => rw [hop] at op; exact absurd rfl op
    · next hop => rw [hop] at op; exact absurd rfl op
    · rfl
  have image (c : Ctx) : c.takeImage e made = c := by rw [Ctx.takeImage, quiet.take]
  have commit := s.commit_quiet k (tyOf (s.ctxAt k)) quiet
  unfold State.pass
  dsimp only [List.zipIdx_cons, List.zipIdx_nil, List.foldl_cons, List.foldl_nil]
  unfold Pass.member
  simp only [limitOf_nil, Nat.lt_irrefl, decide_false, Bool.and_false, Bool.false_eq_true, if_false, noMemory]
  have make' : View.make { c := s.ctxAt k, vl := vlOf (s.ctxAt k), ty := bitsOf ((s.ctxAt k).crGet 0x101) 0 5
                           lo := if e.m.op.whole = true then 0 else bitsOf ((s.ctxAt k).crGet 0x102) 0 13, free := s.free + 65536 * 0 }
      s k e (vlOf (s.ctxAt k)) = (made, s) := make
  rw [make']
  simp only [stops, List.filterMap_nil, List.append_nil, List.filter_nil, ite_self, List.map_nil, List.nil_append, List.foldl_nil, image]
  refine ⟨(congrArg (fun t => State.onCtx t k fun c => c) ((request ..).trans commit)).trans ?_, trivial, trivial, trivial⟩
  rw [State.onCtx, State.onCtx, State.ctxAt_setCtx_same, State.setCtx_setCtx]

/-- Beside one context, only counters, the mesh, free values and the input differ, and memory only where a core samples. -/
structure Beside (k : Nat) (s t : State) : Prop where
  others : ∀ j, j ≠ k → t.ctxAt j = s.ctxAt j
  cur : t.cur = s.cur
  sched : t.sched = s.sched
  kept : ∀ m, (s.coreAt m).Kept (t.coreAt m)
  mem : Unsampled s → Unsampled t ∧ t.mem = s.mem

namespace Beside
variable {k : Nat} {s t u : State}

theorem trans (h : Beside k s t) (g : Beside k t u) : Beside k s u :=
  ⟨fun j hj => (g.others j hj).trans (h.others j hj), g.cur.trans h.cur, g.sched.trans h.sched, fun m => (h.kept m).trans (g.kept m),
    fun q => ⟨(g.mem (h.mem q).1).1, (g.mem (h.mem q).1).2.trans (h.mem q).2⟩⟩

theorem of_setCtx (s : State) (k : Nat) (c : Ctx) : Beside k s (s.setCtx k c) :=
  ⟨fun _ hj => State.ctxAt_setCtx_other s hj c, rfl, rfl, fun _ => .refl _, fun q => ⟨q, rfl⟩⟩

theorem of_input (s : State) (k : Nat) (i : Input) : Beside k s { s with input := i } :=
  ⟨fun _ _ => rfl, rfl, rfl, fun _ => .refl _, fun q => ⟨q, rfl⟩⟩

theorem of_asked (h : OnlyAsked s t) (k : Nat) : Beside k s t := by
  have cur : t.cur = s.cur := by obtain ⟨_, _, _, _, _, _, rfl⟩ := h.parts; rfl
  exact ⟨fun j _ => by rw [State.ctxAt, State.ctxAt, h.ctx], cur, h.sched, h.kept, fun q => ⟨h.unsampled q, h.mem q⟩⟩

theorem acc (h : Beside k s t) (m : Nat) : (t.coreAt m).acc = (s.coreAt m).acc := by
  obtain ⟨_, _, _, _, _, hm⟩ := h.kept m
  rw [hm]

end Beside

theorem OnlyAsked.ctxAt {s t : State} (h : OnlyAsked s t) (k : Nat) : t.ctxAt k = s.ctxAt k := by rw [State.ctxAt, State.ctxAt, h.ctx]

/-- What a convoy of one member leaves to be done as it drains. -/
def Made.running (made : Made) (e : Entry) : Running := { n := 1, g := made.g.map fun v => (e.m.d, v) }

/-- The registers of a strand whose convoy of one member has run, and stands until it drains. -/
def Ctx.ranWith (c : Ctx) (e : Entry) (ty vl : Nat) (made : Made) : Ctx :=
  { c.committed e ty vl made.elems with running := some (made.running e) }

/-- A convoy of one member that nothing stops runs: its registers are committed, and it stands until it drains. -/
theorem State.runConvoy_single {s : State} {k : Nat} {e : Entry} {made : Made} (queue : (s.ctxAt k).queue = [.entry e])
    (make : (s.viewOf k e).make s k e (vlOf (s.ctxAt k)) = (made, s)) (quiet : made.Quiet e (vlOf (s.ctxAt k))) (op : e.m.op.pipe ≠ .vls) :
    ∃ t, s.runConvoy k = t ∧ OnlyAsked (s.setCtx k ((s.ctxAt k).ranWith e (tyOf (s.ctxAt k)) (vlOf (s.ctxAt k)) made)) t := by
  have convoy : (s.ctxAt k).convoy = [e] := by rw [Ctx.convoy, queue]; rfl
  obtain ⟨state, mades, stops, short⟩ := State.pass_single make quiet op
  have ran : (s.pass k (vlOf (s.ctxAt k)) [e]).ran k [e] none = s.setCtx k
      ((s.ctxAt k).ranWith e (tyOf (s.ctxAt k)) (vlOf (s.ctxAt k)) made) := by
    have taken (t : State) : t.eraseTaken k made = t := by rw [State.eraseTaken, quiet.take]
    have g : ([(e, made)].filterMap fun x => x.2.g.map fun v => (x.1.m.d, v)).head? = made.g.map fun v => (e.m.d, v) := by
      cases h : made.g <;> simp [h]
    unfold Pass.ran
    rw [mades, List.foldl_cons, List.foldl_nil, taken, state, List.zip_cons_cons, List.zip_nil_right, g]
    simp only [List.filterMap_cons, List.filterMap_nil, quiet.push, List.head?_nil]
    exact State.setCtx_self_of_onCtx ..
  have charged (t : State) (ty g : Nat) : t.chargeChained k ty g [] [e] = t := by
    unfold State.chargeChained
    simp [sourceOf, State.chargeChained]
  refine ⟨_, rfl, ?_⟩
  have ran' : (s.pass k (bitsOf ((s.ctxAt k).crGet 0x100) 0 14) [e]).ran k [e] none = _ := ran
  have stops' : (s.pass k (bitsOf ((s.ctxAt k).crGet 0x100) 0 14) [e]).stops = [] := stops
  have short' : (s.pass k (bitsOf ((s.ctxAt k).crGet 0x100) 0 14) [e]).short = none := short
  unfold State.runConvoy
  dsimp only
  rw [convoy, short', stops', ran']
  dsimp only [List.isEmpty_nil]
  rw [if_pos rfl, State.ranGroups, charged]
  exact (OnlyAsked.of_tally ..).freshen _

/-! ### A member issues, its convoy runs and drains (R44, R130) -/

theorem State.queued_ctxAt (s : State) (v : VInstr) : (s.queued v).ctxAt s.cur = s.me.standing (s.me.entryOf s.ir v true) v.m.syncs :=
  State.ctxAt_setCtx_same ..

/-- The sequencer of a core serves the strand that VReady names in every state that differs from its own beside that strand's place. -/
theorem vectorStrand_of_ready {s t : State} {v : VInstr} (ready : VReady s v) (beside : Beside s.cur s t) (vec : (t.ctxAt s.cur).vec = true)
    (here : (t.ctxAt s.cur).here = s.me.here) (input : t.input.core = BitVec.ofNat 8 s.myCore) : t.vectorStrand t.input.core.toNat = some s.cur := by
  obtain ⟨strand, -, -, -, -, only, core, -, -, -, -⟩ := ready
  have on : t.coreOf s.cur = s.myCore := by rw [State.coreOf, here]; rfl
  have key : s.cur < 4096 := Nat.lt_of_not_le (of_decide_eq_false strand)
  rw [input, BitVec.toNat_ofNat, Nat.mod_eq_of_lt core]
  refine State.vectorStrand_eq key vec on fun j hj hon => ?_
  by_contra ne
  have same := beside.others j ne
  exact ne (only j (same ▸ hj) (by rw [← hon, State.coreOf, State.coreOf, same]))

theorem exec_convoyOpen (s : State) : exec .convoyOpen s = execConvoyOpen s := rfl
theorem exec_convoyDrain (s : State) : exec .convoyDrain s = execConvoyDrain s := rfl

/-- What a member makes alone in its convoy, as the state it issues in gives it. -/
def State.Makes (s : State) (v : VInstr) (made : Made) : Prop :=
  let e := s.me.entryOf s.ir v true
  ((s.queued v).viewOf s.cur e).make (s.queued v) s.cur e (vlOf s.me) = (made, s.queued v) ∧ made.Quiet e (vlOf s.me)

/-- A member that waits for nothing and makes something quiet runs alone: its strand is left drained, and nothing else has changed but counters and
messages. -/
theorem runsAlone_of_makes {i : Instr} {s : State} {v : VInstr} {made : Made} (issue : exec i s = s.issueVector i) (hv : opOf i = some v)
    (ready : VReady s v) (op : v.m.op.pipe ≠ .vset ∧ v.m.op.pipe ≠ .vls) (free : v.m.op.free = true)
    (coord : v.m.syncs = true → s.me.isCoord v.m.d = false) (makes : s.Makes v made) :
    let e := s.me.entryOf s.ir v true
    ∃ t, RunsAlone i s t ∧ Beside s.cur s t ∧ t.ctxAt s.cur = ((s.me.standing e v.m.syncs).ranWith e (tyOf s.me) (vlOf s.me) made).drain (made.running e) := by
  intro e
  have ok := convoyOk_of_ready ready op.1
  obtain ⟨s1, issued, after⟩ := State.issueVector_ready hv ready op.1 coord
  obtain ⟨-, vec, hold, queue, running, -, -, -, -, -, -⟩ := id ready
  obtain ⟨make, quiet⟩ := makes
  have kind : e.m.op = v.m.op := by
    show (if s.me.rotating then v.m.rotate s.me.rb.toNat else v.m).op = v.m.op
    split <;> rfl
  -- the convoy opens
  obtain ⟨r, hr⟩ : ∃ r, r = s.queued v := ⟨_, rfl⟩
  have me : r.ctxAt s.cur = s.me.standing e v.m.syncs := hr ▸ s.queued_ctxAt v
  have keeps := s.me.standing_keeps e v.m.syncs
  have toQueued : Beside s.cur s r := hr ▸ (Beside.of_setCtx ..).trans (.of_input ..)
  have line : (r.ctxAt s.cur).queue = [.entry e] := by rw [me, Ctx.standing_queue, queue]; rfl
  have vl : vlOf (r.ctxAt s.cur) = vlOf s.me := by rw [me, vlOf, Ctx.crGet, keeps.cr]; rfl
  have ty : tyOf (r.ctxAt s.cur) = tyOf s.me := by rw [me, tyOf, Ctx.crGet, keeps.cr]; rfl
  have opens : r.opening s.cur = some .run := by
    refine State.opening_run (e := e) (by rw [me, keeps.vec, vec]) ?_ (by rw [me, keeps.running, running]) line
      (by rw [me, Ctx.standing_open]) (kind ▸ free) (kind ▸ op.1) (by rw [vl, ty]; exact ok)
    rw [me, Ctx.standing_hold]
    split
    · exact Hold.noConfusion
    · exact hold
  have serves : r.vectorStrand r.input.core.toNat = some s.cur :=
    vectorStrand_of_ready ready toQueued (by rw [me, keeps.vec, vec]) (by rw [me, keeps.here]) (by rw [hr]; rfl)
  obtain ⟨s2, runs, asked⟩ := State.runConvoy_single (s := r) line (by rw [vl]; exact hr ▸ make) (vl ▸ quiet) (kind ▸ op.2)
  have opened : exec .convoyOpen r = .next s2 := by
    rw [exec_convoyOpen, execConvoyOpen, serves]
    show Host.Outcome.next (r.openConvoy s.cur) = _
    rw [State.openConvoy, opens]
    exact congrArg _ runs
  have toRan : Beside s.cur r s2 := (Beside.of_setCtx ..).trans (.of_asked asked _)
  have ran : s2.ctxAt s.cur = (s.me.standing e v.m.syncs).ranWith e (tyOf s.me) (vlOf s.me) made := by
    rw [asked.ctxAt, State.ctxAt_setCtx_same, vl, ty, me]
  -- it drains
  have kept := Ctx.OnlyCommitted.of_committed (s.me.standing e v.m.syncs) e (tyOf s.me) (vlOf s.me) made.elems
  obtain ⟨_, _, _, _, data⟩ := kept.parts
  have serves2 : s2.vectorStrand s2.input.core.toNat = some s.cur := by
    refine vectorStrand_of_ready ready (toQueued.trans toRan) ?_ ?_ ?_
    · rw [ran, Ctx.ranWith, data]; exact keeps.vec.trans vec
    · rw [ran, Ctx.ranWith, data]; exact keeps.here
    · rw [asked.input]; rw [hr]; rfl
  have drains : exec .convoyDrain s2 = .next
      ((s2.onCtx s.cur fun c => c.drain (made.running e)).tally (s2.coreOf s.cur) s.cur 4 1) := by
    rw [exec_convoyDrain, execConvoyDrain, serves2]
    show Host.Outcome.next (s2.drainConvoy s.cur) = _
    rw [State.drainConvoy, ran]
    rfl
  refine ⟨_, ⟨s1, s2, issue.trans issued, by rw [after, ← hr]; exact opened, drains⟩, ?_, ?_⟩
  · exact (toQueued.trans toRan).trans ((Beside.of_setCtx ..).trans (.of_asked (.of_tally ..) _))
  · rw [(OnlyAsked.of_tally ..).ctxAt, State.ctxAt_onCtx, if_pos rfl, ran]

end Sys2Proof.Machine
end

section
namespace Sys2Proof.Machine
open Sys2Proof.Claims

/-! ### The registers after a commit (R246, R250, R251, R255) -/

theorem vraw_congr {c d : Ctx} (h : c.vreg = d.vreg) (r w j : Nat) : c.vraw r w j = d.vraw r w j := by
  unfold Ctx.vraw
  rw [h]

theorem vbyte_congr {c d : Ctx} (h : c.vreg = d.vreg) (r b : Nat) : c.vbyte r b = d.vbyte r b := by
  unfold Ctx.vbyte
  rw [h]

theorem mbit_congr {c d : Ctx} (h : c.mreg = d.mreg) (r j : Nat) : c.mbit r j = d.mbit r j := by
  unfold Ctx.mbit
  rw [h]

/-- An element keeps its value when its bits do. -/
theorem vraw_eq_of_vbit {c d : Ctx} {r w j : Nat} (hw : w ∈ [2, 4, 8, 16, 32, 64]) (h : ∀ b, b < w → c.vbit r (w * j + b) = d.vbit r (w * j + b)) :
    c.vraw r w j = d.vraw r w j := by
  apply Nat.eq_of_testBit_eq
  intro b
  by_cases hb : b < w
  · rw [vraw_testBit c r j b hw hb, vraw_testBit d r j b hw hb, h b hb]
  · have hp : 2 ^ w ≤ 2 ^ b := Nat.pow_le_pow_right (by decide) (by omega)
    rw [Nat.testBit_lt_two_pow (Nat.lt_of_lt_of_le (vraw_lt c r j hw) hp), Nat.testBit_lt_two_pow (Nat.lt_of_lt_of_le (vraw_lt d r j hw) hp)]

/-- A write of one element leaves every other element of its width. -/
theorem vraw_vput_other (c : Ctx) {r w i j v : Nat} (hw : w ∈ [2, 4, 8, 16, 32, 64]) (hi : i * w + w ≤ 16384) (hj : j * w + w ≤ 16384) (ne : j ≠ i) :
    (c.vput r w i v).vraw r w j = c.vraw r w j := by
  refine vraw_eq_of_vbit hw fun b hb => ?_
  have hm : w * j = j * w := Nat.mul_comm ..
  rw [vbit_vput c r i v r _ hw hi (by omega), if_neg]
  rintro ⟨-, h1, h2⟩
  rcases Nat.lt_or_gt_of_ne ne with lt | gt
  · have := Nat.mul_le_mul_left w lt
    rw [Nat.succ_eq_add_one, Nat.mul_add] at this
    omega
  · have := Nat.mul_le_mul_left w gt
    rw [Nat.succ_eq_add_one, Nat.mul_add] at this
    omega

/-- A byte is what its bits are. -/
theorem vbyte_eq_of_vbit {c d : Ctx} {r b : Nat} (h : ∀ n, n / 8 = b → c.vbit r n = d.vbit r n) : c.vbyte r b = d.vbyte r b := by
  apply BitVec.eq_of_getLsbD_eq
  intro n hn
  have eq := h (8 * b + n) (by omega)
  rwa [Ctx.vbit, Ctx.vbit, show (8 * b + n) / 8 = b by omega, show (8 * b + n) % 8 = n by omega] at eq

theorem vbyte_vput_other (c : Ctx) {r q w i v b : Nat} (hw : w ∈ [2, 4, 8, 16, 32, 64]) (hi : i * w + w ≤ 16384) (ne : q ≠ r) (hb : b < 2048) :
    (c.vput r w i v).vbyte q b = c.vbyte q b := by
  refine vbyte_eq_of_vbit fun n hn => ?_
  rw [vbit_vput c r i v q n hw hi (by omega), if_neg fun h => ne h.1]

theorem vput_mreg (c : Ctx) (r w i v : Nat) : (c.vput r w i v).mreg = c.mreg := by
  unfold Ctx.vput
  dsimp only
  split <;> rfl

theorem vput_cr (c : Ctx) (r w i v : Nat) : (c.vput r w i v).cr = c.cr := by
  unfold Ctx.vput
  dsimp only
  split <;> rfl

/-- An element below VL lies in its register. -/
theorem element_fits {ty vl j : Nat} (hvl : vl ≤ vlMax ty) (hj : j < vl) : j * typeWidth ty + typeWidth ty ≤ 16384 := by
  calc j * typeWidth ty + typeWidth ty = (j + 1) * typeWidth ty := (Nat.succ_mul ..).symm
    _ ≤ 16384 / typeWidth ty * typeWidth ty := Nat.mul_le_mul_right _ (Nat.le_trans hj hvl)
    _ ≤ 16384 := Nat.div_mul_le_self ..

theorem vlMax_le (ty : Nat) : vlMax ty ≤ 8192 := by
  have h := typeWidth_mem ty
  unfold vlMax
  revert h
  generalize typeWidth ty = w
  revert w
  decide

/-! #### One element -/

/-- An element of a member with neither a mask destination nor a side register. -/
def Elem.Plain (x : Elem) : Prop := x.bit = none ∧ x.side = []

/-- What a commit of one element leaves in the vector registers. -/
def Ctx.putElem (c : Ctx) (dest : Option (Nat × Nat)) (x : Elem) : Ctx :=
  match x.val, dest with
  | some v, some (r, w) => c.vput r w x.i v
  | _, _ => c

theorem putElem_some (c : Ctx) {x : Elem} {v : Nat} (h : x.val = some v) (d w : Nat) : c.putElem (some (d, w)) x = c.vput d w x.i v := by
  unfold Ctx.putElem
  rw [h]

theorem putElem_none (c : Ctx) {x : Elem} (h : x.val = none) (dest : Option (Nat × Nat)) : c.putElem dest x = c := by
  unfold Ctx.putElem
  rw [h]

theorem putElem_mreg (c : Ctx) (dest : Option (Nat × Nat)) (x : Elem) : (c.putElem dest x).mreg = c.mreg := by
  unfold Ctx.putElem
  split
  · exact vput_mreg ..
  · rfl

theorem putElem_cr (c : Ctx) (dest : Option (Nat × Nat)) (x : Elem) : (c.putElem dest x).cr = c.cr := by
  unfold Ctx.putElem
  split
  · exact vput_cr ..
  · rfl

theorem commitElem_plain (c : Ctx) (e : Entry) (ty : Nat) {x : Elem} (h : x.Plain) :
    c.commitElem e ty x = ((if e.m.x then (c.putElem (e.m.vdest ty e.set) x).setMbit e.m.emask x.i (excBit x.flags)
      else c.putElem (e.m.vdest ty e.set) x).orFlags x.flags).addOcount (if x.flags &&& flagOVFO != 0 then 1 else 0) := by
  unfold Ctx.commitElem
  dsimp only
  rw [h.1, h.2, List.foldl_nil]
  rfl

theorem commitElem_vreg (c : Ctx) (e : Entry) (ty : Nat) {x : Elem} (h : x.Plain) :
    (c.commitElem e ty x).vreg = (c.putElem (e.m.vdest ty e.set) x).vreg := by
  rw [commitElem_plain c e ty h]
  split <;> rfl

theorem commitElem_mreg (c : Ctx) (e : Entry) (ty : Nat) {x : Elem} (h : x.Plain) :
    (c.commitElem e ty x).mreg = (if e.m.x then c.setMbit e.m.emask x.i (excBit x.flags) else c).mreg := by
  rw [commitElem_plain c e ty h]
  split
  · show ((c.putElem (e.m.vdest ty e.set) x).setMbit e.m.emask x.i (excBit x.flags)).mreg = _
    rw [Ctx.setMbit, putElem_mreg]
    rfl
  · exact putElem_mreg ..

theorem commitElem_flags (c : Ctx) (e : Entry) (ty : Nat) {x : Elem} (h : x.Plain) : (c.commitElem e ty x).flags = c.flags ||| x.flags := by
  have whole (d : Ctx) (hd : d.cr = c.cr) (n : Nat) : ((d.orFlags x.flags).addOcount n).flags = c.flags ||| x.flags := by
    rw [Ctx.flags, Ctx.addOcount, Ctx.crGet_crSet, if_neg (by decide), Ctx.orFlags, Ctx.crGet_crSet, if_pos rfl, Ctx.flags, Ctx.crGet, hd,
      BitVec.setWidth_setWidth_of_le _ (by decide), BitVec.setWidth_eq]
    rfl
  rw [commitElem_plain c e ty h]
  refine whole _ ?_ _
  split <;> exact putElem_cr ..

/-! #### The elements together -/

section
variable {e : Entry} {ty : Nat} {xs : List Elem}

/-- The registers after the elements of a member. -/
def Ctx.commitElems (c : Ctx) (e : Entry) (ty : Nat) (xs : List Elem) : Ctx := xs.foldl (fun c x => c.commitElem e ty x) c

theorem commitElems_cons (c : Ctx) (x : Elem) : c.commitElems e ty (x :: xs) = (c.commitElem e ty x).commitElems e ty xs := rfl

theorem commitElems_flags (c : Ctx) (plain : ∀ x ∈ xs, x.Plain) (n : Nat) :
    (c.commitElems e ty xs).flags.getLsbD n = true ↔ c.flags.getLsbD n = true ∨ ∃ x ∈ xs, x.flags.getLsbD n = true := by
  induction xs generalizing c with
  | nil => simp [Ctx.commitElems]
  | cons x xs ih =>
    rw [commitElems_cons, ih _ fun y hy => plain y (List.mem_cons_of_mem _ hy), commitElem_flags c e ty (plain x List.mem_cons_self),
      BitVec.getLsbD_or, Bool.or_eq_true, or_assoc, List.exists_mem_cons_iff]

theorem commitElems_dirty (c : Ctx) (plain : ∀ x ∈ xs, x.Plain) : (c.commitElems e ty xs).crGet 0x10A = c.crGet 0x10A := by
  induction xs generalizing c with
  | nil => rfl
  | cons x xs ih =>
    rw [commitElems_cons, ih _ fun y hy => plain y (List.mem_cons_of_mem _ hy), commitElem_plain c e ty (plain x List.mem_cons_self), Ctx.addOcount,
      Ctx.crGet_crSet, if_neg (by decide), Ctx.orFlags, Ctx.crGet_crSet, if_neg (by decide), Ctx.crGet, Ctx.crGet]
    split <;> exact congrArg (Sparse.get 0 · _) (putElem_cr ..)

variable {d w : Nat} (dest : e.m.vdest ty e.set = some (d, w)) (hw : w ∈ [2, 4, 8, 16, 32, 64])
include dest hw

theorem commitElems_vbyte (c : Ctx) (plain : ∀ x ∈ xs, x.Plain) (fits : ∀ x ∈ xs, x.i * w + w ≤ 16384) {q b : Nat} (ne : q ≠ d) (hb : b < 2048) :
    (c.commitElems e ty xs).vbyte q b = c.vbyte q b := by
  induction xs generalizing c with
  | nil => rfl
  | cons x xs ih =>
    rw [commitElems_cons, ih _ (fun y hy => plain y (List.mem_cons_of_mem _ hy)) (fun y hy => fits y (List.mem_cons_of_mem _ hy)),
      vbyte_congr (commitElem_vreg c e ty (plain x List.mem_cons_self)), dest]
    cases hv : x.val with
    | none => rw [putElem_none c hv]
    | some v => rw [putElem_some c hv, vbyte_vput_other c hw (fits x List.mem_cons_self) ne hb]

/-- An element that no commit gives a value keeps its own. -/
theorem commitElems_vraw_kept (c : Ctx) (plain : ∀ x ∈ xs, x.Plain) (fits : ∀ x ∈ xs, x.i * w + w ≤ 16384) {j : Nat} (hj : j * w + w ≤ 16384)
    (none_ : ∀ x ∈ xs, x.i = j → x.val = none) : (c.commitElems e ty xs).vraw d w j = c.vraw d w j := by
  induction xs generalizing c with
  | nil => rfl
  | cons x xs ih =>
    rw [commitElems_cons, ih _ (fun y hy => plain y (List.mem_cons_of_mem _ hy)) (fun y hy => fits y (List.mem_cons_of_mem _ hy))
      (fun y hy => none_ y (List.mem_cons_of_mem _ hy)), vraw_congr (commitElem_vreg c e ty (plain x List.mem_cons_self)), dest]
    cases hv : x.val with
    | none => rw [putElem_none c hv]
    | some v =>
      rw [putElem_some c hv]
      refine vraw_vput_other c hw (fits x List.mem_cons_self) hj fun eq => ?_
      rw [none_ x List.mem_cons_self eq.symm] at hv
      cases hv

/-- An element that a commit gives a value has it. -/
theorem commitElems_vraw_put (c : Ctx) (plain : ∀ x ∈ xs, x.Plain) (fits : ∀ x ∈ xs, x.i * w + w ≤ 16384) (apart : xs.Pairwise fun x y => x.i ≠ y.i)
    {x : Elem} (hx : x ∈ xs) {v : Nat} (hv : x.val = some v) (lt : v < 2 ^ w) : (c.commitElems e ty xs).vraw d w x.i = v := by
  induction xs generalizing c with
  | nil => cases hx
  | cons y xs ih =>
    obtain ⟨head, tail⟩ := List.pairwise_cons.mp apart
    have plain' : ∀ x ∈ xs, x.Plain := fun y hy => plain y (List.mem_cons_of_mem _ hy)
    have fits' : ∀ x ∈ xs, x.i * w + w ≤ 16384 := fun y hy => fits y (List.mem_cons_of_mem _ hy)
    rw [commitElems_cons]
    rcases List.mem_cons.mp hx with rfl | hx
    · rw [commitElems_vraw_kept dest hw _ plain' fits' (fits x List.mem_cons_self) fun z hz same => absurd same.symm (head z hz),
        vraw_congr (commitElem_vreg c e ty (plain x List.mem_cons_self)), dest, putElem_some c hv]
      exact vraw_vput c d x.i v hw (fits x List.mem_cons_self) lt
    · exact ih _ plain' fits' tail hx

omit dest hw

/-- A mask bit that is no exception bit of an element stays. -/
theorem commitElems_mbit_kept (c : Ctx) (plain : ∀ x ∈ xs, x.Plain) (fits : ∀ x ∈ xs, x.i < 8192) {q n : Nat} (hn : n < 8192)
    (other : ∀ x ∈ xs, e.m.x = true → ¬ (q = e.m.emask ∧ n = x.i)) : (c.commitElems e ty xs).mbit q n = c.mbit q n := by
  induction xs generalizing c with
  | nil => rfl
  | cons x xs ih =>
    rw [commitElems_cons, ih _ (fun y hy => plain y (List.mem_cons_of_mem _ hy)) (fun y hy => fits y (List.mem_cons_of_mem _ hy))
      (fun y hy => other y (List.mem_cons_of_mem _ hy)), mbit_congr (commitElem_mreg c e ty (plain x List.mem_cons_self))]
    split
    · next hx => rw [mbit_setMbit c _ _ q n _ (fits x List.mem_cons_self) hn, if_neg (other x List.mem_cons_self hx)]
    · rfl

/-- Under x = 1 each element leaves its exception bit. -/
theorem commitElems_mbit_put (c : Ctx) (plain : ∀ x ∈ xs, x.Plain) (fits : ∀ x ∈ xs, x.i < 8192) (apart : xs.Pairwise fun x y => x.i ≠ y.i)
    (hm : e.m.x = true) {x : Elem} (hx : x ∈ xs) : (c.commitElems e ty xs).mbit e.m.emask x.i = excBit x.flags := by
  induction xs generalizing c with
  | nil => cases hx
  | cons y xs ih =>
    obtain ⟨head, tail⟩ := List.pairwise_cons.mp apart
    have plain' : ∀ x ∈ xs, x.Plain := fun y hy => plain y (List.mem_cons_of_mem _ hy)
    have fits' : ∀ x ∈ xs, x.i < 8192 := fun y hy => fits y (List.mem_cons_of_mem _ hy)
    rw [commitElems_cons]
    rcases List.mem_cons.mp hx with rfl | hx
    · rw [commitElems_mbit_kept _ plain' fits' (fits x List.mem_cons_self) fun z hz _ same => head z hz same.2,
        mbit_congr (commitElem_mreg c e ty (plain x List.mem_cons_self)), if_pos hm,
        mbit_setMbit c _ _ _ _ _ (fits x List.mem_cons_self) (fits x List.mem_cons_self), if_pos ⟨rfl, rfl⟩]
    · exact ih _ plain' fits' tail hx

end

end Sys2Proof.Machine
end

section
namespace Sys2Proof.Machine
open Sys2Proof.Claims

/-! #### LEN, %vdirty and the bits beyond VL -/

/-- Clearing a mask from bit n on changes no other bit. -/
theorem mbit_clearMask (c : Ctx) {r n q j : Nat} (hn : n ≤ 8192) (hj : j < 8192) :
    (c.clearMask r n).mbit q j = if q = r ∧ n ≤ j then false else c.mbit q j := by
  have bits (is : List Nat) (his : ∀ i ∈ is, n + i < 8192) (c : Ctx) : (is.foldl (fun c i => c.setMbit r (n + i) false) c).mbit q j
      = if q = r ∧ ∃ i ∈ is, j = n + i then false else c.mbit q j := by
    induction is generalizing c with
    | nil => simp
    | cons i is ih =>
      rw [List.foldl_cons, ih fun k hk => his k (List.mem_cons_of_mem _ hk), mbit_setMbit c r _ q j _ (his i List.mem_cons_self) hj]
      by_cases hq : q = r <;> by_cases hi : j = n + i <;> simp [hq, hi]
  have bytes (c : Ctx) : (({ c with mreg := Sparse.without c.mreg (1024 * r + ceilDiv n 8) (1024 * r + 1024) } : Ctx)).mbit q j
      = if q = r ∧ ceilDiv n 8 ≤ j / 8 then false else c.mbit q j := by
    have same : (1024 * r + ceilDiv n 8 ≤ 1024 * q + j / 8 ∧ 1024 * q + j / 8 < 1024 * r + 1024) ↔ q = r ∧ ceilDiv n 8 ≤ j / 8 := by
      unfold ceilDiv
      omega
    rw [Ctx.mbit, Sparse.get_without, if_congr same rfl rfl]
    split
    · exact BitVec.getLsbD_zero
    · rfl
  have either : (q = r ∧ n ≤ j) ↔ (q = r ∧ ceilDiv n 8 ≤ j / 8) ∨ (q = r ∧ ∃ i ∈ List.range ((8 - n % 8) % 8), j = n + i) := by
    unfold ceilDiv
    constructor
    · rintro ⟨hq, le⟩
      by_cases high : (n + 8 - 1) / 8 ≤ j / 8
      · exact .inl ⟨hq, high⟩
      · exact .inr ⟨hq, j - n, List.mem_range.mpr (by omega), by omega⟩
    · rintro (⟨hq, le⟩ | ⟨hq, i, -, rfl⟩)
      · exact ⟨hq, by omega⟩
      · exact ⟨hq, by omega⟩
  unfold Ctx.clearMask
  dsimp only
  rw [bytes, bits _ fun i hi => by have := List.mem_range.mp hi; omega, if_congr either rfl rfl, ite_or]

/-- A member without a mask destination leaves, of the masks, only the bits of its exception mask from VL on cleared. -/
theorem commitMasks_eq (c : Ctx) (e : Entry) (vl : Nat) (mdest : e.m.mdest = none) :
    c.commitMasks e vl = if vl ≠ 0 ∧ e.m.x = true then c.clearMask e.m.emask vl else c := by
  unfold Ctx.commitMasks
  rw [mdest]
  dsimp only
  by_cases h0 : vl = 0
  · rw [if_pos h0, if_neg fun h => h.1 h0]
  · rw [if_neg h0, if_congr (and_iff_right h0) rfl rfl]

theorem clearMask_keeps (c : Ctx) (r n : Nat) : (c.clearMask r n).vreg = c.vreg ∧ (c.clearMask r n).len = c.len ∧ (c.clearMask r n).cr = c.cr := by
  have fold (is : List Nat) (c : Ctx) : (is.foldl (fun c i => c.setMbit r (n + i) false) c).vreg = c.vreg
      ∧ (is.foldl (fun c i => c.setMbit r (n + i) false) c).len = c.len ∧ (is.foldl (fun c i => c.setMbit r (n + i) false) c).cr = c.cr := by
    induction is generalizing c with
    | nil => exact ⟨rfl, rfl, rfl⟩
    | cons i is ih => exact ih _
  exact fold _ c

theorem commitMasks_keeps (c : Ctx) (e : Entry) (vl : Nat) (mdest : e.m.mdest = none) :
    (c.commitMasks e vl).vreg = c.vreg ∧ (c.commitMasks e vl).len = c.len ∧ (c.commitMasks e vl).cr = c.cr := by
  rw [commitMasks_eq c e vl mdest]
  split
  · exact clearMask_keeps ..
  · exact ⟨rfl, rfl, rfl⟩

/-- A member without a side register leaves LEN and %vdirty of its destination where it gave a value. -/
theorem commitLens_eq (c : Ctx) (e : Entry) (ty vl : Nat) {xs : List Elem} (plain : ∀ x ∈ xs, x.Plain) {d w : Nat}
    (dest : e.m.vdest ty e.set = some (d, w)) :
    c.commitLens e ty vl xs = if xs.any (·.val.isSome) then (c.setLen d (ceilDiv (vl * w) 8)).setDirty d else c := by
  have side : xs.flatMap (·.side) = [] := List.flatMap_eq_nil_iff.mpr fun x hx => (plain x hx).2
  unfold Ctx.commitLens
  rw [side, dest]
  rfl

theorem commitLens_none (c : Ctx) (e : Entry) (ty vl : Nat) {xs : List Elem} (plain : ∀ x ∈ xs, x.Plain) (dest : e.m.vdest ty e.set = none) :
    c.commitLens e ty vl xs = c := by
  have side : xs.flatMap (·.side) = [] := List.flatMap_eq_nil_iff.mpr fun x hx => (plain x hx).2
  unfold Ctx.commitLens
  rw [side, dest]
  rfl

theorem commitLens_keeps (c : Ctx) (e : Entry) (ty vl : Nat) {xs : List Elem} (plain : ∀ x ∈ xs, x.Plain) :
    (c.commitLens e ty vl xs).mreg = c.mreg ∧ (c.commitLens e ty vl xs).flags = c.flags := by
  cases hd : e.m.vdest ty e.set with
  | none => rw [commitLens_none c e ty vl plain hd]; exact ⟨rfl, rfl⟩
  | some p =>
    rw [commitLens_eq c e ty vl plain hd]
    split
    · refine ⟨rfl, ?_⟩
      rw [Ctx.flags, Ctx.setDirty, Ctx.crGet_crSet, if_neg (by decide)]
      rfl
    · exact ⟨rfl, rfl⟩

/-- LEN of VL elements forgets no element below VL. -/
theorem vraw_setLen (c : Ctx) (r q : Nat) {w vl j : Nat} (hw : w ∈ [2, 4, 8, 16, 32, 64]) (fits : vl * w ≤ 16384) (hj : j < vl) :
    (c.setLen r (ceilDiv (vl * w) 8)).vraw q w j = c.vraw q w j := by
  refine vraw_eq_of_vbit hw fun b hb => ?_
  have end_ : w * j + w ≤ vl * w := by
    rw [Nat.mul_comm vl, ← Nat.mul_succ]
    exact Nat.mul_le_mul_left w hj
  rw [Ctx.vbit, vbyte_setLen c r _ q _ (by unfold ceilDiv; omega) (by omega), if_neg, Ctx.vbit]
  rintro ⟨-, le⟩
  unfold ceilDiv at le
  omega

end Sys2Proof.Machine
end

section
namespace Sys2Proof.Machine
open Sys2Proof.Claims

/-! #### The whole commit, in the words of the claims -/

/-- Two contexts agree on vector registers, masks, lengths and every control register but %vstart. -/
structure Ctx.SameVec (c d : Ctx) : Prop where
  vreg : d.vreg = c.vreg
  mreg : d.mreg = c.mreg
  len : d.len = c.len
  crGet : ∀ n, n ≠ 0x102 → d.crGet n = c.crGet n

theorem Ctx.SameData.sameVec {c d : Ctx} (h : c.SameData d) : c.SameVec d :=
  ⟨h.vreg, h.mreg, h.len, fun n _ => by rw [Ctx.crGet, Ctx.crGet, h.cr]⟩

theorem Ctx.SameVec.trans {c d e : Ctx} (h : c.SameVec d) (g : d.SameVec e) : c.SameVec e :=
  ⟨g.vreg.trans h.vreg, g.mreg.trans h.mreg, g.len.trans h.len, fun n hn => (g.crGet n hn).trans (h.crGet n hn)⟩

theorem Ctx.SameVec.flags {c d : Ctx} (h : c.SameVec d) : d.flags = c.flags := by rw [Ctx.flags, Ctx.flags, h.crGet _ (by decide)]

theorem Ctx.SameVec.vlOf {c d : Ctx} (h : c.SameVec d) : Claims.vlOf d = Claims.vlOf c := by rw [Claims.vlOf, Claims.vlOf, h.crGet _ (by decide)]

theorem keepsRegs_congr {c d u v : Ctx} (h : c.SameVec d) (g : u.SameVec v) {vs ms : List Nat} (k : KeepsRegs d u vs ms) : KeepsRegs c v vs ms :=
  ⟨fun r b hr hv hb => by rw [vbyte_congr g.vreg, k.1 r b hr hv hb, vbyte_congr h.vreg],
    fun r j hr hm hj => by rw [mbit_congr g.mreg, k.2 r j hr hm hj, mbit_congr h.mreg]⟩

theorem flagsRaised_congr {c d u v : Ctx} (h : c.SameVec d) (g : u.SameVec v) {act : Nat → Prop} {fl : Nat → Flags} (k : FlagsRaised d u act fl) :
    FlagsRaised c v act fl := fun n hn => by rw [g.flags, k n hn, h.flags]

theorem vectorResult_congr {c d u v : Ctx} (h : c.SameVec d) (g : u.SameVec v) {act : Nat → Prop} {r w : Nat} {val : Nat → Nat}
    (k : VectorResult d u act r w val) : VectorResult c v act r w val := by
  obtain ⟨values, lens⟩ := k
  rw [VectorResult, ← h.vlOf]
  refine ⟨fun j hj => ?_, fun some_ => ?_⟩
  · rw [vraw_congr g.vreg, ← vraw_congr h.vreg]
    exact values j hj
  · rw [Ctx.lenOf, g.len, g.crGet _ (by decide), ← h.crGet _ (by decide)]
    exact lens some_

theorem exceptionMask_congr {c d u v : Ctx} (h : c.SameVec d) (g : u.SameVec v) {m : Member} {act : Nat → Prop} {fl : Nat → Flags}
    (k : ExceptionMask d u m act fl) : ExceptionMask c v m act fl := by
  intro hx j hj
  rw [mbit_congr g.mreg, ← mbit_congr h.mreg, ← h.vlOf]
  exact k hx j hj

section
variable {c : Ctx} {e : Entry} {ty vl : Nat} {xs : List Elem}

theorem committed_flags (mdest : e.m.mdest = none) (plain : ∀ x ∈ xs, x.Plain) (n : Nat) :
    (c.committed e ty vl xs).flags.getLsbD n = true ↔ c.flags.getLsbD n = true ∨ ∃ x ∈ xs, x.flags.getLsbD n = true := by
  have cr := (commitMasks_keeps ((c.commitElems e ty xs).commitLens e ty vl xs) e vl mdest).2.2
  have same : (c.committed e ty vl xs).flags = (c.commitElems e ty xs).flags := by
    rw [← (commitLens_keeps (c.commitElems e ty xs) e ty vl plain).2, Ctx.flags, Ctx.flags, Ctx.crGet, Ctx.crGet, ← cr]
    rfl
  rw [same, commitElems_flags c plain]

/-- The elements of a member with a vector destination of its type and no mask destination. -/
structure Commits (c : Ctx) (e : Entry) (ty vl : Nat) (xs : List Elem) (d : Nat) : Prop where
  length : Claims.vlOf c = vl
  le : vl ≤ vlMax ty
  dest : e.m.vdest ty e.set = some (d, typeWidth ty)
  mdest : e.m.mdest = none
  plain : ∀ x ∈ xs, x.Plain
  below : ∀ x ∈ xs, x.i < vl
  apart : xs.Pairwise fun x y => x.i ≠ y.i

namespace Commits
variable {d : Nat} (h : Commits c e ty vl xs d)
include h

theorem fits : ∀ x ∈ xs, x.i * typeWidth ty + typeWidth ty ≤ 16384 := fun x hx => element_fits h.le (h.below x hx)

theorem inMask : ∀ x ∈ xs, x.i < 8192 := fun x hx => Nat.lt_of_lt_of_le (h.below x hx) (Nat.le_trans h.le (vlMax_le ty))

theorem bits_le : vl * typeWidth ty ≤ 16384 := Nat.le_trans (Nat.mul_le_mul_right _ h.le) (Nat.div_mul_le_self ..)

theorem vreg : (c.committed e ty vl xs).vreg = ((c.commitElems e ty xs).commitLens e ty vl xs).vreg := (commitMasks_keeps _ e vl h.mdest).1

/-- The masks after a commit: exception bits, and with VL not 0 no bit from VL on. -/
theorem mbit {q n : Nat} (hn : n < 8192) : (c.committed e ty vl xs).mbit q n
    = if (vl ≠ 0 ∧ e.m.x = true) ∧ q = e.m.emask ∧ vl ≤ n then false else (c.commitElems e ty xs).mbit q n := by
  have lens := mbit_congr (commitLens_keeps (c.commitElems e ty xs) e ty vl h.plain).1 q n
  show (((c.commitElems e ty xs).commitLens e ty vl xs).commitMasks e vl).mbit q n = _
  rw [commitMasks_eq _ e vl h.mdest]
  by_cases on : vl ≠ 0 ∧ e.m.x = true
  · rw [if_pos on, mbit_clearMask _ (Nat.le_trans h.le (vlMax_le ty)) hn, lens, if_congr (and_iff_right on) rfl rfl]
  · rw [if_neg on, lens, if_neg fun k => on k.1]

theorem keepsRegs : KeepsRegs c (c.committed e ty vl xs) [d] (masksOf e.m []) := by
  refine ⟨fun r b hr ne hb => ?_, fun r j hr ne hj => ?_⟩
  · rw [List.mem_singleton] at ne
    rw [vbyte_congr h.vreg, commitLens_eq _ e ty vl h.plain h.dest, ← commitElems_vbyte h.dest (typeWidth_mem ty) c h.plain h.fits ne hb]
    have len := vbyte_setLen (c.commitElems e ty xs) d (ceilDiv (vl * typeWidth ty) 8) r b (by have := h.bits_le; unfold ceilDiv; omega) hb
    rw [if_neg fun k => ne k.1] at len
    split
    · exact len
    · rfl
  · have other (hx : e.m.x = true) : r ≠ e.m.emask := by
      rintro rfl
      rw [masksOf, if_pos hx] at ne
      exact ne (List.mem_singleton.mpr rfl)
    rw [h.mbit hj, if_neg fun k => other k.1.2 k.2.1]
    exact commitElems_mbit_kept c h.plain h.inMask hj fun x _ hx k => other hx k.1

theorem flagsRaised {act : Nat → Prop} {fl : Nat → Flags} (from_ : ∀ x ∈ xs, x.flags = 0 ∨ act x.i ∧ x.flags = fl x.i)
    (all : ∀ j, act j → ∃ x ∈ xs, x.flags = fl j) : FlagsRaised c (c.committed e ty vl xs) act fl := by
  intro n _
  rw [committed_flags h.mdest h.plain]
  refine or_congr_right ⟨?_, ?_⟩
  · rintro ⟨x, hx, bit⟩
    rcases from_ x hx with zero | ⟨active, eq⟩
    · rw [zero, show (0 : Flags) = 0#8 from rfl, BitVec.getLsbD_zero] at bit
      cases bit
    · exact ⟨x.i, active, eq ▸ bit⟩
  · rintro ⟨j, active, bit⟩
    obtain ⟨x, hx, eq⟩ := all j active
    exact ⟨x, hx, eq ▸ bit⟩

theorem vectorResult {act : Nat → Prop} {val : Nat → Nat} (from_ : ∀ x ∈ xs, ¬ act x.i → x.val = none)
    (all : ∀ j, act j → val j < 2 ^ typeWidth ty ∧ ∃ x ∈ xs, x.i = j ∧ x.val = some (val j)) :
    VectorResult c (c.committed e ty vl xs) act d (typeWidth ty) val := by
  have lens := commitLens_eq (c.commitElems e ty xs) e ty vl h.plain h.dest
  have hw := typeWidth_mem ty
  refine ⟨fun j hj => ?_, fun ⟨j, active⟩ => ?_⟩
  · rw [h.length] at hj
    have fit := element_fits h.le hj
    have same : (c.committed e ty vl xs).vraw d (typeWidth ty) j = (c.commitElems e ty xs).vraw d (typeWidth ty) j := by
      rw [vraw_congr h.vreg, lens]
      split
      · exact vraw_setLen _ d d hw h.bits_le hj
      · rfl
    rw [same]
    refine ⟨fun active => ?_, fun idle => ?_⟩
    · obtain ⟨lt, x, hx, rfl, hv⟩ := all j active
      exact commitElems_vraw_put h.dest hw c h.plain h.fits h.apart hx hv lt
    · exact commitElems_vraw_kept h.dest hw c h.plain h.fits fit fun x hx eq => from_ x hx (eq ▸ idle)
  · obtain ⟨-, x, hx, -, hv⟩ := all j active
    have some_ : xs.any (·.val.isSome) = true := List.any_eq_true.mpr ⟨x, hx, by rw [hv]; rfl⟩
    obtain ⟨-, len, cr⟩ := commitMasks_keeps ((c.commitElems e ty xs).commitLens e ty vl xs) e vl h.mdest
    rw [if_pos some_] at lens
    constructor
    · show Sparse.get 0 (((c.commitElems e ty xs).commitLens e ty vl xs).commitMasks e vl).len d = _
      rw [len, lens, h.length]
      exact lenOf_setLen ..
    · show Sparse.get 0 (((c.commitElems e ty xs).commitLens e ty vl xs).commitMasks e vl).cr 0x10A = _
      rw [cr, lens, ← commitElems_dirty c h.plain]
      exact (Ctx.crGet_crSet ..).trans (if_pos rfl)

theorem exceptionMask {act : Nat → Prop} {fl : Nat → Flags} (from_ : ∀ x ∈ xs, act x.i)
    (all : ∀ j, act j → ∃ x ∈ xs, x.i = j ∧ x.flags = fl j) : ExceptionMask c (c.committed e ty vl xs) e.m act fl := by
  intro hx j hj
  rw [h.mbit hj, h.length]
  refine ⟨fun active => ?_, fun idle => ?_⟩
  · obtain ⟨x, mem, rfl, eq⟩ := all j active
    rw [if_neg fun k => absurd k.2.2 (Nat.not_le.mpr (h.below x mem)), commitElems_mbit_put c h.plain h.inMask h.apart hx mem, eq]
    rfl
  · have kept := commitElems_mbit_kept (e := e) (ty := ty) (q := e.m.emask) c h.plain h.inMask hj fun x mem _ k => idle (k.2 ▸ from_ x mem)
    rw [kept]
    by_cases low : j < vl ∨ vl = 0
    · rw [if_pos low, if_neg fun k => by omega]
    · rw [if_neg low, if_pos ⟨⟨fun z => low (.inr z), hx⟩, rfl, by omega⟩]

end Commits
end

end Sys2Proof.Machine
end

section
namespace Sys2Proof.Machine
open Sys2Proof.Claims

/-! ### A convoy of one member drains (R48, R130, R200) -/

/-- A register that a synchronising instruction writes is written, and nothing of the vector side changes. -/
theorem Ctx.wrSync_keeps (c : Ctx) (r : Nat) (v : W64) : c.SameData (c.wrSync r v) ∧ (c.wrSync r v).queue = c.queue ∧ (c.wrSync r v).WalksAs (c.wr r v) := by
  unfold Ctx.wrSync
  split
  · next h => subst h; exact ⟨⟨rfl, rfl, rfl, rfl, rfl, rfl, rfl, rfl⟩, rfl, ⟨rfl, rfl⟩, rfl⟩
  · rw [c.wr_eq r v]
    exact ⟨⟨rfl, rfl, rfl, rfl, rfl, rfl, rfl, rfl⟩, rfl, ⟨rfl, rfl⟩, rfl⟩

/-- The first step of a drain: the entries retire, and %vstart is 0. -/
def Ctx.retired (c : Ctx) : Ctx := { c with queue := [], running := none }.crSet 0x102 0

theorem Ctx.retired_sameVec (c : Ctx) : c.SameVec c.retired := ⟨rfl, rfl, rfl, fun _ hn => (Ctx.crGet_crSet ..).trans (if_neg hn)⟩

theorem Ctx.drain_none {c : Ctx} {e : Entry} (queue : c.queue = [.entry e]) (op : e.m.op.pipe ≠ .vset) : c.drain { n := 1 } = c.retired := by
  unfold Ctx.drain
  extract_lets set c1 c2 c3
  have noSet : set = false := by
    unfold set
    rw [queue]
    dsimp only
    split
    · next code eq => rw [eq] at op; exact absurd rfl op
    · rfl
  show c3 = _
  unfold c3 c2 c1
  rw [noSet, queue]
  rfl

/-- A synchronising member that the scalar pipe waits for writes its result as it drains, and control goes on. -/
theorem Ctx.drain_some {c : Ctx} {e : Entry} (queue : c.queue = [.entry e]) (op : e.m.op.pipe ≠ .vset) (again : c.again = true) (hold : c.hold = .vsync)
    (d : Nat) (v : W64) : c.drain { n := 1, g := some (d, v) } = { (c.retired.wrSync d v).advance with hold := .ready } := by
  have writes : c.drain { n := 1, g := some (d, v) } =
      (let c5 := if c.again then ((c.drain { n := 1 }).wrSync d v).advance else (c.drain { n := 1 }).wrSync d v
       if c.hold = .vsync then { c5 with hold := .ready } else c5) := rfl
  rw [writes, if_pos hold, if_pos again, Ctx.drain_none queue op]

/-- The registers of a strand after a convoy of one member hold what the member committed to registers that were the issuing strand's. -/
def CommittedFrom (s t : State) (e : Entry) (xs : List Elem) : Prop :=
  ∃ c, s.me.SameVec c ∧ (c.committed e (tyOf s.me) (vlOf s.me) xs).SameVec t.me

/-- The renaming inside a LOOPS changes only register names. -/
theorem memberOf_fields (c : Ctx) (v : VInstr) : (memberOf c v).op = v.m.op ∧ (memberOf c v).x = v.m.x ∧ (memberOf c v).emask = v.m.emask := by
  unfold memberOf
  split <;> exact ⟨rfl, rfl, rfl⟩

section
variable {i : Instr} {s : State} {v : VInstr} {made : Made} (issue : exec i s = s.issueVector i) (hv : opOf i = some v)
  (ready : VReady s v) (op : v.m.op.pipe ≠ .vset ∧ v.m.op.pipe ≠ .vls) (free : v.m.op.free = true) (makes : s.Makes v made)
include issue hv ready op free makes

/-- A member without a result for a general register leaves the strand at its next word. -/
theorem runsAlone_vector (syncs : v.m.syncs = false) (g : made.g = none) :
    ∃ t, RunsAlone i s t ∧ VRest s t ∧ KeepsMemory s t ∧ CommittedFrom s t (s.me.entryOf s.ir v true) made.elems := by
  obtain ⟨t, runs, beside, ctx⟩ := runsAlone_of_makes issue hv ready op free (fun h => absurd h (by rw [syncs]; exact Bool.false_ne_true)) makes
  obtain ⟨-, -, -, queue, -, -, -, -, -, -, -⟩ := ready
  have op' : (s.me.entryOf s.ir v true).m.op.pipe ≠ .vset := (memberOf_fields s.me v).1 ▸ op.1
  refine ⟨t, runs, ?_⟩
  generalize s.me.entryOf s.ir v true = e at ctx op' ⊢
  rw [syncs] at ctx
  have data := s.me.standing_keeps e false
  have line := s.me.standing_queue e false
  have walks := s.me.standing_walks e
  have kept := Ctx.OnlyCommitted.of_committed (s.me.standing e false) e (tyOf s.me) (vlOf s.me) made.elems
  generalize s.me.standing e false = c at ctx data line walks kept
  obtain ⟨_, _, _, _, parts⟩ := kept.parts
  have me : t.me = ((c.committed e (tyOf s.me) (vlOf s.me) made.elems)).retired := by
    have line' : (c.ranWith e (tyOf s.me) (vlOf s.me) made).queue = [.entry e] := by
      rw [Ctx.ranWith, parts]
      exact line.trans (by rw [queue]; rfl)
    rw [State.me, beside.cur, ctx, Made.running, g]
    exact Ctx.drain_none line' op'
  have crGet (n : Nat) (hn : n ∉ [0x102, 0x104, 0x109, 0x10A]) : t.me.crGet n = s.me.crGet n := by
    obtain ⟨h2, hrest⟩ := not_or.mp (mt List.mem_cons.mpr hn)
    rw [me, Ctx.retired, Ctx.crGet_crSet, if_neg h2]
    exact (kept.crGet n hrest).trans (by rw [Ctx.crGet, Ctx.crGet, data.cr])
  refine ⟨⟨?_, ?_, ?_, ?_, ?_, beside.acc _, ?_, crGet, beside.others, beside.cur, beside.sched⟩, fun q => (beside.mem q).2,
    c, data.sameVec, ?_⟩
  · rw [me, Ctx.retired, parts]; exact walks.g
  · rw [me, Ctx.retired, parts]; exact walks.pc
  · rw [me, Ctx.retired, parts]; exact walks.levels
  · rw [me]; rfl
  · rw [me]; rfl
  · rw [me, Ctx.retired, Ctx.crGet_crSet, if_pos rfl]
  · rw [me]; exact Ctx.retired_sameVec _

/-- A synchronising member gives its general register the result, and the strand goes on past it. -/
theorem runsAlone_general (syncs : v.m.syncs = true) (coord : s.me.isCoord v.m.d = false) {x : W64} (g : made.g = some x) :
    ∃ t, RunsAlone i s t ∧ t.me.g = ((s.me.wr (memberOf s.me v).d x).advance).g ∧ t.me.pc = s.me.advance.pc ∧ t.me.levels = s.me.advance.levels
      ∧ t.me.hold = .ready ∧ t.me.queue = [] ∧ t.me.running = none ∧ KeepsMemory s t ∧ (∀ k, k ≠ s.cur → t.ctxAt k = s.ctxAt k)
      ∧ CommittedFrom s t (s.me.entryOf s.ir v true) made.elems := by
  obtain ⟨t, runs, beside, ctx⟩ := runsAlone_of_makes issue hv ready op free (fun _ => coord) makes
  obtain ⟨-, -, -, queue, -, -, -, -, -, -, -⟩ := ready
  have op' : (s.me.entryOf s.ir v true).m.op.pipe ≠ .vset := (memberOf_fields s.me v).1 ▸ op.1
  refine ⟨t, runs, ?_⟩
  have dest : (s.me.entryOf s.ir v true).m = memberOf s.me v := rfl
  generalize s.me.entryOf s.ir v true = e at ctx op' dest ⊢
  rw [syncs] at ctx
  have data := s.me.standing_keeps e true
  have line := s.me.standing_queue e true
  have walks : (s.me.standing e true).WalksAs s.me := ⟨⟨rfl, rfl⟩, rfl⟩
  have held : (s.me.standing e true).again = true ∧ (s.me.standing e true).hold = .vsync := ⟨rfl, rfl⟩
  have kept := Ctx.OnlyCommitted.of_committed (s.me.standing e true) e (tyOf s.me) (vlOf s.me) made.elems
  generalize s.me.standing e true = c at ctx data line walks held kept
  obtain ⟨_, _, _, _, parts⟩ := kept.parts
  have me : t.me = { (((c.committed e (tyOf s.me) (vlOf s.me) made.elems).retired.wrSync (memberOf s.me v).d x).advance) with hold := .ready } := by
    have line' : (c.ranWith e (tyOf s.me) (vlOf s.me) made).queue = [.entry e] := by
      rw [Ctx.ranWith, parts]
      exact line.trans (by rw [queue]; rfl)
    have again : (c.ranWith e (tyOf s.me) (vlOf s.me) made).again = true := by rw [Ctx.ranWith, parts]; exact held.1
    have hold : (c.ranWith e (tyOf s.me) (vlOf s.me) made).hold = .vsync := by rw [Ctx.ranWith, parts]; exact held.2
    rw [State.me, beside.cur, ctx, Made.running, g, ← dest]
    exact Ctx.drain_some line' op' again hold e.m.d x
  have start : (c.committed e (tyOf s.me) (vlOf s.me) made.elems).retired.WalksAs s.me := by
    rw [Ctx.retired, parts]
    exact ⟨⟨walks.pc, walks.levels⟩, walks.g⟩
  obtain ⟨written, line2, walks2⟩ := (c.committed e (tyOf s.me) (vlOf s.me) made.elems).retired.wrSync_keeps (memberOf s.me v).d x
  have retired := (c.committed e (tyOf s.me) (vlOf s.me) made.elems).retired_sameVec
  have empty : (c.committed e (tyOf s.me) (vlOf s.me) made.elems).retired.queue = [] ∧ (c.committed e (tyOf s.me) (vlOf s.me) made.elems).retired.running = none :=
    ⟨rfl, rfl⟩
  generalize (c.committed e (tyOf s.me) (vlOf s.me) made.elems).retired = r at me start written line2 walks2 retired empty
  obtain ⟨moved, line3, -⟩ := (r.wrSync (memberOf s.me v).d x).advance_keeps
  have after : (r.wrSync (memberOf s.me v).d x).WalksAs (s.me.wr (memberOf s.me v).d x) := by
    have h := start.wr (memberOf s.me v).d x
    exact ⟨⟨walks2.pc.trans h.pc, walks2.levels.trans h.levels⟩, walks2.g.trans h.g⟩
  have place : (r.wrSync (memberOf s.me v).d x).StandsAs s.me := by
    have h := Ctx.wr_eq s.me (memberOf s.me v).d x
    exact ⟨after.pc.trans (by rw [h]), after.levels.trans (by rw [h])⟩
  refine ⟨?_, ?_, ?_, ?_, ?_, ?_, fun q => (beside.mem q).2, beside.others, c, data.sameVec, ?_⟩
  · rw [me]; exact after.advance.g
  · rw [me]; exact place.advance.pc
  · rw [me]; exact place.advance.levels
  · rw [me]
  · rw [me]; exact line3.trans (line2.trans empty.1)
  · rw [me]; exact moved.running.trans (written.running.trans empty.2)
  · rw [me]
    have sv := (retired.trans written.sameVec).trans moved.sameVec
    exact ⟨sv.vreg, sv.mreg, sv.len, sv.crGet⟩

end

end Sys2Proof.Machine
end

section
namespace Sys2Proof.Machine
open Sys2Proof.Claims

/-! ### What a member sees (R200, R250, R251) -/

/-- A view shows the registers, VL and type of a context. -/
structure View.Shows (V : View) (c : Ctx) : Prop where
  same : c.SameVec V.c
  vl : V.vl = vlOf c
  ty : V.ty = tyOf c

theorem State.viewOf_shows (s : State) (v : VInstr) (e : Entry) : ((s.queued v).viewOf s.cur e).Shows s.me := by
  have same : s.me.SameVec ((s.queued v).ctxAt s.cur) := by
    rw [State.queued_ctxAt]
    exact (s.me.standing_keeps ..).sameVec
  exact ⟨same, same.vlOf, by rw [State.viewOf, tyOf, same.crGet _ (by decide)]; rfl⟩

namespace View.Shows
variable {V : View} {c : Ctx} (h : V.Shows c)
include h

theorem src {e : Entry} (set : e.set = c.settings) (r w j : Nat) : V.src e r w j = srcAt c r w j := by
  have held (x : Nat) : codeBits V.ty w x = heldBits c w x := by rw [codeBits, h.ty]; rfl
  rw [View.src, held, srcAt, h.vl, set, vraw_congr h.same.vreg]
  by_cases hj : j < vlOf c
  · rw [if_neg (Nat.not_le.mpr hj), if_pos hj]
  · rw [if_pos (Nat.not_lt.mp hj), if_neg hj]
    rfl

theorem whole (m : Member) : V.whole m = selectedList c m := by
  rw [View.whole, h.vl, selectedList]
  refine List.filter_congr fun j _ => ?_
  rw [View.selected, mbit_congr h.same.mreg]

end View.Shows

/-- The elements selected are below VL. -/
theorem lt_of_mem_selectedList {c : Ctx} {m : Member} {j : Nat} (h : j ∈ selectedList c m) : j < vlOf c := List.mem_range.mp (List.mem_of_mem_filter h)

theorem selectedList_sorted (c : Ctx) (m : Member) : (selectedList c m).Pairwise (· < ·) := List.pairwise_lt_range.filter _

/-! ### Members that give elements values and flags, and nothing else -/

theorem VOp.pipe_of_vx {o : VOp} (h : o.pipe = .vx) : o.pipe ≠ .vset ∧ o.pipe ≠ .vls := by
  rw [h]
  exact ⟨Pipe.noConfusion, Pipe.noConfusion⟩

/-- Elements at some indices, each with its flags and a value or none. -/
def elemsAt (is : List Nat) (val : Nat → Option Nat) (fl : Nat → Flags) : List Elem := is.map fun j => { i := j, val := val j, flags := fl j }

section
variable {is : List Nat} {val : Nat → Option Nat} {fl : Nat → Flags}

theorem mem_elemsAt {x : Elem} : x ∈ elemsAt is val fl ↔ ∃ j ∈ is, x = { i := j, val := val j, flags := fl j } := by
  simp only [elemsAt, List.mem_map, eq_comm]

theorem elemsAt_plain : ∀ x ∈ elemsAt is val fl, x.Plain := by
  intro x hx
  obtain ⟨j, -, rfl⟩ := mem_elemsAt.mp hx
  exact ⟨rfl, rfl⟩

theorem elemsAt_below {n : Nat} (below : ∀ j ∈ is, j < n) : ∀ x ∈ elemsAt is val fl, x.i < n := by
  intro x hx
  obtain ⟨j, hj, rfl⟩ := mem_elemsAt.mp hx
  exact below j hj

/-- Where no flag traps, a member that only gives elements values and flags runs to its end. -/
theorem Made.quiet_of_elemsAt {made : Made} {e : Entry} {vl : Nat} (untrapped : e.m.x = true ∨ e.set.fen = 0) (elems : made.elems = elemsAt is val fl)
    (below : ∀ j ∈ is, j < vl) (push : made.push = none) (take : made.take = none) : made.Quiet e vl := by
  refine ⟨elems ▸ elemsAt_below below, fun x hx => ?_, fun x hx => ?_, push, take⟩
  · obtain ⟨j, -, rfl⟩ := mem_elemsAt.mp (elems ▸ hx)
    have still : (!e.m.x && traps e.set.fen (fl j)) = false := by
      rcases untrapped with hx | hfen
      · rw [hx]; rfl
      · rw [hfen, traps, show (0 : Flags) = 0#8 from rfl, BitVec.and_zero]
        exact Bool.and_false _
    show (if (!e.m.x && traps e.set.fen (fl j)) = true then _ else _) = none
    rw [still]
    rfl
  · obtain ⟨j, -, rfl⟩ := mem_elemsAt.mp (elems ▸ hx)
    rfl

end

theorem putElem_noDest (c : Ctx) (x : Elem) : c.putElem none x = c := by
  unfold Ctx.putElem
  cases x.val <;> rfl

/-- A member with neither a vector nor a mask destination changes no register but %flags and %ocount. -/
theorem committed_keepsRegs {c : Ctx} {e : Entry} {ty vl : Nat} {xs : List Elem} (plain : ∀ x ∈ xs, x.Plain) (dest : e.m.vdest ty e.set = none)
    (mdest : e.m.mdest = none) (x : e.m.x = false) : KeepsRegs c (c.committed e ty vl xs) [] [] := by
  have elems : (c.commitElems e ty xs).vreg = c.vreg ∧ (c.commitElems e ty xs).mreg = c.mreg := by
    induction xs generalizing c with
    | nil => exact ⟨rfl, rfl⟩
    | cons y ys ih =>
      have hy := plain y List.mem_cons_self
      obtain ⟨vreg, mreg⟩ := ih (c := c.commitElem e ty y) fun z hz => plain z (List.mem_cons_of_mem _ hz)
      refine ⟨vreg.trans ?_, mreg.trans ?_⟩
      · rw [commitElem_vreg c e ty hy, dest, putElem_noDest]
      · rw [commitElem_mreg c e ty hy, x]
        rfl
  have whole : c.committed e ty vl xs = c.commitElems e ty xs := by
    show ((c.commitElems e ty xs).commitLens e ty vl xs).commitMasks e vl = _
    rw [commitMasks_eq _ e vl mdest, x, if_neg fun h => Bool.false_ne_true h.2, commitLens_none _ e ty vl plain dest]
  rw [whole]
  exact ⟨fun r b _ _ _ => vbyte_congr elems.1 r b, fun r j _ _ _ => mbit_congr elems.2 r j⟩

section
variable {i : Instr} {s : State} {v : VInstr} {made : Made} {is : List Nat} {val : Nat → Option Nat} {fl : Nat → Flags}
  (issue : exec i s = s.issueVector i) (hv : opOf i = some v) (ready : VReady s v) (op : v.m.op.pipe ≠ .vset ∧ v.m.op.pipe ≠ .vls)
  (free : v.m.op.free = true) (makes : s.Makes v made) (elems : made.elems = elemsAt is val fl) (mdest : (memberOf s.me v).mdest = none)
include issue hv ready op free makes elems mdest

/-- A member that gives some of its elements values: the vector destination and the flags follow the elements with a value, the exception mask
all of them. -/
theorem runsAlone_values (syncs : v.m.syncs = false) (g : made.g = none) (nodup : is.Nodup)
    (dest : (memberOf s.me v).vdest (tyOf s.me) s.me.settings = some ((memberOf s.me v).d, typeWidth (tyOf s.me)))
    {act : Nat → Prop} {f : Nat → Nat × Flags}
    (on : ∀ j, act j → j ∈ is ∧ val j = some (f j).1 ∧ fl j = (f j).2 ∧ (f j).1 < 2 ^ typeWidth (tyOf s.me))
    (off : ∀ j ∈ is, ¬ act j → val j = none ∧ fl j = 0) :
    ∃ t, RunsAlone i s t ∧ VRest s t ∧ KeepsMemory s t ∧ KeepsRegs s.me t.me [(memberOf s.me v).d] (masksOf (memberOf s.me v) [])
      ∧ VectorResult s.me t.me act (memberOf s.me v).d (typeWidth (tyOf s.me)) (fun j => (f j).1)
      ∧ FlagsRaised s.me t.me act (fun j => (f j).2) ∧ ExceptionMask s.me t.me (memberOf s.me v) (· ∈ is) fl := by
  obtain ⟨t, runs, rest, mem, c, same, after⟩ := runsAlone_vector issue hv ready op free makes syncs g
  have below := makes.2.below
  obtain ⟨-, -, -, -, -, -, -, -, -, vlmax, -⟩ := ready
  rw [elems] at after below
  have commits : Commits c (s.me.entryOf s.ir v true) (tyOf s.me) (vlOf s.me) (elemsAt is val fl) (memberOf s.me v).d :=
    ⟨same.vlOf, vlmax, dest, mdest, elemsAt_plain, below, List.pairwise_map.mpr nodup⟩
  have at_ (j : Nat) (hj : j ∈ is) : ({ i := j, val := val j, flags := fl j } : Elem) ∈ elemsAt is val fl := mem_elemsAt.mpr ⟨j, hj, rfl⟩
  refine ⟨t, runs, rest, mem, keepsRegs_congr same after commits.keepsRegs, vectorResult_congr same after (commits.vectorResult ?_ ?_),
    flagsRaised_congr same after (commits.flagsRaised ?_ ?_), exceptionMask_congr same after (commits.exceptionMask ?_ ?_)⟩
  · intro x hx idle
    obtain ⟨j, hj, rfl⟩ := mem_elemsAt.mp hx
    exact (off j hj idle).1
  · intro j active
    obtain ⟨hj, value, -, lt⟩ := on j active
    exact ⟨lt, _, at_ j hj, rfl, value⟩
  · intro x hx
    obtain ⟨j, hj, rfl⟩ := mem_elemsAt.mp hx
    by_cases active : act j
    · exact .inr ⟨active, (on j active).2.2.1⟩
    · exact .inl (off j hj active).2
  · intro j active
    obtain ⟨hj, -, flags, -⟩ := on j active
    exact ⟨_, at_ j hj, flags⟩
  · intro x hx
    obtain ⟨j, hj, rfl⟩ := mem_elemsAt.mp hx
    exact hj
  · exact fun j hj => ⟨_, at_ j hj, rfl, rfl⟩

/-- A synchronising member with no other destination answers with its g result, and raises the flags of its elements. -/
theorem answers_of_elemsAt (syncs : v.m.syncs = true) (coord : s.me.isCoord (memberOf s.me v).d = false) (d : (memberOf s.me v).d = v.m.d) {x : W64}
    (g : made.g = some x) (dest : (memberOf s.me v).vdest (tyOf s.me) s.me.settings = none) (hx : (memberOf s.me v).x = false) {r : Flags}
    (flags : ∀ n, r.getLsbD n = true ↔ ∃ j ∈ is, (fl j).getLsbD n = true) : Answers i s (memberOf s.me v) x r := by
  obtain ⟨t, runs, gs, pc, levels, hold, queue, running, mem, others, c, same, after⟩ :=
    runsAlone_general issue hv ready op free makes syncs (d ▸ coord) g
  rw [elems] at after
  refine ⟨t, runs, gs, pc, levels, hold, queue, running, keepsRegs_congr same after (committed_keepsRegs elemsAt_plain dest mdest hx), mem,
    flagsRaised_congr same after fun n _ => ?_, others⟩
  rw [committed_flags mdest elemsAt_plain, exists_eq_left, flags]
  refine or_congr_right ⟨?_, ?_⟩
  · rintro ⟨x, hx, bit⟩
    obtain ⟨j, hj, rfl⟩ := mem_elemsAt.mp hx
    exact ⟨j, hj, bit⟩
  · rintro ⟨j, hj, bit⟩
    exact ⟨_, mem_elemsAt.mpr ⟨j, hj, rfl⟩, bit⟩

end

end Sys2Proof.Machine
end

section
namespace Sys2Proof.Machine
open Sys2Proof.Claims

/-! ### Reductions (R48, R288, R289) -/

/-- What the member of a reduction is, renamed or not: one with a g result keeps the number of its destination (R137). -/
structure Reduces (o : RedOp) (v : VInstr) (m : Member) : Prop where
  op : m.op = .red o
  word : v.m.op = .red o
  b : m.b = v.m.b
  x : m.x = v.m.x
  emask : m.emask = v.m.emask
  d : v.m.b = 1 → m.d = v.m.d

theorem memberOf_reduces (c : Ctx) {v : VInstr} {o : RedOp} (op : v.m.op = .red o) : Reduces o v (memberOf c v) := by
  obtain ⟨kind, x, emask⟩ := memberOf_fields c v
  refine ⟨kind.trans op, op, ?_, x, emask, fun b => ?_⟩
  · unfold memberOf
    split
    · rw [Member.rotate, op]; rfl
    · rfl
  · unfold memberOf
    split
    · rw [Member.rotate, op, b]; rfl
    · rfl

theorem redWant_word {i : Instr} {o : RedOp} {v : VInstr} (want : redWant i = some o) (hv : opOf i = some v) (s : State) :
    v.m.op = .red o ∧ exec i s = s.issueVector i := by
  unfold redWant at want
  split at want
  case h_10 => cases want
  all_goals cases want; cases hv; exact ⟨rfl, rfl⟩

/-- Of no element a reduction raises no flag. -/
theorem reduceOp_nil_flags (o : RedOp) (t : Nat) (mode : Mode) : (reduceOp o t mode []).2 = 0 := by
  have parts : (0 : Flags) ||| 0 = 0 := by decide
  cases o with
  | csum => exact parts
  | _ => rfl

/-- The elements that a reduction into a vector register reports: element 0, and under x = 1 every other for its exception bit. -/
def reducedAt (x : Bool) (vl : Nat) : List Nat := if vl = 0 then [] else if x then List.range vl else [0]

theorem mem_reducedAt_of_x {vl j : Nat} : j ∈ reducedAt true vl ↔ j < vl := by
  unfold reducedAt
  split
  · next h => simp [h]
  · exact List.mem_range

theorem zero_mem_reducedAt {x : Bool} {vl : Nat} (h : vl ≠ 0) : 0 ∈ reducedAt x vl := by
  rw [reducedAt, if_neg h]
  split
  · exact List.mem_range.mpr (Nat.pos_of_ne_zero h)
  · exact List.mem_singleton.mpr rfl

theorem reducedAt_lt {x : Bool} {vl : Nat} : ∀ j ∈ reducedAt x vl, j < vl := by
  intro j hj
  unfold reducedAt at hj
  split at hj
  · cases hj
  · split at hj
    · exact List.mem_range.mp hj
    · rw [List.mem_singleton.mp hj]
      omega

theorem reducedAt_nodup (x : Bool) (vl : Nat) : (reducedAt x vl).Nodup := by
  unfold reducedAt
  split
  · exact List.nodup_nil
  · split
    · exact List.nodup_range
    · exact List.nodup_singleton 0

/-- The value and the flags of a reduction, as element 0 gets them. -/
def reducedVal (vl r j : Nat) : Option Nat := if j = 0 ∧ vl ≠ 0 then some r else none
def reducedFlags (vl : Nat) (r : Flags) (j : Nat) : Flags := if j = 0 ∧ vl ≠ 0 then r else 0

/-- What a reduction of the selected elements of a context gives. -/
def reducedOf (c : Ctx) (m : Member) (o : RedOp) : Nat × Flags :=
  reduceOp o (tyOf c) (Claims.modeOf c) ((selectedList c m).map fun j => srcAt c m.a (typeWidth (tyOf c)) j)

section
variable {V : View} {c : Ctx} (shows : V.Shows c) {e : Entry} (set : e.set = c.settings) (o : RedOp)
include shows set

theorem View.red_reduces : reduceOp o V.ty e.mode ((V.whole e.m).map fun j => V.src e e.m.a (typeWidth V.ty) j) = reducedOf c e.m o := by
  have mode : e.mode = Claims.modeOf c := by rw [Entry.mode, set]; rfl
  rw [reducedOf, shows.whole, shows.ty, mode]
  exact congrArg _ (List.map_congr_left fun j _ => shows.src set ..)

/-- A reduction into a vector register. -/
theorem View.red_vector (b : e.m.b ≠ 1) : V.red e o = {
    elems := elemsAt (reducedAt e.m.x (vlOf c)) (reducedVal (vlOf c) ((reducedOf c e.m o).1 % 2 ^ typeWidth (tyOf c)))
      (reducedFlags (vlOf c) (reducedOf c e.m o).2) } := by
  unfold View.red
  dsimp only
  rw [if_neg b, View.red_reduces shows set, View.quietBits, shows.vl, shows.ty, reducedAt]
  cases vlOf c with
  | zero => rfl
  | succ n =>
    rw [if_neg n.succ_ne_zero, if_neg n.succ_ne_zero, List.range_succ_eq_map, List.drop_one, List.tail_cons]
    cases e.m.x with
    | false => rfl
    | true => simp [elemsAt, reducedVal, reducedFlags, Function.comp_def]

/-- A reduction into a general register. -/
theorem View.red_general (b : e.m.b = 1) : V.red e o = {
    elems := elemsAt (if vlOf c = 0 then [] else [0]) (fun _ => none) (fun _ => (reducedOf c e.m o).2)
    g := some (reduceToG o (tyOf c) (reducedOf c e.m o).1) } := by
  unfold View.red
  dsimp only
  rw [if_pos b, View.red_reduces shows set, shows.vl, shows.ty]
  split <;> rfl

end

/-- What a reduction makes alone in its convoy. -/
theorem makes_of_red {s : State} {v : VInstr} {o : RedOp} (op : (memberOf s.me v).op = .red o) {made : Made}
    (red : ((s.queued v).viewOf s.cur (s.me.entryOf s.ir v true)).red (s.me.entryOf s.ir v true) o = made)
    (quiet : made.Quiet (s.me.entryOf s.ir v true) (vlOf s.me)) : s.Makes v made := by
  refine ⟨?_, quiet⟩
  have kind : (s.me.entryOf s.ir v true).m.op = .red o := op
  rw [View.make, kind]
  exact congrArg (·, s.queued v) red

/-- A member traps on no flag where its word does not. -/
theorem entry_untrapped {s : State} {v : VInstr} (untrapped : Untrapped s v) :
    (s.me.entryOf s.ir v true).m.x = true ∨ (s.me.entryOf s.ir v true).set.fen = 0 :=
  untrapped.imp (fun h => (memberOf_fields s.me v).2.1.trans h) id

section
variable {i : Instr} {s : State} {v : VInstr} {o : RedOp} (want : redWant i = some o) (hv : opOf i = some v) (ready : VReady s v)
  (untrapped : Untrapped s v)
include want hv ready untrapped

/-- A reduction into a vector register: element 0 alone gets a value. -/
theorem red_toVector (b : (memberOf s.me v).b = 0) :
    let c := s.me
    let m := memberOf c v
    let r := reducedOf c m o
    let w := typeWidth (tyOf c)
    let zero (j : Nat) : Prop := j = 0 ∧ vlOf c ≠ 0
    ∃ t, RunsAlone i s t ∧ VRest s t ∧ KeepsMemory s t ∧ KeepsRegs c t.me [m.d] (masksOf m [])
      ∧ VectorResult c t.me zero m.d w (fun _ => r.1 % 2 ^ w) ∧ FlagsRaised c t.me zero (fun _ => r.2)
      ∧ ExceptionMask c t.me m (fun j => j < vlOf c) fun j => if j = 0 then r.2 else 0 := by
  intro c m r w zero
  obtain ⟨word, issue⟩ := redWant_word want hv s
  have kind := memberOf_reduces s.me word
  have notOne : m.b ≠ 1 := by rw [b]; decide
  have red := View.red_vector (s.viewOf_shows v (s.me.entryOf s.ir v true)) (e := s.me.entryOf s.ir v true) rfl o notOne
  have makes := makes_of_red kind.op red (Made.quiet_of_elemsAt (entry_untrapped untrapped) rfl reducedAt_lt rfl rfl)
  have mdest : m.mdest = none := by rw [Member.mdest, kind.op]
  have dest : m.vdest (tyOf c) c.settings = some (m.d, w) := by rw [Member.vdest, kind.op]; exact if_neg notOne
  have syncs : v.m.syncs = false := by rw [Member.syncs, word]; exact beq_eq_false_iff_ne.mpr (kind.b ▸ notOne)
  obtain ⟨t, runs, rest, mem, regs, result, flags, exceptions⟩ := runsAlone_values issue hv ready (VOp.pipe_of_vx (by rw [word]; rfl))
    (by rw [word]; rfl) makes rfl mdest syncs rfl (reducedAt_nodup ..) dest (act := zero) (f := fun _ => (r.1 % 2 ^ w, r.2))
    (fun j active => ⟨active.1 ▸ zero_mem_reducedAt active.2, if_pos active, if_pos active, Nat.mod_lt _ (Nat.two_pow_pos w)⟩)
    (fun j _ idle => ⟨if_neg idle, if_neg idle⟩)
  refine ⟨t, runs, rest, mem, regs, result, flags, fun hx j hj => ?_⟩
  have at_ : j ∈ reducedAt m.x (vlOf s.me) ↔ j < vlOf s.me := by rw [hx, mem_reducedAt_of_x]
  obtain ⟨on, off⟩ := exceptions hx j hj
  refine ⟨fun (active : j < vlOf s.me) => (on (at_.mpr active)).trans ?_, fun idle => off (mt at_.mp idle)⟩
  have eq : reducedFlags (vlOf s.me) r.2 j = if j = 0 then r.2 else 0 := if_congr (and_iff_left (by omega)) rfl rfl
  exact congrArg (fun f : Flags => f &&& 0xEF != 0) eq

/-- A reduction into a general register; with VL = 0 there is no element, and no flag. -/
theorem red_toGeneral (b : (memberOf s.me v).b = 1) (coord : s.me.isCoord (memberOf s.me v).d = false) :
    Answers i s (memberOf s.me v) (reduceToG o (tyOf s.me) (reducedOf s.me (memberOf s.me v) o).1) (reducedOf s.me (memberOf s.me v) o).2 := by
  obtain ⟨word, issue⟩ := redWant_word want hv s
  have kind := memberOf_reduces s.me word
  have b' : v.m.b = 1 := kind.b ▸ b
  have noX : (memberOf s.me v).x = false := by
    obtain ⟨-, -, -, -, -, -, -, -, formed, -, -⟩ := ready
    rw [Member.malformed, word, b'] at formed
    rw [kind.x]
    cases hx : v.m.x with
    | false => rfl
    | true => rw [hx] at formed; simp at formed
  have red := View.red_general (s.viewOf_shows v (s.me.entryOf s.ir v true)) (e := s.me.entryOf s.ir v true) rfl o b
  have below : ∀ j ∈ (if vlOf s.me = 0 then [] else [0]), j < vlOf s.me := reducedAt_lt (x := false)
  have makes := makes_of_red kind.op red (Made.quiet_of_elemsAt (entry_untrapped untrapped) rfl below rfl rfl)
  have mdest : (memberOf s.me v).mdest = none := by rw [Member.mdest, kind.op]
  have dest : (memberOf s.me v).vdest (tyOf s.me) s.me.settings = none := by rw [Member.vdest, kind.op]; exact if_pos b
  have syncs : v.m.syncs = true := by rw [Member.syncs, word, b']; rfl
  refine answers_of_elemsAt issue hv ready (VOp.pipe_of_vx (by rw [word]; rfl)) (by rw [word]; rfl) makes rfl mdest syncs coord (kind.d b') rfl dest
    noX fun n => ?_
  by_cases zero : vlOf s.me = 0
  · have none_ : selectedList s.me (memberOf s.me v) = [] := by rw [selectedList, zero]; rfl
    rw [if_pos zero, reducedOf, none_, List.map_nil, reduceOp_nil_flags, show (0 : Flags) = 0#8 from rfl, BitVec.getLsbD_zero]
    exact ⟨fun h => absurd h Bool.false_ne_true, fun ⟨_, hj, _⟩ => absurd hj List.not_mem_nil⟩
  · rw [if_neg zero]
    exact ⟨fun bit => ⟨0, List.mem_singleton.mpr rfl, bit⟩, fun ⟨_, _, bit⟩ => bit⟩

end

end Sys2Proof.Machine
end

section
namespace Sys2Proof.Machine
open Sys2Proof.Claims

/-! ### VSCAN (R289) -/

/-- Each non-empty initial part of an ascending list is its elements up to one of them. -/
theorem prefixes_sorted {is : List Nat} (sorted : is.Pairwise (· < ·)) : prefixes is = is.map fun j => is.filter fun q => decide (q ≤ j) := by
  induction is with
  | nil => rfl
  | cons x xs ih =>
    obtain ⟨above, sorted'⟩ := List.pairwise_cons.mp sorted
    have head : xs.filter (fun q => decide (q ≤ x)) = [] :=
      List.filter_eq_nil_iff.mpr fun q hq le => Nat.not_le.mpr (above q hq) (of_decide_eq_true le)
    have upTo (j : Nat) (le : x ≤ j) : (x :: xs).filter (fun q => decide (q ≤ j)) = x :: xs.filter fun q => decide (q ≤ j) :=
      List.filter_cons_of_pos (p := fun q => decide (q ≤ j)) (decide_eq_true le)
    rw [prefixes, ih sorted', List.map_cons, upTo x (Nat.le_refl x), head, List.map_map]
    exact congrArg _ (List.map_congr_left fun j hj => (upTo j (Nat.le_of_lt (above j hj))).symm)

/-- The float types are their own parts, in formats of their width. -/
theorem tyFloat_parts {t : Nat} (h : tyFloat t = true) : partTy t = t ∧ (fmtOf t).width = typeWidth t := by
  have cases_ : (t = 10 ∨ t = 11) ∨ t = 12 := by simpa [tyFloat] using h
  obtain (rfl | rfl) | rfl := cases_ <;> exact ⟨rfl, rfl⟩

/-- The value and the flags of one element of a scan. -/
def scannedAt (c : Ctx) (m : Member) (j : Nat) : Nat × Flags :=
  let ps := ((selectedList c m).filter fun q => decide (q ≤ j)).map fun q => srcAt c m.a (typeWidth (tyOf c)) q
  if tyInt (tyOf c) then ((reduceOp .sum (tyOf c) (Claims.modeOf c) ps).1 % 2 ^ typeWidth (tyOf c), 0)
  else reduceOp .fsum (tyOf c) (Claims.modeOf c) ps

section
variable {c : Ctx} {m : Member} (type : tyInt (tyOf c) = true ∨ tyFloat (tyOf c) = true)
include type

/-- A scan sums as a reduction by sum does. -/
theorem scannedAt_eq (j : Nat) : scannedAt c m j =
    let ps := ((selectedList c m).filter fun q => decide (q ≤ j)).map fun q => srcAt c m.a (typeWidth (tyOf c)) q
    if tyInt (tyOf c) then (truncInt (intSum (tyOf c) ps) (typeWidth (tyOf c)), 0) else fpSum (fmtOf (tyOf c)) (Claims.modeOf c) ps := by
  have le : typeWidth (tyOf c) ≤ 64 := by
    have h := typeWidth_mem (tyOf c)
    revert h
    generalize typeWidth (tyOf c) = w
    revert w
    decide
  unfold scannedAt
  dsimp only
  split
  · rw [← truncInt_truncInt _ le]
    rfl
  · next notInt =>
    rw [reduceOp, (tyFloat_parts (type.resolve_left notInt)).1]

theorem scannedAt_lt (j : Nat) : (scannedAt c m j).1 < 2 ^ typeWidth (tyOf c) := by
  rw [scannedAt_eq type]
  dsimp only
  split
  · exact truncInt_lt ..
  · next notInt =>
    rw [← (tyFloat_parts (type.resolve_left notInt)).2]
    exact fpSum_lt _ (fmtOf_proper _) ..

theorem View.scan_eq {V : View} (shows : V.Shows c) {e : Entry} (set : e.set = c.settings) (hm : e.m = m) :
    V.scan e = { elems := elemsAt (selectedList c m) (fun j => some (scannedAt c m j).1) (fun j => (scannedAt c m j).2) } := by
  have mode : e.mode = Claims.modeOf c := by rw [Entry.mode, set]; rfl
  have source : V.src e m.a (typeWidth (tyOf c)) = srcAt c m.a (typeWidth (tyOf c)) := funext fun j => shows.src set ..
  unfold View.scan
  dsimp only
  rw [shows.whole, hm, shows.ty, mode, prefixes_sorted (selectedList_sorted c m), List.map_map, List.map_zip_eq_zipWith, List.zipWith_map_right,
    List.zipWith_self, source]
  refine congrArg (fun xs => ({ elems := xs } : Made)) (List.map_congr_left fun j _ => ?_)
  exact congrArg (fun r : Rslt => ({ i := j, val := some r.1, flags := r.2 } : Elem)) (scannedAt_eq type j).symm

end

/-- A scan gives each selected element the sum up to it. -/
theorem scan_computes {i : Instr} {s : State} {v : VInstr} (want : ∃ a b d k x, i = .vscan a b d k x) (hv : opOf i = some v) (ready : VReady s v)
    (untrapped : Untrapped s v) :
    Computes i s (memberOf s.me v) (· ∈ selectedList s.me (memberOf s.me v)) (typeWidth (tyOf s.me)) (scannedAt s.me (memberOf s.me v)) := by
  obtain ⟨_, _, _, _, _, rfl⟩ := want
  have word : v.m.op = .scan := by cases hv; rfl
  have kind : (memberOf s.me v).op = .scan := (memberOf_fields s.me v).1.trans word
  have type : tyInt (tyOf s.me) = true ∨ tyFloat (tyOf s.me) = true := by
    obtain ⟨-, -, -, -, -, -, -, -, -, -, legal⟩ := ready
    rw [Member.legal, kind] at legal
    exact (Bool.or_eq_true ..).mp legal
  have scan := View.scan_eq type (s.viewOf_shows v (s.me.entryOf s.ir v true)) (e := s.me.entryOf s.ir v true) (m := memberOf s.me v) rfl rfl
  obtain ⟨made, hmade⟩ : ∃ made, made = ((s.queued v).viewOf s.cur (s.me.entryOf s.ir v true)).scan (s.me.entryOf s.ir v true) := ⟨_, rfl⟩
  rw [← hmade] at scan
  have makes : s.Makes v made := by
    refine ⟨?_, Made.quiet_of_elemsAt (entry_untrapped untrapped) (by rw [scan]) (fun j hj => lt_of_mem_selectedList hj) (by rw [scan]) (by rw [scan])⟩
    have kind' : (s.me.entryOf s.ir v true).m.op = .scan := kind
    rw [View.make, kind', hmade]
  have mdest : (memberOf s.me v).mdest = none := by rw [Member.mdest, kind]
  have dest : (memberOf s.me v).vdest (tyOf s.me) s.me.settings = some ((memberOf s.me v).d, typeWidth (tyOf s.me)) := by rw [Member.vdest, kind]
  obtain ⟨t, runs, rest, mem, regs, result, flags, exceptions⟩ := runsAlone_values rfl hv ready (VOp.pipe_of_vx (by rw [word]; rfl))
    (by rw [word]; rfl) makes (by rw [scan]) mdest (by rw [Member.syncs, word]) (by rw [scan]) ((selectedList_sorted ..).imp Nat.ne_of_lt) dest
    (act := (· ∈ selectedList s.me (memberOf s.me v))) (f := scannedAt s.me (memberOf s.me v))
    (fun j active => ⟨active, rfl, rfl, scannedAt_lt type j⟩) (fun j active idle => absurd active idle)
  exact ⟨t, runs, rest, mem, regs, flags, result, exceptions⟩

end Sys2Proof.Machine
end

section
open Sys2Proof Sys2Proof.Machine Sys2Proof.Claims

/-- Settles O43: a reduction or a scan issues, runs and drains alone in its convoy, and what it makes is committed to element 0, to g[d], or to the
selected elements; the integer and the float sums are those of `reduceOp_int` and `fpSum_isRounded`. -/
theorem vredResults : Obligations.VredResults := by
  unfold Obligations.VredResults
  refine ⟨fun i s v hv ready untrapped => ⟨fun o want => ⟨?_, ?_⟩, ?_⟩, ?_, ?_⟩
  · exact red_toVector want hv ready untrapped
  · exact red_toGeneral want hv ready untrapped
  · exact fun want => scan_computes want hv ready untrapped
  · exact fun t mode xs _ hx => reduceOp_int t mode hx
  · intro t mode xs vs ht hxs
    have floats : ∀ t ∈ [10, 11, 12], tyFloat t = true := by decide
    have float := floats t ht
    have sum : reduceOp .fsum t mode xs = fpSum (fmtOf t) mode xs := by rw [reduceOp, (tyFloat_parts float).1]
    refine ⟨sum ▸ fpSum_isRounded _ (fmtOf_proper t) mode hxs, ?_⟩
    rintro rfl
    rw [reduceOp, reduceOp, reduceOp, (tyFloat_parts float).1]
    exact ⟨rfl, rfl, rfl⟩

end
